-- ==== Sys2Proof/Word.lean ====
section
/-! DEFINITION. The word types of the model: bytes, register words, instruction words (R7, R8, R93). -/

namespace Sys2Proof

/-- One byte of a memory. -/
abbrev Byte := BitVec 8

/-- One 32-bit register (R31, R515). -/
abbrev Word := BitVec 32

/-- One instruction word (R93). -/
abbrev IWord := BitVec 128

/-- One tensor descriptor, eight 64-bit words W0 (least significant) to W7 (R102). -/
abbrev DWord := BitVec 512

end Sys2Proof
end

