-- ==== Sys2Proof/Syntax.lean ====
section
/-! DEFINITION. The commands of the block, one constructor per row of the opcode table, and the data they carry. -/

namespace Sys2Proof

/-- A channel of the module (R15). -/
abbrev Chan := Fin 4
/-- A core site (R15). -/
abbrev Site := Fin 100
/-- A context of a channel (R15). -/
abbrev Ctx := Fin 16
/-- A Yelli port of a channel (R15). -/
abbrev Port := Fin 6
/-- A submission or completion queue of a channel (R15). -/
abbrev Que := Fin 64

/-- The three instruction streams of a core (R71, R72). -/
inductive Strm where
  | f | b | u
deriving DecidableEq, Repr

/-- Where an instruction issues: channel, core site, stream. -/
structure Place where
  ch : Chan
  site : Site
  st : Strm
deriving DecidableEq, Repr

/-- What a SEC-DED check finds on a word: clean, one bit corrected, two bits in error (R45, R63, R228). -/
inductive Ecc where
  | clean | single | double
deriving DecidableEq, Repr

/-- Who makes a register access (R23, R62). -/
inductive Master where
  | pf0 | pf | qseq | tseq | pseq | fseq | dwegar | core | other
deriving DecidableEq, Repr

/-- A router's mesh ports and its local port (R42). -/
inductive MPort where
  | north | south | east | west | loc
deriving DecidableEq, Repr

/-- A mesh flit with its sideband fields (R45). `mask` is the site mask that the routers keep from a multicast header for the
data flit that follows it (R58); it is 0 for every other flit. -/
structure Flit where
  dst : Fin 128
  sub : Fin 8
  src : Fin 128
  srcsub : Fin 8
  vc : Bool
  gen : Bool
  tag : BitVec 16
  kind : Fin 8
  data : BitVec 1024
  mask : BitVec 100
deriving DecidableEq, Repr

/-- A queue line: header flag and 128 bytes (R178). -/
structure QLine where
  hdr : Bool
  data : BitVec 1024
deriving DecidableEq, Repr

/-- A FAULT message, or a record's contents (R449, R453): source node, code, context, whether the context is meaningful,
arguments. -/
structure FaultMsg where
  node : Fin 128
  code : BitVec 8
  ctx : Fin 16
  ctxv : Bool
  arg0 : BitVec 32
  arg1 : BitVec 64
deriving DecidableEq, Repr

/-- The raw RS(36,32) code words found where the memory's content is read, by the channel address of the 64-byte word; words
not listed are found as they were stored (R276 to R278). -/
abbrev RawWords := List (Nat × BitVec 576)

/-- What a NAND read ends in: clean, after read retry, after soft decoding, or uncorrectable with the bytes as decoded
(R299, R302). -/
inductive FlashRes where
  | clean
  | retry
  | soft
  | uncorr (data : List Byte)
deriving DecidableEq, Repr

/-- An error in a core's own structures: which one (R453), the entry, whether two bits are wrong (R454). -/
inductive CoreErr where
  | clean
  | single
  | double (which : Fin 5) (entry : BitVec 32)
deriving DecidableEq, Repr

/-- A Yelli packet: its header slot and its data slots (R343). -/
structure Pkt where
  hdr : BitVec 512
  data : List (BitVec 512)
deriving DecidableEq, Repr



/-- The commands of the block: one constructor per row of the opcode table, in its order. -/
inductive Instr where
  /-- NOP (R101): Instruction that performs no operation; its header wait and signal still act. -/
  | nop (p : Place) (w : IWord)
  /-- END (R125): Instruction that ends the run, or the U program for the step, once every earlier instruction of the stream has completed. -/
  | endRun (p : Place) (w : IWord)
  /-- JUMP (R101): Instruction that adds 16 × OFF to the stream's program counter. -/
  | jump (p : Place) (w : IWord)
  /-- LSET (R97): Instruction that loads COUNT into a loop counter. -/
  | lset (p : Place) (w : IWord)
  /-- LOOP (R101): Instruction that decrements a loop counter and branches while the counter stays non-zero. -/
  | loop (p : Place) (w : IWord)
  /-- FSET (R113): Instruction that writes IMM[0] to a condition flag CF0–CF5. -/
  | fset (p : Place) (w : IWord)
  /-- FTEST (R113): Instruction that compares element 0 of a descriptor with IMM and writes the result to a condition flag. -/
  | ftest (p : Place) (w : IWord)
  /-- TWAIT (R119): Instruction that makes the stream wait until a tack count reaches VALUE and then subtracts VALUE. -/
  | twait (p : Place) (w : IWord)
  /-- TACK_WAIT_DONE (R121): A waiting stream's tack threshold is met, the count is decremented and the stream issues on. -/
  | tackWaitDone (p : Place)
  /-- TSIG (R119): Instruction that adds VALUE to a tack once every earlier write of the stream is stored. -/
  | tsig (p : Place) (w : IWord)
  /-- TSET (R119): Instruction that sets a tack count to VALUE at issue, or is a no-op while a stream waits on that tack. -/
  | tset (p : Place) (w : IWord)
  /-- RSIG (R122): Instruction that sends a BARRIER message carrying a remote tack signal to a peer core site. -/
  | rsig (p : Place) (w : IWord)
  /-- DRAIN (R125): Instruction that waits until every earlier write of the stream is stored and acknowledged. -/
  | drain (p : Place) (w : IWord)
  /-- DLOAD (R110): Instruction that reads DSRC + 1 descriptors from memory and writes them into the table in one cycle. -/
  | dload (p : Place) (w : IWord)
  /-- DSET (R112): Instruction that writes one 64-bit word of a descriptor. -/
  | dset (p : Place) (w : IWord)
  /-- DSHAPE (R111): Instruction that writes a saturated run-time extent into EXT_A or EXT_B of a descriptor. -/
  | dshape (p : Place) (w : IWord)
  /-- MATMUL (R136): Matrix instruction that walks groups, slabs and bobbin drains to compute EPI(D1 × D2 + D3). -/
  | matmul (p : Place) (w follow : IWord) (err : CoreErr)
  /-- MATMUL_S24 (R143): Matrix multiply whose D1 is in 2:4 structured form, walked at twice the dense rate. -/
  | matmulS24 (p : Place) (w follow : IWord) (err : CoreErr)
  /-- MATMUL_BSP (R145): Matrix multiply whose block-sparse D1 is driven by its pilot thread at a fixed slot rate. -/
  | matmulBsp (p : Place) (w follow : IWord) (err : CoreErr)
  /-- CONV1 (R142): One-dimensional convolution walked tap by tap over input-channel slabs. -/
  | conv1 (p : Place) (w follow : IWord) (err : CoreErr)
  /-- GATHERMM (R131): Matrix multiply over the rows of D1 that index tensor D3 lists. -/
  | gathermm (p : Place) (w follow : IWord) (err : CoreErr)
  /-- ATTN (R148): Attention instruction that walks query blocks over key-block slots with an online softmax. -/
  | attn (p : Place) (w : IWord)
  /-- ATTN_SEL (R150): Attention over only the key blocks that an index tensor lists for each query block. -/
  | attnSel (p : Place) (w : IWord)
  /-- ATTN_BWD (R152): Backward attention instruction that forms dQ, dK and dV by recomputing the scores. -/
  | attnBwd (p : Place) (w : IWord)
  /-- EW1 (R153): Unary elementwise instruction run on the mangle in chunks of 128 elements. -/
  | ew1 (p : Place) (w : IWord)
  /-- EW2 (R153): Binary elementwise instruction with broadcasting, run on the mangle. -/
  | ew2 (p : Place) (w : IWord)
  /-- EW3 (R153): Ternary elementwise multiply-add or select, run on the mangle. -/
  | ew3 (p : Place) (w : IWord)
  /-- CVT (R203): Instruction that converts D1 into D0's format, choosing MX block scales where D0 needs them. -/
  | cvt (p : Place) (w : IWord)
  /-- PRESCAN (R215): Instruction that chooses MX block scales, or a tensor scale image, from the present values of D1. -/
  | prescan (p : Place) (w : IWord)
  /-- ROWNORM (R153): Instruction that reads each row twice to normalise it, by mean and variance or by root mean square. -/
  | rownorm (p : Place) (w : IWord)
  /-- REDUCE (R237): Reduction of D1 over selected dimensions in the fixed FP32C lane order. -/
  | reduce (p : Place) (w : IWord)
  /-- TOPK (R241): Per-row selection of the k largest candidates with their positions and a count. -/
  | topk (p : Place) (w : IWord)
  /-- ROUTE (R246): Expert routing with static capacity, assigned in three phases. -/
  | route (p : Place) (w : IWord)
  /-- COPY (R153): Instruction that copies D1 to D0 line by line, with any change of layout or place. -/
  | copy (p : Place) (w : IWord)
  /-- GATHER (R101): Instruction that gathers rows of D1 selected by index tensor D2 into D0. -/
  | gather (p : Place) (w : IWord)
  /-- SCATTER (R235): Instruction that scatters rows of D1 into D0 at indices from D2, optionally adding in FP32C. -/
  | scatter (p : Place) (w : IWord)
  /-- SEND (R180): Instruction that streams D1 as frames of queue lines to a consumer core's queue under credit. -/
  | send (p : Place) (w : IWord)
  /-- RECV (R182): Instruction that takes whole frames from a queue up to the last frame and writes their valid rows to D0. -/
  | recv (p : Place) (w : IWord)
  /-- BSWAP (R264): Instruction that swaps the halves of a buffer pair once the stream's earlier uses of the pair have completed. -/
  | bswap (p : Place) (w : IWord)
  /-- OFFLOAD (R395): Instruction that writes D1 to D0 in LPDDR5X or flash for later recompute. -/
  | offload (p : Place) (w : IWord)
  /-- PREFETCH (R101): Instruction that stages D1 into scratchpad ahead of use, with no architectural effect. -/
  | prefetch (p : Place) (w : IWord)
  /-- NORMP (R319): Instruction that adds the sum of squares of a gradient into the core's norm accumulator. -/
  | normp (p : Place) (w : IWord)
  /-- NORMW (R321): Instruction that sends the core's norm contribution, waits for the global norm and loads the clip factor. -/
  | normw (p : Place) (w : IWord)
  /-- UPD_SGDM (R316): SGD-with-momentum update that writes version p + 1 of the parameter and momentum. -/
  | updSgdm (p : Place) (w : IWord)
  /-- UPD_ADAM (R317): Adam-family update that writes version p + 1 of the parameter, moments and step count. -/
  | updAdam (p : Place) (w : IWord)
  /-- UPD_PREC (R330): Block-preconditioned update over 128 × 128 blocks, with refreshes of the inverse statistic. -/
  | updPrec (p : Place) (w : IWord)
  /-- UPD_EMB (R325): In-place update of the touched embedding rows, each first saved in the journal. -/
  | updEmb (p : Place) (w : IWord)
  /-- SNAP (R335): Instruction that copies the pressed version of a tensor to an evaluation snapshot. -/
  | snap (p : Place) (w : IWord)
  /-- BKADD (R377): Instruction that adds a gradient into a bucket's FP32C accumulator through the tatting engine. -/
  | bkadd (p : Place) (w : IWord)
  /-- BKCLOSE (R378): Instruction that declares this core's contribution to a bucket complete for the step. -/
  | bkclose (p : Place) (w : IWord)
  /-- PGATHER (R393): Instruction that all-gathers the listed parameter shards from their owners into D0. -/
  | pgather (p : Place) (w : IWord)
  /-- INSTRUCTION_COMPLETE (R125): An instruction completes once all its writes are stored and acknowledged, and its header signal acts. -/
  | instructionComplete (p : Place)
  /-- RUN_BEGIN (R72): A core begins issuing its next run-list entry once the current run has issued its last instruction. -/
  | runBegin (ch : Chan) (site : Site)
  /-- U_STREAM_START (R75): A core's U stream starts once its last B run of the step has issued its last instruction. -/
  | uStreamStart (ch : Chan) (site : Site)
  /-- VERSION_WAIT_END (R78): A U stream that waited for an E run reading the version in its target buffer resumes writing. -/
  | versionWaitEnd (ch : Chan) (site : Site)
  /-- SLAB_ENTER (R173): A ready slab enters the PE array at a beat in which POS is 0, after its capacity checks. -/
  | slabEnter (p : Place) (err : CoreErr) (ecc : List (Fin 4096 × Ecc) := [])
  /-- BOBBIN_DRAIN (R137): A bobbin drains row by row after its last slab: bias, epilogue, conversion and write of D0. -/
  | bobbinDrain (p : Place) (ecc : List (Fin 4096 × Ecc))
  /-- BOBBIN_WAIT_END (R140): An instruction that waited for another stream's bobbins takes its first slab. -/
  | bobbinWaitEnd (p : Place)
  /-- PARITY_RERUN (R257): After a scratchpad parity error in a re-runnable window, the stream reissues from its re-run point once its units have completed. -/
  | parityRerun (p : Place) (word : Fin 524288)
  /-- SUBPORT_READ_REPEAT (R258): A darning read-back or sub-port 0 read with a parity error is repeated once at the next slot of its priority. -/
  | subportReadRepeat (ch : Chan) (site : Site) (word : Fin 524288) (again : Bool)
  /-- QUEUE_LINE_ARRIVE (R178): A queue line arrives at a consumer and is stored in the FIFO or darning ring, or is discarded, and is acknowledged. -/
  | queueLineArrive (ch : Chan) (site : Site) (q : Fin 8) (src : Site) (line : QLine)
  /-- CREDIT_RETURN (R179): A credit-return flit arrives at the producer and adds to its credit pool. -/
  | creditReturn (ch : Chan) (site : Site) (cons : Site) (q : Fin 8)
  /-- QUEUE_STARVED (R191): A queue whose full FIFO has moved nothing for the QWIN window is set spilling by the detector. -/
  | queueStarved (ch : Chan) (site : Site) (q : Fin 8)
  /-- DEADLOCK (R192): A context without progress for the FATAL window raises DEADLOCK and captures the deadlock record. -/
  | deadlock (ch : Chan) (x : Ctx)
  /-- MESH_FLIT_HOP (R47): A flit is captured by a router, corrected, routed in its generation and driven onto its output port. -/
  | meshFlitHop (ch : Chan) (r : Site) (inp : MPort) (fl : Flit) (side : Ecc) (raw : Option (BitVec 576 × BitVec 576))
  /-- MESH_WRITE (R48): A write flit reaches its destination sub-port, is stored and is acknowledged. -/
  | meshWrite (ch : Chan) (fl : Flit) (addr : BitVec 48) (data : List Byte)
  /-- SLICE_READ (R57): A read reaches a tier slice and opens or joins a merge entry, or is served alone. -/
  | sliceRead (ch : Chan) (slice : Site) (line : Fin 327680) (src : Site) (sub : Fin 8) (vert hint : Bool) (raws : RawWords)
  /-- SLICE_WRITE (R280): A write reaches a tier slice and is stored whole or by read, merge and re-encode; it closes any merge entry of its line. -/
  | sliceWrite (ch : Chan) (slice : Site) (off : Fin 41943040) (data : List Byte) (vert : Bool) (raws : RawWords)
  /-- MERGE_WINDOW_CLOSE (R57): A merge-table entry closes when its window of MERGE_WIN TIER cycles ends. -/
  | mergeWindowClose (ch : Chan) (slice : Site) (line : Fin 327680)
  /-- TIER_SCRUB (R282): A patrol-scrub read of a slice line in a slot that no port requests. -/
  | tierScrub (ch : Chan) (slice : Site) (raws : RawWords)
  /-- TIER_CORRECT_WRITEBACK (R282): A corrected tier word is written back in the slice's next free slot. -/
  | tierCorrectWriteback (ch : Chan) (addr : BitVec 48)
  /-- MESH_RT_SWAP (R50): A write of 1 to MESH_CTRL.RT_SWAP starts a routing-table swap and broadcasts a TABLE message. -/
  | meshRtSwap (ch : Chan) (m : Master) (v : Word)
  /-- MESH_SWAP_COMPLETE (R50): Once no flit of the old generation remains, all routers flip their active generation and injection resumes. -/
  | meshSwapComplete (ch : Chan)
  /-- MESH_SWAP_TIMEOUT (R50): A swap not complete 100 µs after it began is abandoned, SWAP_FAIL is set and MESH_STALL is raised. -/
  | meshSwapTimeout (ch : Chan)
  /-- FENCE (R60): A write of 1 to a MESH_FENCEk bit fences a core, powers off its compute island and rinses a loaded context. -/
  | fence (ch : Chan) (m : Master) (site : Site)
  /-- REMOTE_TACK_ADD (R119): A BARRIER message of KIND ADD arrives at a core and adds VALUE to a tack, or is discarded. -/
  | remoteTackAdd (ch : Chan) (hdr pay : Word) (ecc : Ecc)
  /-- REMOTE_TACK_RELEASE (R119): A BARRIER message of KIND RELEASE arrives at a core and raises a tack to at least VALUE, or is discarded. -/
  | remoteTackRelease (ch : Chan) (hdr pay : Word) (ecc : Ecc)
  /-- MEM_READ (R286): An LPDDR5X controller serves a read from its write queue or its devices. -/
  | memRead (ch : Chan) (addr : BitVec 48) (len : Nat) (raws : RawWords) (lecc : List (Fin 4))
  /-- MEM_WRITE (R286): An LPDDR5X controller accepts a write into its write queue, by read-modify-write for a partial unit. -/
  | memWrite (ch : Chan) (addr : BitVec 48) (data : List Byte) (raws : RawWords) (lecc : List (Fin 4))
  /-- MEM_SCRUB (R287): An LPDDR5X patrol-scrub read in a slot that no request uses. -/
  | memScrub (ch : Chan) (ctrl : Fin 4) (raws : RawWords) (lecc : Nat := 0)
  /-- FLASH_READ (R290): The flash controller serves a read from the write buffer, the read cache or NAND. -/
  | flashRead (ch : Chan) (addr : BitVec 48) (len : Nat) (stream : Bool) (res : FlashRes)
  /-- FLASH_WRITE (R291): A flash write is acknowledged into the write buffer, waiting for space while the buffer is full. -/
  | flashWrite (ch : Chan) (addr : BitVec 48) (data : List Byte) (offl : Bool)
  /-- FLASH_UNIT_PROGRAM (R291): A buffered flash unit is programmed to NAND and its map entry recorded. -/
  | flashUnitProgram (ch : Chan) (unit : Fin 268435456) (blk : Nat) (ok : Bool) (res : FlashRes)
  /-- UNIT_IDLE_TIMEOUT (R291): A buffered unit with no write for 1 ms starts its program. -/
  | unitIdleTimeout (ch : Chan) (unit : Fin 268435456)
  /-- FLASH_FLUSH (R292): A write of 1 to FLASH_CTRL.FLUSH programs every buffered unit. -/
  | flashFlush (ch : Chan) (m : Master) (v : Word)
  /-- FLASH_SWAP (R296): A write of 1 to FLASH_CTRL.SWAP starts a map generation swap. -/
  | flashSwap (ch : Chan) (m : Master) (v : Word)
  /-- FLASH_SWAP_INTERVAL (R296): SWAP_MS milliseconds after the last swap, a map swap starts. -/
  | flashSwapInterval (ch : Chan)
  /-- FLASH_SWAP_COMPLETE (R296): Once the map pages and directory are written, the pending generation becomes active and waiting lookups proceed. -/
  | flashSwapComplete (ch : Chan) (fails : Nat := 0)
  /-- FLASH_RELOCATE (R295): FSEQ relocates a unit in the background into the pending generation. -/
  | flashRelocate (ch : Chan) (unit : Fin 268435456) (blk : Nat) (res : FlashRes) (ok : Bool := true)
  /-- RETENTION_SCRUB (R299): FSEQ reads every programmed block at least once every 7 days and relocates blocks that need retry. -/
  | retentionScrub (ch : Chan) (blk : Nat) (pages : List FlashRes) (eraseOk : Bool)
  /-- STATIC_WEAR_LEVEL (R298): When erase counts spread beyond WL_SPREAD, FSEQ moves the units of the least-erased blocks. -/
  | staticWearLevel (ch : Chan) (src dst : Nat) (ok : Bool := true)
  /-- LUN_BUSY_TIMEOUT (R303): A LUN that stays busy for 100 ms sets FLASH_STATUS.FAILED and raises FLASH_DOWN once. -/
  | lunBusyTimeout (ch : Chan)
  /-- FLASH_MAP_READY (R293): The controller finishes rebuilding its map after reset or power-up and sets READY, releasing waiting accesses. -/
  | flashMapReady (ch : Chan)
  /-- KT5_ACCESS (R308): A flat-range access reaches its home slice and is served as a hit or forwarded to LPDDR5X as a miss. -/
  | kt5Access (ch : Chan) (addr : BitVec 48) (len : Nat) (data : Option (List Byte)) (pin stream : Bool)
  /-- KT5_MIGRATION (R309): When a page's counter reaches HEAT, the home slice writes back a dirty victim and copies the page into the tier. -/
  | kt5Migration (ch : Chan) (page : Nat) (raws : RawWords := [])
  /-- KT5_HEAT_HALVE (R309): Every 1 ms all candidate counters are halved. -/
  | kt5HeatHalve (ch : Chan)
  /-- KT5_FLUSH (R310): A write of 1 to KT5_CTRL.FLUSH writes back every dirty page and invalidates every way. -/
  | kt5Flush (ch : Chan) (m : Master) (v : Word)
  /-- KT5_ENABLE (R306): A write of EN = 1 puts the flat range in service when its settings are valid. -/
  | kt5Enable (ch : Chan) (m : Master) (v : Word)
  /-- KT5_DISABLE (R310): A write of EN = 0 flushes the cache and clears EN when BUSY clears. -/
  | kt5Disable (ch : Chan) (m : Master) (v : Word)
  /-- KT5_FLUSH_DONE (R310): A flush completes and BUSY clears, and EN clears for a disable. -/
  | kt5FlushDone (ch : Chan)
  /-- DATA_CODEWORD_RX (R349): A port receives a data codeword, delivers it in SEQ order or discards it and schedules a NAK. -/
  | dataCodewordRx (ch : Chan) (k : Port) (cw : BitVec 5440)
  /-- MARKER_RX (R346): A port receives a marker codeword and takes its ACK, NAK and credit counts. -/
  | markerRx (ch : Chan) (k : Port) (cw : BitVec 5440)
  /-- MARKER_SEND (R341): A port sends a marker as one codeword in every 72, carrying ACK, NAK and credits. -/
  | markerSend (ch : Chan) (k : Port)
  /-- ACK_TIMEOUT (R349): With codewords outstanding and no ACK advance for 16 marker intervals, the transmitter resends from the oldest. -/
  | ackTimeout (ch : Chan) (k : Port)
  /-- MARKER_LOCK_LOSS (R341): After four consecutive positions without a marker, the receiver loses lock and the port retrains. -/
  | markerLockLoss (ch : Chan) (k : Port)
  /-- RETRAIN_DONE (R350): A retrain finishes and each side resends from its partner's last ACK. -/
  | retrainDone (ch : Chan) (k : Port)
  /-- RETRAIN_TIMEOUT (R350): A retrain not finished within RETRAIN_US leaves the port DOWN. -/
  | retrainTimeout (ch : Chan) (k : Port)
  /-- PORT_TRAINED (R355): A port completes lane training and marker lock and enters ACTIVE. -/
  | portTrained (ch : Chan) (k : Port) (ids : List Nat) (inv : Byte) (pre : Byte := 0)
  /-- WRITE (R364): A WRITE packet reaches its destination, is checked against its window and stored, and is answered by a WRESP. -/
  | ylWrite (ch : Chan) (k : Port) (p : Pkt)
  /-- WRESP (R367): A WRESP packet reaches the requesting channel and answers one WRITE of a remote-write request. -/
  | wresp (ch : Chan) (k : Port) (p : Pkt)
  /-- PACKET_FORWARD (R358): A WRITE or WRESP not for this channel is looked up and forwarded cut-through over the port crossbar. -/
  | packetForward (ch : Chan) (k : Port) (p : Pkt)
  /-- LOOKUP_WAIT_TIMEOUT (R361): A lookup that waited WAIT_US for a swap is answered NOROUTE. -/
  | lookupWaitTimeout (ch : Chan)
  /-- YL_STUCK (R362): A VC packet with no progress for STUCK_US on an ACTIVE port raises YL_STUCK. -/
  | ylStuck (ch : Chan) (k : Port) (vc : Fin 4)
  /-- PICOT_SEND (R352): A port in ACTIVE or RETRAIN sends a PICOT every 100 µs. -/
  | picotSend (ch : Chan) (k : Port)
  /-- PICOT (R353): A received PICOT is checked against the expected neighbour and confirms the port or puts it in MISWIRED. -/
  | picot (ch : Chan) (k : Port) (p : Pkt)
  /-- YL_LOST (R353): An ACTIVE port with no valid picot for 1 ms enters LOST and raises YL_LOST. -/
  | ylLost (ch : Chan) (k : Port)
  /-- VIEW (R461): A RINSE packet of KIND VIEW arrives and begins, joins or is held for a rinse, merging its lists. -/
  | view (ch : Chan) (k : Port) (p : Pkt)
  /-- VOTE (R391): A PRESS frame of KIND VOTE arrives and adds to the chain of press votes. -/
  | vote (ch : Chan) (k : Port) (p : Pkt)
  /-- COMMIT (R333): A PRESS frame of KIND COMMIT arrives and the VOTED channel commits the press. -/
  | commit (ch : Chan) (k : Port) (p : Pkt)
  /-- WAKE (R372): A WAKE packet arrives and acts as a link wake in C1–C3. -/
  | wake (ch : Chan) (k : Port) (p : Pkt)
  /-- WIDTH (R371): A WIDTH packet arrives and the port answers and changes width at the second marker. -/
  | width (ch : Chan) (k : Port) (p : Pkt)
  /-- WIDTH_CHANGE_DONE (R371): A narrowing or widening of a port ends. -/
  | widthChangeDone (ch : Chan) (k : Port)
  /-- YL_SWAP (R360): A write of 1 to YL_RCTRL.SWAP switches every port to the other routing generation. -/
  | ylSwap (ch : Chan) (m : Master) (v : Word)
  /-- YL_FILL (R359): A write of 1 to YL_RCTRL.FILL writes the default routes into the inactive generation. -/
  | ylFill (ch : Chan) (m : Master) (v : Word)
  /-- YL_FILL_DONE (R359): A routing fill finishes after 8,192 CTRL cycles and FILL_BUSY clears. -/
  | ylFillDone (ch : Chan)
  /-- YL_WAKE (R372): A write of a port number to YL_WAKE sends a WAKE packet on that port. -/
  | ylWake (ch : Chan) (m : Master) (v : Word)
  /-- PORT_ENABLE (R355): A write of YLPk_CTRL.EN = 1 starts the port training. -/
  | portEnable (ch : Chan) (m : Master) (k : Port) (v : Word)
  /-- PORT_DISABLE (R354): A write of YLPk_CTRL.EN = 0 disables the port and stops its picots. -/
  | portDisable (ch : Chan) (m : Master) (k : Port) (v : Word)
  /-- PORT_RESTART (R355): A write of 1 to YLPk_CTRL.RESTART returns a DOWN, LOST or MISWIRED port to TRAINING. -/
  | portRestart (ch : Chan) (m : Master) (k : Port) (v : Word)
  /-- WINDOW_OPEN (R363): A write of OPEN = 1 opens a remote window, or is refused and sets ERR. -/
  | windowOpen (ch : Chan) (m : Master) (n : Que) (v : Word)
  /-- WINDOW_CLOSE (R366): A write of OPEN = 0 closes a window at a packet boundary. -/
  | windowClose (ch : Chan) (m : Master) (n : Que) (v : Word)
  /-- WINDOW_CLOSE_DONE (R366): Every packet accepted before the close is stored and CLOSING clears. -/
  | windowCloseDone (ch : Chan) (n : Que)
  /-- REMOTE_WRITE_TIMEOUT (R367): A remote-write packet with no answer for YL_RWTO completes its request with TIMEOUT. -/
  | remoteWriteTimeout (ch : Chan) (n : Nat)
  /-- BUCKET_SLOT_FREE (R379): A BKADD or BKCLOSE that waited for a free in-flight place, or for a previous step's bucket, proceeds. -/
  | bucketSlotFree (p : Place)
  /-- REDUCTION_START (R380): When every owned core has retired its last B run, every valid bucket joins the reduction queue. -/
  | reductionStart (ch : Chan) (x : Ctx)
  /-- BUCKET_START (R380): The reduction queue starts a bucket in increasing number, up to four at once. -/
  | bucketStart (ch : Chan)
  /-- SCALE (R385): A COLL packet of KIND SCALE arrives with block scale codes for the agreement. -/
  | collScale (ch : Chan) (k : Port) (p : Pkt)
  /-- RS (R381): A COLL reduce-scatter packet arrives and its chunk is added to the member's value or relayed. -/
  | collRs (ch : Chan) (k : Port) (p : Pkt)
  /-- AG (R381): A COLL all-gather packet arrives and its completed chunk is stored and passed on. -/
  | collAg (ch : Chan) (k : Port) (p : Pkt)
  /-- NORM (R390): A COLL NORM packet arrives and is combined into the global-norm chain collective. -/
  | collNorm (ch : Chan) (k : Port) (p : Pkt)
  /-- PG (R393): A COLL parameter-gather packet arrives and its shard is written into D0. -/
  | collPg (ch : Chan) (k : Port) (p : Pkt)
  /-- COLL_BARRIER (R392): A COLL BARRIER packet arrives and adds its 32-bit sum to the barrier chain. -/
  | collBarrier (ch : Chan) (k : Port) (p : Pkt)
  /-- PASS_END (R384): A reduction pass ends; flagged blocks restart the pass with raised scales or a BF16 fallback. -/
  | passEnd (ch : Chan) (x : Ctx) (b : Fin 4096)
  /-- BUCKET_DONE (R381): Delivery writes OUT, signals the owner's tack and the bucket becomes DONE, updating the step digest. -/
  | bucketDone (ch : Chan) (x : Ctx) (b : Fin 4096)
  /-- COLL_TIMEOUT (R386): A collective with no progress for COLL_US raises TAT_TIMEOUT. -/
  | collTimeout (ch : Chan) (x : Ctx) (tag : BitVec 16)
  /-- PRESS_BEGIN (R332): When every owned core's U program has completed its END, the context goes VOTED and joins or starts the press. -/
  | pressBegin (ch : Chan) (x : Ctx)
  /-- PRESS_TIMEOUT (R333): A VOTED channel without COMMIT for PRESS_US raises PRESS_TIMEOUT. -/
  | pressTimeout (ch : Chan) (x : Ctx)
  /-- WATCH_CHECK (R222): The check unit completes an agreement check of a sampled element and counts any disagreement. -/
  | watchCheck (ch : Chan) (site : Site)
  /-- WATCH_MODE_WRITE (R219): A write to NUM_WCTRL sets the watch configuration, or turns the watch OFF and discards pending work. -/
  | watchModeWrite (ch : Chan) (m : Master) (v : Word)
  /-- HALF_VALIDATE (R263): A write of VALID = 1 to a half-table entry sets SIDE and both descriptors' BASE. -/
  | halfValidate (ch : Chan) (m : Master) (site : Site) (n : Fin 16) (v : Word)
  /-- CMD_NOP (R411): Host command NOP that completes OK with no effect. -/
  | cmdNop (ch : Chan) (q : Que) (cmd : BitVec 512)
  /-- LOAD_PRICKING (R85): Host command that checks a pricking bundle and loads it into the context. -/
  | loadPricking (ch : Chan) (q : Que) (cmd : BitVec 512) (raws : RawWords := [])
  /-- RECONFIG_DRAIN_DONE (R195): A reconfiguring load proceeds once the context's queues are empty and acknowledged. -/
  | reconfigDrainDone (ch : Chan) (x : Ctx)
  /-- RECONFIG_DRAIN_TIMEOUT (R195): A load still waiting for drain SPAT_DRAINTO after its checks completes with STATE. -/
  | reconfigDrainTimeout (ch : Chan) (x : Ctx)
  /-- UNLOAD (R90): Host command that releases all cores of a READY context, which becomes EMPTY. -/
  | unload (ch : Chan) (q : Que) (cmd : BitVec 512)
  /-- STEP (R79): Host command that writes the step list and runs one training step of the context. -/
  | cmdStep (ch : Chan) (q : Que) (cmd : BitVec 512)
  /-- PERMUTE (R396): Host command that moves shards by a plan and advances the layout generation. -/
  | permute (ch : Chan) (q : Que) (cmd : BitVec 512)
  /-- RWRITE (R367): Host command that carries out one remote-write request. -/
  | rwrite (ch : Chan) (q : Que) (cmd : BitVec 512)
  /-- DMA (R411): Host command that moves bytes between host memory and channel memory. -/
  | dma (ch : Chan) (q : Que) (cmd : BitVec 512) (data : List Byte)
  /-- COMMAND_START (R416): QSEQ fetches and starts the next command of an SQ once it may start. -/
  | commandStart (ch : Chan) (cmd : BitVec 512) (data : List Byte) (raws : RawWords := [])
  /-- COMPLETION_WRITE (R415): A completion is written to its CQ after the command's effects are stored, waiting while the CQ is full. -/
  | completionWrite (ch : Chan) (cq : Que)
  /-- SQ_DOORBELL (R408): A host write to an SQ tail doorbell latches the new tail, or is ignored as a doorbell error. -/
  | sqDoorbell (ch : Chan) (q : Que) (v : Word)
  /-- CQ_DOORBELL (R408): A host write to a CQ head doorbell latches the new head, or is ignored as a doorbell error. -/
  | cqDoorbell (ch : Chan) (q : Que) (v : Word)
  /-- SQ_ENABLE (R406): A write of EN = 1 to an SQ enables it, or is refused and sets ERR. -/
  | sqEnable (ch : Chan) (m : Master) (q : Que) (v : Word)
  /-- SQ_DISABLE (R407): A write of EN = 0 to an SQ stops fetching and drops unfetched commands. -/
  | sqDisable (ch : Chan) (m : Master) (q : Que) (v : Word)
  /-- CQ_ENABLE (R406): A write of EN = 1 to a CQ enables it, or is refused and sets ERR. -/
  | cqEnable (ch : Chan) (m : Master) (q : Que) (v : Word)
  /-- CQ_DISABLE (R406): A write of EN = 0 to a CQ disables it, or is refused while an enabled SQ names it. -/
  | cqDisable (ch : Chan) (m : Master) (q : Que) (v : Word)
  /-- CQ_COALESCE_TIMEOUT (R421): The oldest uncovered completion has waited TIME_US and the CQ's vector is sent. -/
  | cqCoalesceTimeout (ch : Chan) (cq : Que)
  /-- EVPEND_CLEAR (R421): A host write of 1 clears an event bit in HIF_EVPEND. -/
  | evpendClear (ch : Chan) (m : Master) (v : Word)
  /-- WINDOW_ACCESS (R423): QSEQ serves an access to the emulated sequencer register window in microcode. `wide`: the access has 64
bits (R12), of which `wr` is the lower half. -/
  | windowAccess (ch : Chan) (m : Master) (a : BitVec 13) (wr : Option Word) (wide : Bool := false)
  /-- WINDOW_ACCESS_TIMEOUT (R424): A window access not served within 200 µs is completed by the bridge. -/
  | windowAccessTimeout (ch : Chan) (wr : Bool)
  /-- BAR2_ACCESS (R403): A host access through the BAR2 aperture reaches channel memory, or falls in a hole. `tlps`: the request
TLPs that it comes in (R26, R399). `ecc`: what a read of a bobbin window found in the elements that it reads, counted from the first
(R228). -/
  | bar2Access (ch : Chan) (off : Fin 68719476736) (len : Nat) (wr : Option (List Byte)) (tlps : Nat := 1) (ecc : List (Fin 4096 × Ecc) := [])
  /-- HOST_REQUEST_DROPPED (R26): The bridge die answers a host request to a channel in reset, in C4 or with its bridge link down; it comes
in `tlps` TLPs. -/
  | hostRequestDropped (ch : Chan) (len : Nat) (wr : Bool) (tlps : Nat := 1)
  /-- POISONED_WRITE (R400): A poisoned write TLP is discarded and reported through AER. -/
  | poisonedWrite (ch : Chan)
  /-- HOST_READ_FAIL (R400): A poisoned, UR or CA completion, or a completion timeout, ends the command that made the read with ADDRESS. -/
  | hostReadFail (ch : Chan) (q : Que) (cmd : BitVec 512) (got : List Byte)
  /-- MBX_WRITE (R426): The bound sender writes a mailbox word, which sets FULL or is discarded with OVR. -/
  | mbxWrite (ch : Chan) (m : Master) (n : Fin 16) (v : Word) (ecc : Ecc := .clean)
  /-- MBX_CLEAR (R426): The bound receiver releases a mailbox by clearing FULL, and the sender is told FREE. -/
  | mbxClear (ch : Chan) (m : Master) (n : Fin 16)
  /-- MBX_TIMEOUT (R427): A mailbox FULL for TMO_US sets TIMEOUT and tells the sender. -/
  | mbxTimeout (ch : Chan) (n : Fin 16)
  /-- PING (R429): Mailbox request accepted by every sequencer and answered with RESULT 0. -/
  | ping (ch : Chan) (r : Fin 5)
  /-- VERSION (R439): QSEQ mailbox request that returns the running interface version. -/
  | version (ch : Chan)
  /-- CTXSTATE (R439): QSEQ mailbox request that returns a context's state and commands in progress. -/
  | ctxstate (ch : Chan)
  /-- INFLIGHT (R439): TSEQ mailbox request that returns buckets in flight and reducing. -/
  | inflight (ch : Chan)
  /-- SPARE (R439): FSEQ mailbox request that returns FLASH_SPARE. -/
  | spare (ch : Chan)
  /-- FLUSH (R439): FSEQ mailbox request that programs the flash write buffer. -/
  | flush (ch : Chan)
  /-- STATE (R496): PSEQ mailbox request that returns the power state, gating, divisors and emergency. -/
  | pwrState (ch : Chan)
  /-- ENTER (R496): PSEQ mailbox request to enter a power state. -/
  | pwrEnter (ch : Chan)
  /-- EXIT (R496): PSEQ mailbox request that makes a HOST wake. -/
  | pwrExitReq (ch : Chan)
  /-- DVFS (R496): PSEQ mailbox request for a voltage and frequency change of a half. -/
  | dvfs (ch : Chan)
  /-- TEMP (R496): PSEQ mailbox request that returns both halves' temperatures. -/
  | temp (ch : Chan)
  /-- ATTEST (R448): Dwegar request that writes a signed attestation report. -/
  | attest (ch : Chan)
  /-- STAGE (R444): Dwegar request that verifies an image in memory and programs it into the inactive slot. -/
  | stage (ch : Chan)
  /-- STAGE_DONE (R444): A staging finishes its programming and read-back verification. -/
  | stageDone (ch : Chan) (ok : Bool)
  /-- MEND (R445): Dwegar request that verifies the inactive slot and loads its code banks for a mend. -/
  | mend (ch : Chan)
  /-- MEND_PARK (R445): Once deferral clears, the block asks all four sequencers to park at their safe points. -/
  | mendPark (ch : Chan)
  /-- MEND_SWITCH (R445): When all four are parked, every sequencer switches bank and the directory is rewritten. -/
  | mendSwitch (ch : Chan) (us : BitVec 16)
  /-- MEND_PARK_TIMEOUT (R445): Sequencers not all parked 1 ms after the request resume the old image for a retry. -/
  | mendParkTimeout (ch : Chan)
  /-- MEND_RETRY (R445): 10 ms after a failed park, the park is tried again, up to eight times. -/
  | mendRetry (ch : Chan)
  /-- OTP_COMMIT (R442): Dwegar request that checks and programs a spare OTP generation record. -/
  | otpCommit (ch : Chan)
  /-- OTP_PROGRAM_DONE (R442): Programming of a spare OTP generation record completes. -/
  | otpProgramDone (ch : Chan)
  /-- BOOT (R436): A channel boots: OTP, directory, image read and verify, load and sequencer start. -/
  | boot (ch : Chan) (slow : Bool)
  /-- BOOT_TRAIN_DONE (R436): Memory and flash training complete and the channel reaches RUN, or FAILED on a training failure. -/
  | bootTrainDone (ch : Chan) (memFail : BitVec 4) (busFail : Byte)
  /-- CHANNEL_HOLD (R31): A write of 1 to a MOD_CHRST.HOLD bit holds a channel in reset. -/
  | channelHold (ch : Chan)
  /-- CHANNEL_RELEASE (R31): A change of a MOD_CHRST.HOLD bit from 1 to 0 releases the channel, which boots. -/
  | channelRelease (ch : Chan)
  /-- FUNCTION_LEVEL_RESET (R28): A Function Level Reset of PF n+1 resets channel n; of PF0, resets the MOD block's RW fields. -/
  | functionLevelReset (pf : Fin 5)
  /-- BRIDGE_LINK_DOWN (R31): A channel's bridge link goes down and CH_FAULT is set. -/
  | bridgeLinkDown (ch : Chan)
  /-- BRIDGE_LINK_UP (R26): A channel's bridge link comes up and host requests reach the channel again. -/
  | bridgeLinkUp (ch : Chan)
  /-- BRIDGE_LOST (R27): A bridge link down for 1 ms makes the channel rinse and stop its picots. -/
  | bridgeLost (ch : Chan)
  /-- MODULE_ID (R32): SMBus block read that returns MOD_ID. `pec`, here and in the reads below: the controller clocks one more byte. -/
  | moduleId (pec : Bool := false)
  /-- MODULE_STATUS (R32): SMBus block read that returns MOD_STATUS. -/
  | moduleStatus (pec : Bool := false)
  /-- SERIAL (R32): SMBus block read that returns the 128-bit module serial number. -/
  | serial (pec : Bool := false)
  /-- DIE_TEMP (R32): SMBus word read that returns a channel's hottest die sensor. -/
  | dieTemp (ch : Chan) (pec : Bool := false)
  /-- VIN (R32): SMBus word read that returns the input voltage. -/
  | vin (mv : BitVec 16) (pec : Bool := false)
  /-- IIN (R32): SMBus word read that returns the input current. -/
  | iin (ma : BitVec 16) (pec : Bool := false)
  /-- PIN (R32): SMBus word read that returns the input power. -/
  | pin (pw : BitVec 16) (pec : Bool := false)
  /-- SMBUS_NACK (R32): An SMBus write or other command code is NACKed. -/
  | smbusNack
  /-- PWR_EXIT (R483): A write of TARGET 0 to PWR_REQ makes a HOST wake to C0. -/
  | pwrExit (ch : Chan) (m : Master) (v : Word)
  /-- PWR_GATE (R479): A write of TARGET 1 to PWR_REQ gates or ungates the named halves. -/
  | pwrGate (ch : Chan) (m : Master) (v : Word)
  /-- PWR_C2 (R481): A write of TARGET 2 to PWR_REQ starts entry to C2. -/
  | pwrC2 (ch : Chan) (m : Master) (v : Word)
  /-- PWR_C3 (R481): A write of TARGET 3 to PWR_REQ starts entry to C3. -/
  | pwrC3 (ch : Chan) (m : Master) (v : Word)
  /-- PWR_C4 (R481): A write of TARGET 4 to PWR_REQ starts entry to C4. -/
  | pwrC4 (ch : Chan) (m : Master) (v : Word)
  /-- ENTRY_DRAIN_DONE (R481): QSEQ finds no command in progress and the entry proceeds past step 2. -/
  | entryDrainDone (ch : Chan)
  /-- ENTRY_DRAIN_TIMEOUT (R481): Step 2 not complete in 10 ms refuses the entry with BUSY and undoes it. -/
  | entryDrainTimeout (ch : Chan)
  /-- ENTRY_QUIESCED (R481): Every core acknowledges QUIESCE and the entry passes its last abort point. -/
  | entryQuiesced (ch : Chan)
  /-- POWER_ENTRY_DONE (R481): The rails are set for the state, PWR_STATUS.STATE changes and the POWER event is raised. -/
  | powerEntryDone (ch : Chan)
  /-- POWER_EXIT_DONE (R478): An exit returns the channel to C0 with both halves ungated. -/
  | powerExitDone (ch : Chan)
  /-- WAKE_PIN (R484): A channel's wake pin asserted for 1 µs is a wake event. -/
  | wakePin (ch : Chan)
  /-- DEMAND_WAKE (R485): An access that needs a stopped domain waits and wakes the channel or half. -/
  | demandWake (ch : Chan) (us : BitVec 16)
  /-- AUTO_GATE (R486): A half whose array held no slab for C1IDLE µs is gated automatically. -/
  | autoGate (ch : Chan) (east : Bool)
  /-- GATE (R495): POWER message that stops the ARRAY clocks of the named halves. -/
  | gate (ch : Chan) (halves : BitVec 2) (ecc : Ecc := .clean)
  /-- UNGATE (R495): POWER message that restarts the ARRAY clocks of the named halves. -/
  | ungate (ch : Chan) (halves : BitVec 2) (ecc : Ecc := .clean)
  /-- ISLAND_OFF (R495): POWER message that powers off the core islands of the named halves. -/
  | islandOff (ch : Chan) (halves : BitVec 2) (ecc : Ecc := .clean)
  /-- ISLAND_ON (R495): POWER message that powers on the core islands and restores retained state. -/
  | islandOn (ch : Chan) (halves : BitVec 2) (ecc : Ecc := .clean)
  /-- QUIESCE (R495): POWER message that makes a core stop issuing and acknowledge when idle. -/
  | quiesce (ch : Chan) (site : Site) (ecc : Ecc := .clean)
  /-- RESUME (R495): POWER message that makes a core resume issuing. -/
  | resume (ch : Chan) (site : Site) (ecc : Ecc := .clean)
  /-- ACK (R495): POWER message that acknowledges a command to PSEQ. -/
  | ack (ch : Chan) (node : Fin 128) (cmd : BitVec 4) (ecc : Ecc := .clean)
  /-- PWR_DVFS (R488): A write to PWR_DVFSh requests a divisor and rail change of a half. -/
  | pwrDvfs (ch : Chan) (m : Master) (east : Bool) (v : Word)
  /-- DVFS_DONE (R488): A half's rail settles and its divider changes in the ordered sequence. -/
  | dvfsDone (ch : Chan) (east : Bool)
  /-- THERMAL_SAMPLE (R491): TEL samples every sensor every 10 µs and compares the hottest with the thresholds. -/
  | thermalSample (ch : Chan) (west east : BitVec 12)
  /-- THROTTLE_STEP (R492): Each 10 ms at THROT slows the cap, and each 100 ms below the hysteresis raises it. -/
  | throttleStep (ch : Chan) (east slower : Bool)
  /-- INPUT_ALARM (R493): The bridge die's input alarm caps both halves of every channel. -/
  | inputAlarm
  /-- RAIL_OVERCURRENT (R493): A core rail above 650 A for 100 µs caps its half. -/
  | railOvercurrent (ch : Chan) (east : Bool)
  /-- EMERGENCY_CLEAR (R493): An emergency clears after 10 ms within limits, and the caps step back. -/
  | emergencyClear (ch : Chan) (east : Bool)
  /-- RAIL_FAULT (R494): A rail out of band, or overcurrent, for 20 µs raises RAIL_FAULT. -/
  | railFault (ch : Chan) (rail : Fin 8)
  /-- PLL_UNLOCK (R476): A PLL loses lock while its domains run and PLL_UNLOCK is raised. -/
  | pllUnlock (ch : Chan) (pll : Fin 6)
  /-- AON_RAIL_REMOVE (R494): 1 ms after a STOP fault without C4, the AON hardware removes the rails. -/
  | aonRailRemove (ch : Chan)
  /-- VIN48_VALID (R504): VIN48 at or above 40 V for 10 ms with MRST_N high and PRSNT_N closed starts the conversion. -/
  | vin48Valid
  /-- VIN48_LOSS (R504): VIN48 outside 38–62 V for 100 µs stops the conversion and removes the rails. -/
  | vin48Loss
  /-- PRSNT_OPEN (R505): PRSNT_N open for 10 µs stops the conversion. -/
  | prsntOpen
  /-- MRST_ASSERT (R500): MRST_N low for 10 µs holds the bridge die and all channels in reset. -/
  | mrstAssert
  /-- MRST_DEASSERT (R500): MRST_N rising resets the MOD block and every channel boots. -/
  | mrstDeassert
  /-- PERST_ASSERT (R501): PERST# resets the PCIe port and disables every queue of every channel. -/
  | perstAssert
  /-- PERST_DEASSERT (R501): PERST# deasserted starts PCIe link training. -/
  | perstDeassert
  /-- FAULT_REPORT (R450): The fault unit receives a FAULT message, logs it and takes the code's action. `raws`: words of the parameter map as QSEQ
  finds them where it classifies (R456). -/
  | faultReport (ch : Chan) (msg : FaultMsg) (perr : Bool) (ecc : Ecc := .clean) (raws : RawWords := [])
  /-- RINSE_STOP_DONE (R462): No unit of a rinsing context writes memory any more and the channel passes to AGREE. -/
  | rinseStopDone (ch : Chan)
  /-- AGREE_END (R464): The view has been quiet for QUIET_US and each context takes its agreed epoch. -/
  | agreeEnd (ch : Chan)
  /-- RESTORE_DONE (R467): Every context has left RINSE after restoring tables, tacks, halves, bobbins and queues. -/
  | restoreDone (ch : Chan)
  /-- LOG_ACK_WRITE (R474): A write to FLT_LOGACK marks log entries read, unless it would exceed 4,096 unread. -/
  | logAckWrite (ch : Chan) (m : Master) (v : Word)
  /-- REGISTER_WRITE (R8): A write to a register that has no row of its own, taking effect by its access code. `hi`: the upper half
of a 64-bit access (R12). -/
  | registerWrite (tgt : Option Chan) (m : Master) (a : BitVec 48) (v : Word) (hi : Option Word := none)
  /-- WAKE_PIN_DEASSERT (R484): A channel's wake pin de-asserted for 1 µs clears PWR_STATUS.PIN and re-arms the pin for a later wake. -/
  | wakePinDeassert (ch : Chan)
  /-- VIN_OK_CHANGE (R504): VIN48 leaves or re-enters the 40–60 V band without stopping the conversion, so MOD_STATUS.VIN_OK changes and PF0 sends vector 0. -/
  | vinOkChange (ok : Bool)
  /-- PRSNT_CLOSE (R505): PRSNT_N closes as CN2 mates last, which allows the conversion to start with the input valid. -/
  | prsntClose
  /-- AUX_SUPPLY_CHANGE (R502): 3V3_AUX is applied or removed, powering or unpowering the SMBus target, its identity registers and the VIN reading. -/
  | auxSupplyChange (on : Bool)
  /-- PCIE_LINK_UP (R501): PCIe link training completes after PERST# and the port again carries reads, writes and MSI-X messages. -/
  | pcieLinkUp
  /-- D3HOT (R401): A configuration write moves a PF between D0 and D3hot, which stops or resumes its BAR decoding and MSI-X messages. -/
  | d3hot (pf : Fin 5) (on : Bool)
  /-- MEM_CORRECT_WRITEBACK (R287): An LPDDR5X controller writes a corrected word back in its next free slot, unless a write to the word arrived first. -/
  | memCorrectWriteback (ch : Chan) (addr : BitVec 48)
deriving DecidableEq, Repr

end Sys2Proof
end

