-- ==== Sys2Proof/Config.lean ====
section
/-! DEFINITION. What the spec leaves open, as constants nobody can evaluate. Each is applied to the state's counter of free
values (`State.free`), so that two uses need not agree; no statement rests on a value of them. -/

namespace Sys2Proof.Config

/-- DESIGN CHOICE (log 3): a result of which the spec gives only an error bound (R207, R312 and others), before the bound is
applied. Arguments: the counter, the element's number within the command. -/
opaque approx : Nat → Nat → BitVec 64

/-- DESIGN CHOICE (log 4): a value the spec does not give (an undefined result, a choice left to the device). Arguments: the
counter, the number of the value within the command. -/
opaque openValue : Nat → Nat → BitVec 64

/-- DESIGN CHOICE (log 5): the 512 bits of an SM2 signature made with a fresh random number (R448). -/
opaque signature : Nat → BitVec 512

end Sys2Proof.Config
end

