-- ==== Sys2Proof/Machine/Bits.lean ====
section
/-! DEFINITION. Bit fields, byte order and counters (R7, R11, R13), as functions of natural numbers. -/

namespace Sys2Proof.Machine

open Sys2Proof

/-- Bits [lo + w - 1 : lo] of x. -/
def bits (x lo w : Nat) : Nat := (x >>> lo) % 2 ^ w

/-- One bit of x. -/
def bit (x n : Nat) : Bool := x.testBit n

/-- x with bits [lo + w - 1 : lo] replaced by the low w bits of v. -/
def setBits (x lo w v : Nat) : Nat :=
  x - (bits x lo w <<< lo) + ((v % 2 ^ w) <<< lo)

/-- 1 for true, 0 for false. -/
def b2n (b : Bool) : Nat := if b then 1 else 0

/-- A counter of w bits after n more events: it saturates at all ones (R11). -/
def satAdd (w x n : Nat) : Nat := min (x + n) (2 ^ w - 1)

/-- The value of bytes stored least significant first (R7). -/
def leNat : List Byte → Nat
  | [] => 0
  | b :: t => b.toNat + 256 * leNat t

/-- The n bytes of x, least significant first (R7). -/
def leBytes : Nat → Nat → List Byte
  | 0, _ => []
  | n + 1, x => BitVec.ofNat 8 x :: leBytes n (x / 256)

/-- The integer that w bits hold in two's complement. -/
def signed (w x : Nat) : Int := if 2 * (x % 2 ^ w) < 2 ^ w then (x % 2 ^ w : Nat) else (x % 2 ^ w : Nat) - (2 ^ w : Nat)

/-- The w low bits of an integer in two's complement. -/
def unsigned (w : Nat) (x : Int) : Nat := (x % (2 ^ w : Nat)).toNat

/-- x rounded up to a multiple of n. -/
def roundUp (x n : Nat) : Nat := (x + n - 1) / n * n

/-- x divided by n, rounded up. -/
def ceilDiv (x n : Nat) : Nat := (x + n - 1) / n

/-- The natural numbers lo to lo + n - 1. -/
def rangeFrom (lo n : Nat) : List Nat := (List.range n).map (· + lo)

/-- Element n of a list, or the default given. -/
def nth {α : Type} (d : α) (l : List α) (n : Nat) : α := (l[n]?).getD d

/-- The list with element n replaced. -/
def setNth {α : Type} (l : List α) (n : Nat) (x : α) : List α := l.set n x

/-- The bits of x below n, as a list of the positions that hold 1. -/
def setPositions (x n : Nat) : List Nat := (List.range n).filter (fun i => x.testBit i)

/-- Removes the first element equal to x. -/
def eraseFirst {α : Type} [DecidableEq α] (x : α) : List α → List α
  | [] => []
  | y :: t => if y = x then t else y :: eraseFirst x t

end Sys2Proof.Machine
end

