-- ==== Sys2Proof/Machine/Num.lean ====
section
/-! DEFINITION. Number formats, exact values, rounding and FP32C arithmetic (R198 to R211, R230 to R232). -/

namespace Sys2Proof.Machine

/-- An element's value, exactly: NaN, an infinity, or (-1)^neg * m * 2^e. A zero keeps its sign. -/
inductive Val where
  | nan
  | inf (neg : Bool)
  | fin (neg : Bool) (m : Nat) (e : Int)
deriving DecidableEq, Repr

/-- Positive zero. -/
def vZero : Val := .fin false 0 0

/-- An integer as a value. -/
def vInt (x : Int) : Val := .fin (decide (x < 0)) x.natAbs 0

/-- Whether the value is finite. -/
def vFinite : Val → Bool
  | .fin _ _ _ => true
  | _ => false

/-- Whether the value is a zero of either sign. -/
def vIsZero : Val → Bool
  | .fin _ 0 _ => true
  | _ => false

def vNeg : Val → Val
  | .nan => .nan
  | .inf n => .inf (!n)
  | .fin n m e => .fin (!n) m e

def vAbs : Val → Val
  | .nan => .nan
  | .inf _ => .inf false
  | .fin _ m e => .fin false m e

def vSign : Val → Bool
  | .nan => false
  | .inf n => n
  | .fin n _ _ => n

/-- x * 2^k. -/
def vScale (x : Val) (k : Int) : Val :=
  match x with
  | .fin n m e => .fin n m (e + k)
  | y => y

/-- The signed mantissa of a finite value at exponent k, for k at most its own exponent. -/
def manAt (n : Bool) (m : Nat) (e k : Int) : Int :=
  let a : Int := (m * 2 ^ (e - k).toNat : Nat)
  if n then -a else a

/-- The exact sum; finite terms that cancel give +0 (R203), equal infinities stay, opposite ones give NaN (R232). -/
def vAdd (x y : Val) : Val :=
  match x, y with
  | .nan, _ => .nan
  | _, .nan => .nan
  | .inf a, .inf b => if a = b then .inf a else .nan
  | .inf a, _ => .inf a
  | _, .inf b => .inf b
  | .fin a m e, .fin b n f =>
    if m = 0 ∧ n = 0 then .fin (a && b) 0 0
    else
      let k := min e f
      let s := manAt a m e k + manAt b n f k
      .fin (decide (s < 0)) s.natAbs k

def vSub (x y : Val) : Val := vAdd x (vNeg y)

/-- The exact product; zero times infinity is NaN. -/
def vMul (x y : Val) : Val :=
  match x, y with
  | .nan, _ => .nan
  | _, .nan => .nan
  | .inf a, .inf b => .inf (a != b)
  | .inf a, .fin b m _ => if m = 0 then .nan else .inf (a != b)
  | .fin a m _, .inf b => if m = 0 then .nan else .inf (a != b)
  | .fin a m e, .fin b n f => .fin (a != b) (m * n) (e + f)

/-- Whether x < y for values that are not NaN; zeros of either sign are equal. -/
def vLt (x y : Val) : Bool :=
  match x, y with
  | .nan, _ => false
  | _, .nan => false
  | .inf a, .inf b => a && !b
  | .inf a, _ => a
  | _, .inf b => !b
  | .fin a m e, .fin b n f => let k := min e f; decide (manAt a m e k < manAt b n f k)

/-- Equality of value; NaN equals nothing, zeros are equal. -/
def vEq (x y : Val) : Bool :=
  match x, y with
  | .nan, _ => false
  | _, .nan => false
  | a, b => !vLt a b && !vLt b a

/-- floor(log2 |x|) of a finite non-zero value. -/
def vLog2 (x : Val) : Int :=
  match x with
  | .fin _ m e => (Nat.log2 m : Int) + e
  | _ => 0

/-- A floating format: mantissa bits, exponent of its smallest subnormal, largest finite magnitude code, and what its codes
above that mean. -/
structure FFmt where
  width : Nat
  mbits : Nat
  emin : Int
  maxc : Nat
deriving DecidableEq, Repr

def fFP32 : FFmt := ⟨32, 23, -149, 0x7F7F_FFFF⟩
def fBF16 : FFmt := ⟨16, 7, -133, 0x7F7F⟩
def fFP16 : FFmt := ⟨16, 10, -24, 0x7BFF⟩
def fE4M3 : FFmt := ⟨8, 3, -9, 0x7E⟩
def fE5M2 : FFmt := ⟨8, 2, -16, 0x7B⟩
def fE3M2 : FFmt := ⟨6, 2, -4, 0x1F⟩
def fE2M3 : FFmt := ⟨6, 3, -3, 0x1F⟩
def fE2M1 : FFmt := ⟨4, 1, -1, 0x7⟩
/-- MXINT8 magnitudes k * 2^-6 with k up to 127 (R199, R205). -/
def fMXI8 : FFmt := ⟨8, 7, -6, 127⟩

/-- The magnitude of a finite code of format f: m * 2^e. -/
def magVal (f : FFmt) (c : Nat) : Nat × Int :=
  let x := c >>> f.mbits
  let m := c % 2 ^ f.mbits
  if x = 0 then (m, f.emin) else (m + 2 ^ f.mbits, f.emin + (x : Int) - 1)

/-- The largest magnitude code not above m * 2^e, without bound, with the fraction of the step up to the next code as
numerator and denominator. -/
def magFloor (f : FFmt) (m : Nat) (e : Int) : Nat × Nat × Nat :=
  if m = 0 then (0, 0, 1)
  else
    let l : Int := (Nat.log2 m : Int) + e
    let q : Int := max (l - f.mbits) f.emin
    let k := (q - f.emin).toNat
    if q ≤ e then ((k <<< f.mbits) + m * 2 ^ (e - q).toNat, 0, 1)
    else
      let d := 2 ^ (q - e).toNat
      ((k <<< f.mbits) + m / d, m % d, d)

/-- The magnitude code nearest to m * 2^e, ties to even, without bound (R203). -/
def magNearest (f : FFmt) (m : Nat) (e : Int) : Nat :=
  let (c, r, d) := magFloor f m e
  if 2 * r > d ∨ (2 * r = d ∧ c % 2 = 1) then c + 1 else c

/-- The magnitude code that a stochastic rounding with random bits r picks (R210). -/
def magStochastic (f : FFmt) (m : Nat) (e : Int) (r : Nat) : Nat :=
  let (c, n, d) := magFloor f m e
  if n = 0 then c else if r < n * 2 ^ 32 / d then c + 1 else c

/-- Reads a code of an IEEE-like format with infinities and NaNs. -/
def decIeee (f : FFmt) (code : Nat) : Val :=
  let s := code.testBit (f.width - 1)
  let c := code % 2 ^ (f.width - 1)
  if c ≤ f.maxc then let (m, e) := magVal f c; .fin s m e
  else if c = f.maxc + 1 then .inf s else .nan

/-- Reads a code of E4M3: one NaN code, no infinity (R198). -/
def decE4M3 (code : Nat) : Val :=
  let c := code % 128
  if c ≤ 0x7E then let (m, e) := magVal fE4M3 c; .fin (code.testBit 7) m e else .nan

/-- Reads a code of a format without special values. -/
def decPlain (f : FFmt) (code : Nat) : Val :=
  let (m, e) := magVal f (code % 2 ^ (f.width - 1))
  .fin (code.testBit (f.width - 1)) m e

/-- Reads an MXINT8 element (R199). -/
def decMXI8 (code : Nat) : Val := vScale (vInt (signed 8 code)) (-6)

/-- An FP32 code. -/
abbrev F32 := Nat

def f32Val (c : F32) : Val := decIeee fFP32 (c % 2 ^ 32)

def canonNaN : F32 := 0x7FC0_0000

/-- The code of sign s and magnitude c of a format of width w. -/
def signCode (w : Nat) (s : Bool) (c : Nat) : Nat := (b2n s <<< (w - 1)) + c

/-- RN: the FP32 code nearest to an exact value, ties to even, overflow to infinity (R203, R204). -/
def rn32 (v : Val) : F32 :=
  match v with
  | .nan => canonNaN
  | .inf s => signCode 32 s 0x7F80_0000
  | .fin s m e =>
    let c := magNearest fFP32 m e
    signCode 32 s (if c ≤ fFP32.maxc then c else 0x7F80_0000)

/-- Whether an FP32 code is finite. -/
def f32Finite (c : F32) : Bool := vFinite (f32Val c)

def f32Add (a b : F32) : F32 := rn32 (vAdd (f32Val a) (f32Val b))
def f32Sub (a b : F32) : F32 := rn32 (vSub (f32Val a) (f32Val b))
def f32Mul (a b : F32) : F32 := rn32 (vMul (f32Val a) (f32Val b))
def f32Neg (a : F32) : F32 := a ^^^ 0x8000_0000

/-- The quotient of two finite values, b not zero, rounded to nearest even: enough quotient bits and a sticky bit. -/
def divRound (a b : Nat) (e f : Int) (s : Bool) : F32 :=
  let k := 64 + Nat.log2 b
  let n := a * 2 ^ k
  let q := n / b
  let st := if n % b = 0 then 0 else 1
  rn32 (.fin s (2 * q + st) (e - f - k - 1))

/-- Division with the special values of IEEE 754 (R207). -/
def vDiv32 (x y : Val) : F32 :=
  match x, y with
  | .nan, _ => canonNaN
  | _, .nan => canonNaN
  | .inf _, .inf _ => canonNaN
  | .inf a, .fin b _ _ => rn32 (.inf (a != b))
  | .fin a _ _, .inf b => rn32 (.fin (a != b) 0 0)
  | .fin a m e, .fin b n f =>
    if n = 0 then (if m = 0 then canonNaN else rn32 (.inf (a != b)))
    else if m = 0 then rn32 (.fin (a != b) 0 0)
    else divRound m n e f (a != b)

def f32Div (a b : F32) : F32 := vDiv32 (f32Val a) (f32Val b)

/-- An FP32C element: HI and LO (R202). -/
structure F32C where
  hi : F32
  lo : F32
deriving DecidableEq, Repr

def czero : F32C := ⟨0, 0⟩

/-- The value of a pair: HI + LO exactly; a non-finite HI stands alone; a finite HI with a non-finite LO is NaN (R202). -/
def cVal (c : F32C) : Val :=
  match f32Val c.hi with
  | .fin s m e => match f32Val c.lo with
    | .fin t n f => if n = 0 then .fin s m e else vAdd (.fin s m e) (.fin t n f)
    | _ => .nan
  | v => v

/-- The pair of an exact value: HI = RN(v), LO = RN(v - HI), normalised (R206). -/
def cOf (v : Val) : F32C :=
  let h := rn32 v
  if f32Finite h then
    let l := rn32 (vSub v (f32Val h))
    ⟨h, if l % 2 ^ 31 = 0 then 0 else l⟩
  else ⟨h, 0⟩

/-- Error-free sum of two FP32 values (R231). -/
def twoSum (a b : F32) : F32 × F32 :=
  let s := f32Add a b
  let bb := f32Sub s a
  (s, f32Add (f32Sub a (f32Sub s bb)) (f32Sub b bb))

/-- Error-free sum for |a| >= |b| (R231). -/
def fastTwoSum (a b : F32) : F32 × F32 :=
  let s := f32Add a b
  (s, f32Sub b (f32Sub s a))

/-- FP32C addition, step by step as R231 gives it; a non-finite sum is (sh, +0) (R232). -/
def cAdd (x y : F32C) : F32C :=
  let (sh, sl) := twoSum x.hi y.hi
  if f32Finite sh then
    let (th, tl) := twoSum x.lo y.lo
    let c := f32Add sl th
    let (vh, vl) := fastTwoSum sh c
    let w := f32Add tl vl
    let (zh, zl) := fastTwoSum vh w
    if f32Finite zh then cOf (vAdd (f32Val zh) (f32Val zl)) else ⟨zh, 0⟩
  else ⟨rn32 (f32Val sh), 0⟩

/-- A term as it enters a sum (R230). -/
def cTerm (t : Val) : F32C := cOf t

/-- HI + LO rounded to FP32 (R207). -/
def cRound (c : F32C) : F32 := rn32 (cVal c)

def cNeg (c : F32C) : F32C := ⟨f32Neg c.hi, if c.lo % 2 ^ 31 = 0 then c.lo else f32Neg c.lo⟩

/-- The 64 bits of a stored pair: HI below, LO above (R202). -/
def cBits (c : F32C) : Nat := c.hi + c.lo * 2 ^ 32

def cOfBits (x : Nat) : F32C := ⟨x % 2 ^ 32, x / 2 ^ 32 % 2 ^ 32⟩

/-- The generator's four rounds (R211). -/
def srRounds : Nat → Nat → Nat
  | 0, x => x
  | n + 1, x =>
    let y := x * 0x9E37_79B9_7F4A_7C15 % 2 ^ 64
    srRounds n (y ^^^ (y >>> 31))

/-- sr_bits (R211). -/
def srBits (key ctr : Nat) : Nat := srRounds 4 ((key ^^^ ctr) % 2 ^ 64) >>> 32

/-- The terms of a stochastic conversion's random bits that do not depend on the element (R211). -/
structure SrKey where
  key : Nat
  mb : Nat
deriving DecidableEq, Repr

/-- key of R211. -/
def srKey (seed press stream site : Nat) : Nat :=
  (seed ^^^ (press <<< 24) ^^^ (stream <<< 8) ^^^ site) % 2 ^ 64

/-- The random bits for the element at bit address a8 = 8 * byte_address + bit_offset (R211). -/
def srElem (k : SrKey) (a8 : Nat) : Nat := srBits k.key (((k.mb <<< 51) ^^^ a8) % 2 ^ 64)

/-- X of R213 from the largest magnitude of the finite values; none for no non-zero value. -/
def scaleExp (amax : Val) (emax head : Int) : Option Int :=
  if vIsZero amax || !vFinite amax then none
  else some (max (-127) (min 127 (vLog2 amax - emax + head)))

/-- The E8M0 code of R213: X + 127, 0x7F where no non-zero finite value is considered. -/
def scaleCode (amax : Val) (emax head : Int) : Nat :=
  match scaleExp amax emax head with
  | none => 0x7F
  | some x => (x + 127).toNat

/-- The larger magnitude of a running maximum and a finite value; others are left out. -/
def amaxStep (a v : Val) : Val := if vFinite v && vLt a (vAbs v) then vAbs v else a

end Sys2Proof.Machine
end

