-- ==== Sys2Proof/Machine/Fn.lean ====
section
/-! DEFINITION. The mangle's functions with an error bound (R207, R98): a reference value in 192-bit fixed point, and a free
result accepted only within the bound (log 3). -/

namespace Sys2Proof.Machine

/-- 2^192, the fixed-point one. -/
def fxOne : Nat := 2 ^ 192
def fxLn2 : Nat := 0xb17217f7d1cf79abc9e3b39803f2f6af40f343267298b62d
/-- sqrt(2 / pi). -/
def fxGelu : Nat := 0xcc42299ea1b284687e59e2805d5c717fa7053e60a24e0db1

/-- A value as fixed point, rounded towards minus infinity; the caller bounds its size. -/
def toFx (x : Val) : Int :=
  match x with
  | .fin s m e =>
    let k := e + 192
    let a : Int := if 0 ≤ k then (m * 2 ^ k.toNat : Nat) else (m / 2 ^ (-k).toNat : Nat)
    if s then -a else a
  | _ => 0

/-- A fixed-point number as a value. -/
def ofFx (x : Int) : Val := .fin (decide (x < 0)) x.natAbs (-192)

/-- The terms of exp's series after the first n, for 0 <= r < ln 2. -/
def expSeries (r : Nat) : Nat → Nat → Nat → Nat
  | 0, _, _ => 0
  | n + 1, i, t => let u := t * r / fxOne / i; u + expSeries r n (i + 1) u

/-- e^x for a finite x. -/
def refExp (x : Val) : Val :=
  if vLt (vInt 400) x then .fin false 1 600
  else if vLt x (vInt (-400)) then .fin false 1 (-600)
  else
    let f := toFx x
    let k := f / (fxLn2 : Int)
    let r := (f % (fxLn2 : Int)).toNat
    .fin false (fxOne + expSeries r 48 1 fxOne) (k - 192)

/-- The odd series of ln((1 + z) / (1 - z)) / 2, z2 the square of z. -/
def lnSeries (z2 : Nat) : Nat → Nat → Nat → Nat
  | 0, _, _ => 0
  | n + 1, i, t => t / i + lnSeries z2 n (i + 2) (t * z2 / fxOne)

/-- ln x for a finite x above 0. -/
def refLog (x : Val) : Val :=
  match x with
  | .fin _ m e =>
    let l := Nat.log2 m
    let y := m * fxOne / 2 ^ l
    let z := (y - fxOne) * fxOne / (y + fxOne)
    let s := 2 * lnSeries (z * z / fxOne) 64 1 z
    ofFx ((s : Int) + ((l : Int) + e) * (fxLn2 : Int))
  | v => v

/-- The integer square root of n by binary digits from 2^k down. -/
def isqrtGo (n : Nat) : Nat → Nat → Nat
  | 0, r => r
  | k + 1, r => let c := r + 2 ^ k; isqrtGo n k (if c * c ≤ n then c else r)

def isqrt (n : Nat) : Nat := isqrtGo n (Nat.log2 n / 2 + 1) 0

/-- sqrt x for a finite x not below 0, to 200 bits. -/
def refSqrt (x : Val) : Val :=
  match x with
  | .fin _ m e =>
    let (m, e) := if e % 2 = 0 then (m, e) else (2 * m, e - 1)
    .fin false (isqrt (m * 2 ^ 400)) (e / 2 - 200)
  | v => v

/-- 1 / x for a finite x that is not 0, to 200 bits. -/
def refRecip (x : Val) : Val :=
  match x with
  | .fin s m e => .fin s (2 ^ (200 + Nat.log2 m) / m) (-e - (200 + Nat.log2 m : Nat))
  | v => v

/-- x / y for finite values, y not 0, to 200 bits. -/
def refDiv (x y : Val) : Val := vMul x (refRecip y)

def refRsqrt (x : Val) : Val := refRecip (refSqrt x)

def refSigmoid (x : Val) : Val := refRecip (vAdd (vInt 1) (refExp (vNeg x)))

/-- tanh x = 1 - 2 / (e^2x + 1). -/
def refTanh (x : Val) : Val := vSub (vInt 1) (refDiv (vInt 2) (vAdd (vInt 1) (refExp (vScale x 1))))

/-- GELU in tanh form (R98): x (1 + tanh(sqrt(2/pi) (x + 0.044715 x^3))) / 2. -/
def refGelu (x : Val) : Val :=
  let x3 := vMul x (vMul x x)
  let c := refDiv (vInt 44715) (vInt 1000000)
  let t := refTanh (vMul (ofFx fxGelu) (vAdd x (vMul c x3)))
  vScale (vMul x (vAdd (vInt 1) t)) (-1)

def refSilu (x : Val) : Val := vMul x (refSigmoid x)

/-- ulp(x) in FP32 as an exponent of two (R216). -/
def ulpExp (x : Val) : Int := if vIsZero x then -149 else max (vLog2 x) (-126) - 23

/-- Whether |a - b| <= n * ulp(b), or <= 2^abs when abs is given. -/
def within (a b : Val) (n : Nat) (abs : Option Int) : Bool :=
  let d := vAbs (vSub a b)
  !vLt (.fin false n (ulpExp b)) d || (match abs with | some k => !vLt (.fin false 1 k) d | none => false)

/-- The result of a bounded function: the free FP32 candidate where it lies within the bound of the reference, else the
reference rounded to nearest (log 3). -/
def bounded (ctr idx : Nat) (ref : Val) (n : Nat) (abs : Option Int) : F32 :=
  let c := (Config.approx ctr idx).toNat % 2 ^ 32
  if f32Finite c && within (f32Val c) ref n abs then c else rn32 ref

/-- Exp (R207): within 2 ulp; exp(-inf) is +0. -/
def fnExp (ctr idx : Nat) (x : Val) : F32 :=
  match x with
  | .nan => canonNaN
  | .inf false => 0x7F80_0000
  | .inf true => 0
  | .fin _ m _ => if m = 0 then bounded ctr idx (vInt 1) 2 none else
      let r := refExp x
      if vLt (vInt (2 ^ 128)) r then 0x7F80_0000 else bounded ctr idx r 2 none

/-- Log (R207): within 2 ulp; log(0) is -inf, of a negative value NaN. -/
def fnLog (ctr idx : Nat) (x : Val) : F32 :=
  match x with
  | .nan => canonNaN
  | .inf false => 0x7F80_0000
  | .inf true => canonNaN
  | .fin s m _ => if m = 0 then 0xFF80_0000 else if s then canonNaN else bounded ctr idx (refLog x) 2 none

/-- Reciprocal (R207): within 1 ulp. -/
def fnRecip (ctr idx : Nat) (x : Val) : F32 :=
  match x with
  | .nan => canonNaN
  | .inf s => signCode 32 s 0
  | .fin s m _ => if m = 0 then signCode 32 s 0x7F80_0000 else
      let r := refRecip x
      if vLt (vInt (2 ^ 128)) (vAbs r) then signCode 32 s 0x7F80_0000 else bounded ctr idx r 1 none

/-- Rsqrt (R207): within 1 ulp; rsqrt(+0) is +inf. -/
def fnRsqrt (ctr idx : Nat) (x : Val) : F32 :=
  match x with
  | .nan => canonNaN
  | .inf false => 0
  | .inf true => canonNaN
  | .fin s m _ => if m = 0 then signCode 32 s 0x7F80_0000 else if s then canonNaN else bounded ctr idx (refRsqrt x) 1 none

/-- Square root, within n ulp where a rule bounds one. -/
def fnSqrt (ctr idx n : Nat) (x : Val) : F32 :=
  match x with
  | .nan => canonNaN
  | .inf false => 0x7F80_0000
  | .inf true => canonNaN
  | .fin s m _ => if m = 0 then signCode 32 s 0 else if s then canonNaN else bounded ctr idx (refSqrt x) n none

/-- Sigmoid, tanh, GELU, SILU (R207): within 4 ulp or 2^-28 absolute. -/
def fnSigmoid (ctr idx : Nat) (x : Val) : F32 :=
  match x with
  | .nan => canonNaN
  | .inf s => if s then 0 else 0x3F80_0000
  | v => bounded ctr idx (refSigmoid v) 4 (some (-28))

def fnTanh (ctr idx : Nat) (x : Val) : F32 :=
  match x with
  | .nan => canonNaN
  | .inf s => signCode 32 s 0x3F80_0000
  | v => bounded ctr idx (if vIsZero v then v else refTanh v) 4 (some (-28))

def fnGelu (ctr idx : Nat) (x : Val) : F32 :=
  match x with
  | .nan => canonNaN
  | .inf s => if s then canonNaN else 0x7F80_0000
  | v => bounded ctr idx (if vIsZero v || vLt (vInt 400) v then v else refGelu v) 4 (some (-28))

def fnSilu (ctr idx : Nat) (x : Val) : F32 :=
  match x with
  | .nan => canonNaN
  | .inf s => if s then canonNaN else 0x7F80_0000
  | v => bounded ctr idx (if vIsZero v || vLt (vInt 400) v then v else refSilu v) 4 (some (-28))

/-- FP32C multiplication: any normalised pair within 5u^2 of the exact product (R207, log 3). -/
def cMul (ctr idx : Nat) (x y : F32C) : F32C :=
  let p := vMul (cVal x) (cVal y)
  let c := cOfBits (Config.approx ctr idx).toNat
  let d := vAbs (vSub (cVal c) p)
  if vFinite p && f32Finite (rn32 p) && vFinite (cVal c) && decide (cOf (cVal c) = c) && !vLt (vMul (vAbs p) (.fin false 5 (-48))) d
  then c else cOf p

/-- The epilogue codes of R98; codes above 6 are refused before. -/
def epilogue (ctr idx epi : Nat) (imm : F32) (x : F32) : F32 :=
  let v := f32Val x
  match epi with
  | 1 => match v with
    | .nan => canonNaN
    | _ => if vSign v then 0 else x
  | 2 => fnGelu ctr idx v
  | 3 => fnSilu ctr idx v
  | 4 => fnSigmoid ctr idx v
  | 5 => fnTanh ctr idx v
  | 6 => f32Mul x imm
  | _ => x

end Sys2Proof.Machine
end

