-- ==== Sys2Proof/Machine/Convert.lean ====
section
/-! DEFINITION. Conversions between element formats: special values, saturation, stochastic rounding, block scales and the
counts of R208 (R198 to R211, R213). Formats are the codes of R103. -/

namespace Sys2Proof.Machine

/-- What one or more conversions add to CORE_CVTOVF, CORE_CVTUFL and CORE_CVTNAN (R208). -/
structure CvtCnt where
  ovf : Nat
  ufl : Nat
  nan : Nat
deriving DecidableEq, Repr

def cnt0 : CvtCnt := ⟨0, 0, 0⟩
def cntAdd (a b : CvtCnt) : CvtCnt := ⟨a.ovf + b.ovf, a.ufl + b.ufl, a.nan + b.nan⟩

/-- Bits per element (R103). -/
def fmtBits (fmt : Nat) : Nat :=
  match fmt with
  | 0x0 => 32 | 0x1 => 64 | 0x2 => 16 | 0x3 => 16 | 0x4 => 8 | 0x5 => 8 | 0x6 => 8 | 0x7 => 8
  | 0x8 => 6 | 0x9 => 6 | 0xA => 4 | 0xB => 8 | 0xC => 32 | 0xD => 16 | _ => 8

/-- The MX element types, codes 0x6 to 0xB. -/
def fmtMx (fmt : Nat) : Bool := decide (6 ≤ fmt) && decide (fmt ≤ 0xB)

/-- The floating layout behind an element format code. -/
def fmtF (fmt : Nat) : FFmt :=
  match fmt with
  | 0x2 => fBF16 | 0x3 => fFP16 | 0x4 => fE4M3 | 0x5 => fE5M2 | 0x6 => fE4M3 | 0x7 => fE5M2
  | 0x8 => fE3M2 | 0x9 => fE2M3 | 0xA => fE2M1 | 0xB => fMXI8 | _ => fFP32

/-- emax of an MX element type, and of E4M3 and E5M2 for tensor scales (R213). -/
def fmtEmax (fmt : Nat) : Int :=
  match fmt with
  | 0x4 => 8 | 0x6 => 8 | 0x5 => 15 | 0x7 => 15 | 0x8 => 4 | 0x9 => 2 | 0xA => 2 | _ => 0

/-- The value of an element's bits, without any scale (R198, R199, R202). -/
def decElem (fmt code : Nat) : Val :=
  match fmt with
  | 0x1 => cVal (cOfBits code)
  | 0x4 => decE4M3 code
  | 0x6 => decE4M3 code
  | 0x5 => decIeee fE5M2 code
  | 0x7 => decIeee fE5M2 code
  | 0x8 => decPlain fE3M2 code
  | 0x9 => decPlain fE2M3 code
  | 0xA => decPlain fE2M1 code
  | 0xB => decMXI8 code
  | 0xC => vInt (signed 32 code)
  | 0xD => vInt (code % 2 ^ 16 : Nat)
  | f => decIeee (fmtF f) code

/-- The value with an E8M0 scale code; 0xFF reads as NaN (R200, R201). -/
def withScale (v : Val) (s : Nat) : Val := if s = 0xFF then .nan else vScale v ((s : Int) - 127)

/-- Nearest integer, ties to even. -/
def rnInt (n : Bool) (m : Nat) (e : Int) : Int :=
  let a : Nat := if 0 ≤ e then m * 2 ^ e.toNat else
    let d := 2 ^ (-e).toNat
    let q := m / d
    let r := m % d
    if 2 * r > d ∨ (2 * r = d ∧ q % 2 = 1) then q + 1 else q
  if n then -(a : Int) else a

/-- Conversion into INT32 or UINT16 between lo and hi (R204, R206). -/
def toInt (lo hi : Int) (w : Nat) (v : Val) : Nat × CvtCnt :=
  match v with
  | .nan => (0, cnt0)
  | .inf s => (unsigned w (if s then lo else hi), cnt0)
  | .fin s m e =>
    let x := rnInt s m e
    let y := max lo (min hi x)
    (unsigned w y, ⟨b2n (y != x), b2n (y == 0 && m != 0), 0⟩)

/-- The code written for an overflow of sign s, and whether it is a NaN (R204, R205). -/
def ovfCode (fmt : Nat) (sat8 s : Bool) : Nat × Bool :=
  match fmt with
  | 0x4 => if sat8 then (signCode 8 s 0x7E, false) else (0x7F, true)
  | 0x5 => if sat8 then (signCode 8 s 0x7B, false) else (signCode 8 s 0x7C, false)
  | 0x2 => (signCode 16 s 0x7F80, false)
  | 0x3 => (signCode 16 s 0x7C00, false)
  | 0x0 => (signCode 32 s 0x7F80_0000, false)
  | 0xB => (if s then 0x81 else 0x7F, false)
  | f => (signCode (fmtF f).width s (fmtF f).maxc, false)

/-- The code of a NaN (R204). -/
def nanCode (fmt : Nat) : Nat :=
  match fmt with
  | 0x2 => 0x7FC0 | 0x3 => 0x7E00 | 0x4 => 0x7F | 0x5 => 0x7E | 0x0 => canonNaN | _ => 0

/-- Sign and magnitude code in the format's bits; MXINT8 is two's complement. -/
def packMag (fmt : Nat) (s : Bool) (c : Nat) : Nat :=
  if fmt = 0xB then (if s then (256 - c) % 256 else c) else signCode (fmtF fmt).width s c

/-- One conversion of an exact value, already divided by any scale of the target, into a format; sr: the random bits where it
rounds stochastically (R203 to R206, R209, R210). -/
def convert (fmt : Nat) (sat8 : Bool) (sr : Option Nat) (v : Val) : Nat × CvtCnt :=
  match fmt with
  | 0x1 =>
    let c := cOf v
    (cBits c, ⟨if vFinite v && !f32Finite c.hi then 1 else 0, if c.hi % 2 ^ 31 = 0 ∧ !vIsZero v then 1 else 0, if v = .nan then 1 else 0⟩)
  | 0xC => toInt (-2 ^ 31) (2 ^ 31 - 1) 32 v
  | 0xD => toInt 0 65535 16 v
  | _ =>
    match v with
    | .nan => (nanCode fmt, ⟨0, 0, 1⟩)
    | .inf s => let (c, n) := ovfCode fmt sat8 s; (c, ⟨0, 0, b2n n⟩)
    | .fin s m e =>
      let f := fmtF fmt
      let tooBig : Bool := match sr with
        | none => decide (f.maxc < magNearest f m e)
        | some _ => let (c, r, _) := magFloor f m e; decide (f.maxc < c) || (decide (c = f.maxc) && decide (r ≠ 0))
      if tooBig then let (c, n) := ovfCode fmt sat8 s; (c, ⟨1, 0, b2n n⟩)
      else
        let c := match sr with
          | none => magNearest f m e
          | some r => magStochastic f m e r
        (packMag fmt s c, if c = 0 ∧ m ≠ 0 then ⟨0, 1, 0⟩ else cnt0)

/-- Formats into which a gradient target rounds stochastically (R209). -/
def fmtSr (fmt : Nat) : Bool := fmt = 0x0 || decide (2 ≤ fmt) && decide (fmt ≤ 0xB)

end Sys2Proof.Machine
end

