-- ==== Sys2Proof/Machine/CoreState.lean ====
section
/-! DEFINITION. What one core holds beside its registers and memories: streams and the instructions in flight, run contexts,
the PE array, queues, bobbin holds and the watch's local state (chapters 03 to 09, 11). -/

namespace Sys2Proof.Machine

open Sys2Proof

/-- Run kinds (R71); `u` is the U program's run of the step. -/
inductive RunKind where
  | f | b | e | u
deriving DecidableEq, Repr

/-- One of the two run contexts of R164, or the U stream's. -/
inductive Rc where
  | r0 | r1 | u
deriving DecidableEq, Repr

/-- A run in progress (R73, R164). `press` is the press epoch whose parameter version it reads; `unset` says that an E run
has not yet received the frame that sets it (R182); `pg` counts the PGATHERs issued (R393). -/
structure RunInfo where
  kind : RunKind
  mb : Nat
  config : Nat
  press : Nat
  unset : Bool
  skip : Bool
  pg : Nat
deriving DecidableEq, Repr

/-- A range of channel addresses. -/
structure Span where
  lo : Nat
  len : Nat
deriving DecidableEq, Repr

/-- How far an issued instruction has come. -/
inductive Phase where
  | done      -- every write made; it completes when its turn comes (R125)
  | hazard    -- waits for bytes of an earlier instruction of its stream (R123), or a BSWAP for its pair (R264)
  | bobbins   -- waits for another stream's bobbins (R140)
  | walk      -- slabs remain (R136, R145, R148)
  | send      -- lines remain to be sent (R180)
  | recv      -- frames remain to be taken (R182)
  | version   -- a U write waits for an E run that reads its target buffer (R78)
  | norm      -- waits for the global norm (R321)
  | gather    -- waits for parameter shards (R393)
  | fused     -- takes its rows from the matrix instruction before it (R270, R271)
  | slot      -- waits for a bucket slot (R379)
  | tack      -- TWAIT: waits for its count (R119)
  | drain     -- DRAIN: waits for every earlier instruction of the stream (R125)
  | stopped   -- a fault stopped it (R154)
deriving DecidableEq, Repr

/-- Position in a walk: batch index, group row, group column, K slab or slot, sub-slab, live bobbin (R136, R145, R148). -/
structure Cursor where
  b : Nat
  mt : Nat
  nt : Nat
  ks : Nat
  kk : Nat
  li : Nat
deriving DecidableEq, Repr

/-- A bobbin whose last slab has ended and which is still to drain, with its tile (R137). -/
structure Drain where
  bob : Nat
  b : Nat
  row : Nat
  col : Nat
deriving DecidableEq, Repr

/-- The frame a RECV is taking (R180, R182). -/
structure Frame where
  rows : Nat
  rowbytes : Nat
  vmask : Nat
  lastf : Bool
  need : Nat
  buf : List Byte
deriving DecidableEq, Repr

/-- The instruction that pairs with a matrix instruction and issues with it: word, snapshot, spans, whether it takes the rows passed to
it (R270, R271). -/
structure Mate where
  w : IWord
  snap : List (Nat × Nat)
  rd : List Span
  wr : List Span
  act : Bool
deriving DecidableEq, Repr

/-- An instruction that has issued and not completed. `wrote`: it writes memory or sends tokens, so INSTRUCTION_COMPLETE ends
it; `act`: its operation acts, it is neither predicated off nor a no-op; `wm`: the watch's mode when it issued (R219). -/
structure Flight where
  pc : Nat
  w : IWord
  rc : Rc
  ph : Phase
  snap : List (Nat × Nat)
  rd : List Span
  wr : List Span
  bobs : List Nat
  cur : Cursor
  ord : Nat
  partner : Option IWord
  mate : Option Mate
  drains : List Drain
  lines : List QLine
  row : Nat
  frame : Option Frame
  ml : List (Nat × Nat)
  wrote : Bool
  act : Bool
  wm : Nat
deriving DecidableEq, Repr

/-- What keeps a stream from issuing (CORE_SSTAT.STATE, R123, R126, R140). -/
inductive Wait where
  | none
  | header (w follow : IWord)
  | tack (w : IWord)
  | fault
deriving DecidableEq, Repr

/-- One stream sequencer (R95, R113, R255, R256). The re-run point: program counter, loop counters, flags, whether the header
wait there has been made, the number of the first instruction after it; `skipHdr` says that the next instruction has made its
header wait. -/
structure Stream where
  pc : Nat
  lc : List Nat
  cf : Nat
  run : Option Rc
  wait : Wait
  flights : List Flight
  rePc : Nat
  reLc : List Nat
  reCf : Nat
  reHdr : Bool
  reOrd : Nat
  skipHdr : Bool
  rerun : Bool
  winRd : List Span
deriving DecidableEq, Repr

def Stream.reset : Stream := ⟨0, [0, 0, 0, 0], 0, none, .none, [], 0, [0, 0, 0, 0], 0, false, 0, false, true, []⟩

/-- An array token: payload of one beat (two tokens side by side in class S), VMASK, TAG, and the E8M0 scales that its lane
has delivered for its block (R162, R163, R165). -/
structure Tok where
  pay : Nat
  vmask : Nat
  tag : Nat
  sc : Nat
deriving DecidableEq, Repr

/-- The token that carries nothing (R163). -/
def nullTok : Tok := ⟨0, 0, 8, 0⟩

/-- One PE: input registers, pass-through registers, B latch, and for 2:4 forms the B tokens being collected and the last
collected group (R159, R166 to R170). -/
structure PE where
  inN : Tok
  inS : Tok
  inE : Tok
  inW : Tok
  pt0 : Tok
  pt1 : Tok
  latch : Tok
  coll : List Tok
  group : List Tok
deriving DecidableEq, Repr

def PE.reset : PE := ⟨nullTok, nullTok, nullTok, nullTok, nullTok, nullTok, nullTok, [], []⟩

/-- The PE array: position, class in the array (0 empty, 1 Q4, 2 Q8 or Q6, 3 H, 4 S), PEs by r * 8 + q (R172). -/
structure Arr where
  pos : Nat
  cls : Nat
  pes : List (Nat × PE)
deriving DecidableEq, Repr

def Arr.reset : Arr := ⟨0, 0, []⟩

/-- An inbound queue (R177, R181, R187, R188). The ring's lines lie in the scratchpad; `ring` keeps their header flags,
oldest first, and `head` the ring place of the oldest. `h` is H of R188, `drop` the data lines of a discarded frame still to
discard. -/
structure Queue where
  fifo : List QLine
  ring : List Bool
  head : Nat
  spill : Bool
  psite : Option Nat
  h : Nat
  drop : Nat
deriving DecidableEq, Repr

def Queue.reset : Queue := ⟨[], [], 0, false, none, 0, 0⟩

/-- A producer's credit pool (R179). -/
structure Pool where
  site : Nat
  queue : Nat
  credits : Nat
deriving DecidableEq, Repr

/-- An agreement check in progress: the bobbin, the element's batch, row and column, the instruction (R221, R222). -/
structure Check where
  st : Strm
  ord : Nat
  bob : Nat
  i : Nat
  j : Nat
  b : Nat
  row : Nat
  col : Nat
  opc : Nat
  ready : Option (Bool × Nat)
deriving DecidableEq, Repr

/-- One core. `quiet`: QUIESCE stops its issuing (R495); `descCopy`: its descriptor table as the first run of the step found it
(R467). `again`: a new step waits until the core has reached END of the last one (R80); `fillers`: filler micro-batches that its step
supplies (R76). -/
structure Core where
  owner : Option Nat
  stage : Nat
  replica : Nat
  period : Nat
  peers : Nat
  codeLo : Nat
  codeLen : Nat
  fIp : Nat
  bIp : Nat
  uIp : Nat
  runList : List Nat
  pos : Option Nat
  sched : List (Nat × Nat)
  tack0 : List (Nat × Nat)
  f : Stream
  b : Stream
  u : Stream
  rc0 : Option RunInfo
  rc1 : Option RunInfo
  rcU : Option RunInfo
  uStarted : Bool
  uDone : Bool
  arr : Arr
  queues : List (Nat × Queue)
  pools : List Pool
  held : List (Nat × Strm × Rc)
  hist : List (Nat × Nat)
  elig : Nat
  check : Option Check
  reruns : Nat
  ord : Nat
  normp : Bool
  normSent : Bool
  normed : Bool
  closed : List Nat
  quiet : Bool
  descCopy : Option (List (Nat × Word))
  again : Bool
  fillers : Nat
deriving DecidableEq, Repr

def Core.reset : Core :=
  { owner := none, stage := 0, replica := 0, period := 0, peers := 0, codeLo := 0, codeLen := 0, fIp := 0, bIp := 0, uIp := 0,
    runList := [], pos := none, sched := [], tack0 := [], f := .reset, b := .reset, u := .reset, rc0 := none, rc1 := none,
    rcU := none, uStarted := false, uDone := false, arr := .reset, queues := [], pools := [], held := [],
    hist := [], elig := 0, check := none, reruns := 0, ord := 0, normp := false, normSent := false, normed := false, closed := [], quiet := false,
    descCopy := none, again := false, fillers := 0 }

end Sys2Proof.Machine
end

