-- ==== Sys2Proof/Machine/SMap.lean ====
section
/-! DEFINITION. A map from numbers to values as plain data in one canonical form: keys strictly rising, no entry equal to
what an unlisted key reads as. Memory and registers are such maps. -/

namespace Sys2Proof.Machine

/-- What the map holds at key k; an unlisted key holds d k. -/
def mget {α : Type} (d : Nat → α) : List (Nat × α) → Nat → α
  | [], k => d k
  | (j, v) :: t, k => if j = k then v else mget d t k

/-- The map with key k set to v; setting the default removes the entry. -/
def mset {α : Type} [DecidableEq α] (d : Nat → α) : List (Nat × α) → Nat → α → List (Nat × α)
  | [], k, v => if v = d k then [] else [(k, v)]
  | (j, w) :: t, k, v =>
    if v = d k then (if j = k then mset d t k v else (j, w) :: mset d t k v)
    else if k < j then (k, v) :: (j, w) :: t
    else if k = j then (k, v) :: t
    else (j, w) :: mset d t k v

/-- The map with every key from lo up to (not including) hi back at its default. -/
def mclear {α : Type} (m : List (Nat × α)) (lo hi : Nat) : List (Nat × α) :=
  m.filter (fun e => e.1 < lo || hi ≤ e.1)

/-- The keys lie above b and rise strictly. -/
def mrising {α : Type} : Option Nat → List (Nat × α) → Bool
  | _, [] => true
  | none, (j, _) :: t => mrising (some j) t
  | some b, (j, _) :: t => decide (b < j) && mrising (some j) t

/-- The canonical form. -/
def mwf {α : Type} [DecidableEq α] (d : Nat → α) (m : List (Nat × α)) : Bool :=
  mrising none m && m.all (fun e => decide (e.2 ≠ d e.1))

end Sys2Proof.Machine
end

