-- ==== Sys2Proof/Machine/Regs.lean ====
section
/-! DEFINITION. Every named register of the manual (R31, R515, R516, R520): its address, its fields, their access codes (R8) and
reset values, from the register tables of the chapters. Reset values the manual does not state as numbers (OTP, Stepping,
Factory, Position, Device, Version, Route) stand as log entry 7 names them. -/

namespace Sys2Proof.Machine

/-- A field of a register: its lowest bit and its width. -/
structure Fld where
  lo : Nat
  w : Nat
deriving DecidableEq, Repr

/-- Access codes (R8). -/
inductive Acc where
  | ro | rw | wo | w1c | w1s
deriving DecidableEq, Repr

/-- One line of a field table. Reserved fields have no line: they read 0 and ignore writes (R9). -/
structure RField where
  lo : Nat
  w : Nat
  acc : Acc
  reset : Nat
deriving DecidableEq, Repr

/-- One register, or one array of registers: base offset, (count, stride) per index from the widest stride down, and fields. -/
structure RegRow where
  name : String
  base : Nat
  dims : List (Nat × Nat)
  fields : List RField
deriving DecidableEq, Repr

/-- Where core c's register block begins (R516). -/
def coreBase (c : Nat) : Nat := 0x0100_0000 + c * 0x1_0000

namespace Reg

def MOD_ID : Nat := 0x0
def MOD_STATUS : Nat := 0x4
def MOD_CHRST : Nat := 0x8
def MOD_ARB : Nat := 0xC
def MOD_DROP (n : Nat) : Nat := 0x10 + n * 0x4
def MOD_SERIAL (k : Nat) : Nat := 0x20 + k * 0x4
def CHAN_ID : Nat := 0x1000
def CHAN_SITEMAP (k : Nat) : Nat := 0x1004 + k * 0x4
def SEAM_STATUS : Nat := 0x2100
def SEAM_STALL : Nat := 0x2104
def SEAM_STALLW : Nat := 0x2108
def SEAM_STALLE : Nat := 0x210C
def MESH_CTRL : Nat := 0x2000
def MESH_FENCE (k : Nat) : Nat := 0x2004 + k * 0x4
def MESH_RTADDR : Nat := 0x2014
def MESH_RTDATA : Nat := 0x2018
def MESH_MERGED : Nat := 0x201C
def MESH_MERGEFULL : Nat := 0x2020
def MESH_FENCEDROP : Nat := 0x2024
def MESH_RTSTALL : Nat := 0x2028
def MESH_SWAPS : Nat := 0x202C
def MESH_CORR : Nat := 0x2030
def CNET_CORR : Nat := 0x2200
def CNET_MAXLAT : Nat := 0x2204
def CTX_STATE (x : Nat) : Nat := 0x3000 + x * 0x40
def CTX_EPOCH (x : Nat) : Nat := 0x3004 + x * 0x40
def CTX_PRESS (x : Nat) : Nat := 0x3008 + x * 0x40
def CTX_VERWAIT (x : Nat) : Nat := 0x300C + x * 0x40
def CTX_CORE (x k : Nat) : Nat := 0x3010 + x * 0x40 + k * 0x4
def CTX_DIGEST (x k : Nat) : Nat := 0x3020 + x * 0x40 + k * 0x4
def CORE_OWNER (c : Nat) : Nat := coreBase c + (0x0)
def CORE_RUN (c : Nat) : Nat := coreBase c + (0x4)
def CORE_FILLRUN (c : Nat) : Nat := coreBase c + (0x8)
def CORE_FILLSKIP (c : Nat) : Nat := coreBase c + (0xC)
def CORE_NOOPST (c : Nat) : Nat := coreBase c + (0x10)
def CORE_ZEROOP (c : Nat) : Nat := coreBase c + (0x14)
def CORE_TACKDROP (c : Nat) : Nat := coreBase c + (0x18)
def CORE_DCONFL (c : Nat) : Nat := coreBase c + (0x1C)
def CORE_SPCL (c s : Nat) : Nat := coreBase c + (0x100 + s * 0x20)
def CORE_SPCH (c s : Nat) : Nat := coreBase c + (0x104 + s * 0x20)
def CORE_SSTAT (c s : Nat) : Nat := coreBase c + (0x108 + s * 0x20)
def CORE_STWAIT (c s : Nat) : Nat := coreBase c + (0x10C + s * 0x20)
def CORE_SISSUED (c s : Nat) : Nat := coreBase c + (0x110 + s * 0x20)
def CORE_TACK (c t : Nat) : Nat := coreBase c + (0x400 + t * 0x4)
def CORE_DESC (c i j : Nat) : Nat := coreBase c + (0x8000 + i * 0x40 + j * 0x8)
def CORE_OVFSTAT (c : Nat) : Nat := coreBase c + (0x200)
def CORE_OVFDESC (c : Nat) : Nat := coreBase c + (0x204)
def CORE_OVFEXT (c : Nat) : Nat := coreBase c + (0x208)
def CORE_OVFCAP (c : Nat) : Nat := coreBase c + (0x20C)
def CORE_OVFPOS (c : Nat) : Nat := coreBase c + (0x210)
def CORE_OVFPCL (c : Nat) : Nat := coreBase c + (0x214)
def CORE_OVFPCH (c : Nat) : Nat := coreBase c + (0x218)
def CORE_SLABS (c : Nat) : Nat := coreBase c + (0x220)
def CORE_SLOTEMPTY (c : Nat) : Nat := coreBase c + (0x224)
def CORE_IDXINV (c : Nat) : Nat := coreBase c + (0x228)
def CORE_BOBWAIT (c : Nat) : Nat := coreBase c + (0x22C)
def CORE_ARRPOS (c : Nat) : Nat := coreBase c + (0x300)
def CORE_RCX (c n : Nat) : Nat := coreBase c + (0x304 + n * 0x4)
def CORE_ARRHOLD (c : Nat) : Nat := coreBase c + (0x30C)
def CORE_ARRIDLE (c : Nat) : Nat := coreBase c + (0x310)
def CORE_CLASSCHG (c : Nat) : Nat := coreBase c + (0x314)
def CORE_TOKDROP (c : Nat) : Nat := coreBase c + (0x318)
def CORE_PSTALL (c : Nat) : Nat := coreBase c + (0x31C)
def CORE_CSTALL (c : Nat) : Nat := coreBase c + (0x320)
def CORE_EPFLUSH (c : Nat) : Nat := coreBase c + (0x324)
def CORE_DARN (c : Nat) : Nat := coreBase c + (0x328)
def CORE_DARNSPILL (c : Nat) : Nat := coreBase c + (0x32C)
def CORE_DARNFULL (c : Nat) : Nat := coreBase c + (0x330)
def CORE_QSTAT (c q : Nat) : Nat := coreBase c + (0x340 + q * 0x4)
def SPAT_DLCFG : Nat := 0x2300
def SPAT_DRAINTO : Nat := 0x2304
def SPAT_DLSTAT : Nat := 0x2308
def SPAT_DLSPILL : Nat := 0x230C
def SPAT_DLFAULT : Nat := 0x2310
def CORE_CVTOVF (c : Nat) : Nat := coreBase c + (0x500)
def CORE_CVTUFL (c : Nat) : Nat := coreBase c + (0x504)
def CORE_CVTNAN (c : Nat) : Nat := coreBase c + (0x508)
def CORE_PSAMAX (c : Nat) : Nat := coreBase c + (0x50C)
def CORE_PSNONFIN (c : Nat) : Nat := coreBase c + (0x510)
def NUM_CTRL : Nat := 0x2400
def NUM_SRSEEDL : Nat := 0x2404
def NUM_SRSEEDH : Nat := 0x2408
def NUM_WCTRL : Nat := 0x240C
def NUM_ACHECK : Nat := 0x2410
def NUM_ADIS : Nat := 0x2414
def NUM_ASKIP : Nat := 0x2418
def NUM_AMAX : Nat := 0x241C
def NUM_AREC : Nat := 0x2420
def NUM_ARECD : Nat := 0x2424
def NUM_WPRESS : Nat := 0x2428
def NUM_WSLOT (s : Nat) : Nat := 0x2440 + s * 0x4
def NUM_HIST (s b : Nat) : Nat := 0x4000 + s * 0x100 + b * 0x4
def NUM_PHIST (s b : Nat) : Nat := 0x5000 + s * 0x100 + b * 0x4
def CORE_BOBCORR (c : Nat) : Nat := coreBase c + (0x600)
def CORE_BOBWIN (c : Nat) : Nat := coreBase c + (0x604)
def CORE_ACCINF (c : Nat) : Nat := coreBase c + (0x608)
def CORE_TOPKNAN (c : Nat) : Nat := coreBase c + (0x60C)
def CORE_TOPKSHORT (c : Nat) : Nat := coreBase c + (0x610)
def CORE_ROUTEASGN (c : Nat) : Nat := coreBase c + (0x614)
def CORE_ROUTEOVF (c : Nat) : Nat := coreBase c + (0x618)
def CORE_ROUTERES (c : Nat) : Nat := coreBase c + (0x61C)
def CORE_SPCONF (c : Nat) : Nat := coreBase c + (0x700)
def CORE_SPPAR (c : Nat) : Nat := coreBase c + (0x704)
def CORE_SPRERUN (c : Nat) : Nat := coreBase c + (0x708)
def CORE_SPPADDR (c : Nat) : Nat := coreBase c + (0x70C)
def CORE_SPRET (c : Nat) : Nat := coreBase c + (0x710)
def CORE_PILOT (c : Nat) : Nat := coreBase c + (0x714)
def CORE_DTLATE (c : Nat) : Nat := coreBase c + (0x718)
def CORE_FUSED (c : Nat) : Nat := coreBase c + (0x71C)
def CORE_FUSEMISS (c : Nat) : Nat := coreBase c + (0x720)
def CORE_BSWAPS (c : Nat) : Nat := coreBase c + (0x724)
def CORE_HALF_CFG (c n : Nat) : Nat := coreBase c + (0x800 + n * 0x10)
def CORE_HALF_BASEL (c n : Nat) : Nat := coreBase c + (0x804 + n * 0x10)
def CORE_HALF_BASEH (c n : Nat) : Nat := coreBase c + (0x808 + n * 0x10)
def CORE_HALF_SPAN (c n : Nat) : Nat := coreBase c + (0x80C + n * 0x10)
def TIER_CTRL : Nat := 0x2500
def TIER_CORR : Nat := 0x2504
def TIER_UCSTAT : Nat := 0x2508
def TIER_UCADDR : Nat := 0x250C
def TIER_UCCNT : Nat := 0x2510
def TIER_SCRUBS : Nat := 0x2514
def MEMC_STATUS (n : Nat) : Nat := 0x2600 + n * 0x40
def MEMC_CTRL (n : Nat) : Nat := 0x2604 + n * 0x40
def MEMC_CORR (n : Nat) : Nat := 0x2608 + n * 0x40
def MEMC_LECC (n : Nat) : Nat := 0x260C + n * 0x40
def MEMC_UCSTAT (n : Nat) : Nat := 0x2610 + n * 0x40
def MEMC_UCADDRL (n : Nat) : Nat := 0x2614 + n * 0x40
def MEMC_UCADDRH (n : Nat) : Nat := 0x2618 + n * 0x40
def MEMC_UCCNT (n : Nat) : Nat := 0x261C + n * 0x40
def MEMC_RMW (n : Nat) : Nat := 0x2620 + n * 0x40
def KT5_CTRL : Nat := 0x2700
def KT5_MAP : Nat := 0x2704
def KT5_HITS : Nat := 0x2708
def KT5_MISSES : Nat := 0x270C
def KT5_MIGR : Nat := 0x2710
def KT5_EVICT : Nat := 0x2714
def KT5_WAIT : Nat := 0x2718
def FLASH_STATUS : Nat := 0x2800
def FLASH_CTRL : Nat := 0x2804
def FLASH_RDTHR : Nat := 0x2808
def FLASH_HOSTWL : Nat := 0x280C
def FLASH_HOSTWH : Nat := 0x2810
def FLASH_NANDWL : Nat := 0x2814
def FLASH_NANDWH : Nat := 0x2818
def FLASH_ERASE : Nat := 0x281C
def FLASH_SPARE : Nat := 0x2820
def FLASH_GROWN : Nat := 0x2824
def FLASH_RELOC : Nat := 0x2828
def FLASH_SWAPS : Nat := 0x282C
def FLASH_MAPSTALL : Nat := 0x2830
def FLASH_UCSTAT : Nat := 0x2834
def FLASH_UCUNIT : Nat := 0x2838
def FLASH_UCCNT : Nat := 0x283C
def FLASH_DROP : Nat := 0x2840
def CORE_NORMACCL (c : Nat) : Nat := coreBase c + (0x900)
def CORE_NORMACCH (c : Nat) : Nat := coreBase c + (0x904)
def CORE_CLIP (c : Nat) : Nat := coreBase c + (0x908)
def CORE_FROZEN_SKIPS (c : Nat) : Nat := coreBase c + (0x90C)
def CORE_PRECSING (c : Nat) : Nat := coreBase c + (0x910)
def CORE_PRECDIAG (c : Nat) : Nat := coreBase c + (0x914)
def CORE_EMBROWS (c : Nat) : Nat := coreBase c + (0x918)
def CORE_JBASEL (c : Nat) : Nat := coreBase c + (0x91C)
def CORE_JBASEH (c : Nat) : Nat := coreBase c + (0x920)
def CORE_JSIZE (c : Nat) : Nat := coreBase c + (0x924)
def CORE_JFILL (c : Nat) : Nat := coreBase c + (0x928)
def CORE_SNAPS (c : Nat) : Nat := coreBase c + (0x92C)
def UPD_CTRL : Nat := 0x2900
def UPD_NFSKIP : Nat := 0x2904
def UPD_PRESSES : Nat := 0x2908
def UPD_PMAXLAT : Nat := 0x290C
def UPD_PRESS (x : Nat) : Nat := 0x2940 + x * 0x4
def UPD_NORM (x : Nat) : Nat := 0x2980 + x * 0x4
def YL_COORD : Nat := 0x2A00
def YL_SYSID : Nat := 0x2A04
def YL_RCTRL : Nat := 0x2A08
def YL_RTADDR : Nat := 0x2A0C
def YL_RTDATA : Nat := 0x2A10
def YL_WAKE : Nat := 0x2A14
def YL_RWTO : Nat := 0x2A18
def YL_RTSTALL : Nat := 0x2A1C
def YL_NOROUTE : Nat := 0x2A20
def YL_SWAPS : Nat := 0x2A24
def YL_WCLOSEDRX : Nat := 0x2A28
def YL_NAKRX : Nat := 0x2A2C
def YL_ECRC : Nat := 0x2A30
def YL_RWTIMEOUT : Nat := 0x2A34
def YLP_CTRL (k : Nat) : Nat := 0x6000 + k * 0x100
def YLP_STAT (k : Nat) : Nat := 0x6004 + k * 0x100
def YLP_PARTNER (k : Nat) : Nat := 0x6008 + k * 0x100
def YLP_FECCW (k : Nat) : Nat := 0x600C + k * 0x100
def YLP_FECUNC (k : Nat) : Nat := 0x6010 + k * 0x100
def YLP_REPLAY (k : Nat) : Nat := 0x6014 + k * 0x100
def YLP_REPCW (k : Nat) : Nat := 0x6018 + k * 0x100
def YLP_RETRAIN (k : Nat) : Nat := 0x601C + k * 0x100
def YLP_CSTALL (k : Nat) : Nat := 0x6020 + k * 0x100
def YLP_BAD (k : Nat) : Nat := 0x6024 + k * 0x100
def YLP_PGAP (k : Nat) : Nat := 0x6028 + k * 0x100
def YLP_LSYM (k l : Nat) : Nat := 0x6040 + k * 0x100 + l * 0x4
def YLW_CTRL (n : Nat) : Nat := 0x6800 + n * 0x20
def YLW_BASEL (n : Nat) : Nat := 0x6804 + n * 0x20
def YLW_BASEH (n : Nat) : Nat := 0x6808 + n * 0x20
def YLW_SIZE (n : Nat) : Nat := 0x680C + n * 0x20
def YLW_SRC (n : Nat) : Nat := 0x6810 + n * 0x20
def YLW_WRITES (n : Nat) : Nat := 0x6814 + n * 0x20
def YLW_WDROP (n : Nat) : Nat := 0x6818 + n * 0x20
def TAT_CTRL : Nat := 0x2B00
def TAT_STATUS : Nat := 0x2B04
def TAT_BUCKETS : Nat := 0x2B08
def TAT_RESTARTS : Nat := 0x2B0C
def TAT_BF16 : Nat := 0x2B10
def TAT_STALE : Nat := 0x2B14
def TAT_EPDROP : Nat := 0x2B18
def TAT_SLOTWAIT : Nat := 0x2B1C
def TAT_REUSEWAIT : Nat := 0x2B20
def TAT_ABANDON : Nat := 0x2B24
def TAT_PERMWAIT : Nat := 0x2B28
def TAT_BTBASEL (x : Nat) : Nat := 0x7000 + x * 0x80
def TAT_BTBASEH (x : Nat) : Nat := 0x7004 + x * 0x80
def TAT_BTCFG (x : Nat) : Nat := 0x7008 + x * 0x80
def TAT_JOB (x : Nat) : Nat := 0x700C + x * 0x80
def TAT_GRP (x d : Nat) : Nat := 0x7010 + x * 0x80 + d * 0x4
def TAT_CDIG (x k : Nat) : Nat := 0x7020 + x * 0x80 + k * 0x4
def TAT_PDIG (x k : Nat) : Nat := 0x7040 + x * 0x80 + k * 0x4
def HIF_STATUS : Nat := 0x8000
def HIF_APBASE : Nat := 0x8004
def HIF_EVPEND : Nat := 0x8008
def HIF_DBERR : Nat := 0x800C
def HIF_APHOLE : Nat := 0x8010
def HIF_WINTO : Nat := 0x8014
def HIF_CQWAIT : Nat := 0x8018
def HIF_CMDS : Nat := 0x801C
def HIF_SQ_BASEL (q : Nat) : Nat := 0xA000 + q * 0x20
def HIF_SQ_BASEH (q : Nat) : Nat := 0xA004 + q * 0x20
def HIF_SQ_CFG (q : Nat) : Nat := 0xA008 + q * 0x20
def HIF_SQ_STAT (q : Nat) : Nat := 0xA00C + q * 0x20
def HIF_CQ_BASEL (q : Nat) : Nat := 0xA800 + q * 0x20
def HIF_CQ_BASEH (q : Nat) : Nat := 0xA804 + q * 0x20
def HIF_CQ_CFG (q : Nat) : Nat := 0xA808 + q * 0x20
def HIF_CQ_COAL (q : Nat) : Nat := 0xA80C + q * 0x20
def HIF_CQ_STAT (q : Nat) : Nat := 0xA810 + q * 0x20
def HIF_EV (e : Nat) : Nat := 0xB000 + e * 0x4
def MBX_CTRL : Nat := 0x9000
def MBX_BADW : Nat := 0x9004
def MBX_BIND (m : Nat) : Nat := 0x9040 + m * 0x4
def MBX_DATA (m : Nat) : Nat := 0x9080 + m * 0x8
def MBX_STAT (m : Nat) : Nat := 0x9084 + m * 0x8
def DWG_STATUS : Nat := 0xC000
def DWG_ROMVER : Nat := 0xC004
def DWG_UCVER : Nat := 0xC008
def DWG_SVN : Nat := 0xC00C
def DWG_ADDRL : Nat := 0xC010
def DWG_ADDRH : Nat := 0xC014
def DWG_LEN : Nat := 0xC018
def DWG_NONCE (k : Nat) : Nat := 0xC020 + k * 0x4
def DWG_IMGDIG (k : Nat) : Nat := 0xC040 + k * 0x4
def DWG_DEVPUB (k : Nat) : Nat := 0xC060 + k * 0x4
def DWG_DEVCERT (k : Nat) : Nat := 0xC0A0 + k * 0x4
def SEQ_STATE : Nat := 0xB100
def SEQ_MENDS : Nat := 0xB104
def SEQ_DEFER : Nat := 0xB108
def SEQ_PARKMAX : Nat := 0xB10C
def FLT_STATUS : Nat := 0xD000
def FLT_CTRL : Nat := 0xD004
def FLT_FIRST : Nat := 0xD008
def FLT_LOSS : Nat := 0xD00C
def FLT_PMAPL : Nat := 0xD010
def FLT_PMAPH : Nat := 0xD014
def FLT_PMAPN : Nat := 0xD018
def FLT_LOGSEQ : Nat := 0xD01C
def FLT_LOGACK : Nat := 0xD020
def FLT_LOGCTRL : Nat := 0xD024
def FLT_LOGLOST : Nat := 0xD028
def FLT_RINSES : Nat := 0xD02C
def FLT_ORIG : Nat := 0xD030
def FLT_LATEVIEW : Nat := 0xD034
def FLT_AGREEMAX : Nat := 0xD038
def FLT_CORECORR : Nat := 0xD03C
def FLT_LOG (e j : Nat) : Nat := 0x20000 + e * 0x20 + j * 0x4
def PWR_STATUS : Nat := 0xE000
def PWR_CTRL : Nat := 0xE004
def PWR_REQ : Nat := 0xE008
def PWR_WAKECFG : Nat := 0xE00C
def PWR_DVFS (h : Nat) : Nat := 0xE010 + h * 0x10
def PWR_HALF (h : Nat) : Nat := 0xE014 + h * 0x10
def PWR_THCFG : Nat := 0xE030
def PWR_REFREC : Nat := 0xE034
def PWR_ABREC : Nat := 0xE038
def PWR_ENTRIES : Nat := 0xE03C
def PWR_REFUSED : Nat := 0xE040
def PWR_ABORTED : Nat := 0xE044
def PWR_ORDERREF : Nat := 0xE048
def PWR_DEMAND : Nat := 0xE04C
def PWR_DEMMAX : Nat := 0xE050
def PWR_THROTTLES : Nat := 0xE054
def PWR_THRMS : Nat := 0xE058
def PWR_EMERGS : Nat := 0xE05C
def PWR_TIME (s : Nat) : Nat := 0xE080 + s * 0x4

end Reg

namespace Fl

def MOD_ID_STEPPING : Fld := ⟨0, 8⟩
def MOD_ID_GRADE : Fld := ⟨8, 2⟩
def MOD_ID_PART : Fld := ⟨16, 16⟩
def MOD_STATUS_CH_RUN : Fld := ⟨0, 4⟩
def MOD_STATUS_CH_LINK : Fld := ⟨4, 4⟩
def MOD_STATUS_CH_FAULT : Fld := ⟨8, 4⟩
def MOD_STATUS_VIN_OK : Fld := ⟨12, 1⟩
def MOD_CHRST_HOLD : Fld := ⟨0, 4⟩
def MOD_ARB_W1 : Fld := ⟨0, 4⟩
def MOD_ARB_W2 : Fld := ⟨4, 4⟩
def MOD_ARB_W3 : Fld := ⟨8, 4⟩
def MOD_ARB_W4 : Fld := ⟨12, 4⟩
def MOD_DROP_CNT : Fld := ⟨0, 32⟩
def MOD_SERIAL_SERIAL : Fld := ⟨0, 32⟩
def CHAN_ID_CHANNEL : Fld := ⟨0, 2⟩
def CHAN_ID_GRADE : Fld := ⟨4, 2⟩
def CHAN_ID_ENABLED : Fld := ⟨8, 7⟩
def CHAN_SITEMAP_EN : Fld := ⟨0, 32⟩
def SEAM_STATUS_DIV_W : Fld := ⟨0, 4⟩
def SEAM_STATUS_DIV_E : Fld := ⟨4, 4⟩
def SEAM_STATUS_LINK_UP : Fld := ⟨8, 10⟩
def SEAM_STALL_CNT : Fld := ⟨0, 32⟩
def SEAM_STALLW_CNT : Fld := ⟨0, 32⟩
def SEAM_STALLE_CNT : Fld := ⟨0, 32⟩
def MESH_CTRL_MERGE_WIN : Fld := ⟨0, 8⟩
def MESH_CTRL_RT_SWAP : Fld := ⟨8, 1⟩
def MESH_CTRL_RT_GEN : Fld := ⟨9, 1⟩
def MESH_CTRL_SWAP_BUSY : Fld := ⟨10, 1⟩
def MESH_CTRL_SWAP_FAIL : Fld := ⟨11, 1⟩
def MESH_FENCE_FENCE : Fld := ⟨0, 32⟩
def MESH_RTADDR_ROUTER : Fld := ⟨0, 7⟩
def MESH_RTADDR_DEST : Fld := ⟨8, 7⟩
def MESH_RTADDR_READ_ACTIVE : Fld := ⟨15, 1⟩
def MESH_RTDATA_PORT : Fld := ⟨0, 3⟩
def MESH_MERGED_CNT : Fld := ⟨0, 32⟩
def MESH_MERGEFULL_CNT : Fld := ⟨0, 32⟩
def MESH_FENCEDROP_CNT : Fld := ⟨0, 32⟩
def MESH_RTSTALL_CNT : Fld := ⟨0, 32⟩
def MESH_SWAPS_CNT : Fld := ⟨0, 32⟩
def MESH_CORR_CORR : Fld := ⟨0, 24⟩
def MESH_CORR_BAD : Fld := ⟨24, 8⟩
def CNET_CORR_CORR : Fld := ⟨0, 24⟩
def CNET_CORR_LOST : Fld := ⟨24, 8⟩
def CNET_MAXLAT_CYCLES : Fld := ⟨0, 16⟩
def CTX_STATE_STATE : Fld := ⟨0, 2⟩
def CTX_STATE_MB : Fld := ⟨8, 12⟩
def CTX_STATE_STAGES : Fld := ⟨20, 7⟩
def CTX_EPOCH_CONFIG : Fld := ⟨0, 8⟩
def CTX_PRESS_EPOCH : Fld := ⟨0, 32⟩
def CTX_VERWAIT_CNT : Fld := ⟨0, 32⟩
def CTX_CORE_OWN : Fld := ⟨0, 32⟩
def CTX_DIGEST_DIGEST : Fld := ⟨0, 32⟩
def CORE_OWNER_CTX : Fld := ⟨0, 4⟩
def CORE_OWNER_OWNED : Fld := ⟨4, 1⟩
def CORE_OWNER_STAGE : Fld := ⟨8, 7⟩
def CORE_OWNER_REPLICA : Fld := ⟨16, 7⟩
def CORE_RUN_POS : Fld := ⟨0, 13⟩
def CORE_RUN_KIND : Fld := ⟨13, 2⟩
def CORE_RUN_MB : Fld := ⟨16, 12⟩
def CORE_RUN_F_ACT : Fld := ⟨28, 1⟩
def CORE_RUN_B_ACT : Fld := ⟨29, 1⟩
def CORE_RUN_U_ACT : Fld := ⟨30, 1⟩
def CORE_FILLRUN_CNT : Fld := ⟨0, 32⟩
def CORE_FILLSKIP_CNT : Fld := ⟨0, 32⟩
def CORE_NOOPST_CNT : Fld := ⟨0, 32⟩
def CORE_ZEROOP_CNT : Fld := ⟨0, 32⟩
def CORE_TACKDROP_CNT : Fld := ⟨0, 32⟩
def CORE_DCONFL_CNT : Fld := ⟨0, 32⟩
def CORE_SPCL_PC : Fld := ⟨0, 32⟩
def CORE_SPCH_PC : Fld := ⟨0, 16⟩
def CORE_SSTAT_STATE : Fld := ⟨0, 3⟩
def CORE_SSTAT_TACK : Fld := ⟨3, 6⟩
def CORE_SSTAT_CF : Fld := ⟨16, 8⟩
def CORE_STWAIT_CNT : Fld := ⟨0, 32⟩
def CORE_SISSUED_CNT : Fld := ⟨0, 32⟩
def CORE_TACK_COUNT : Fld := ⟨0, 16⟩
def CORE_TACK_REMOTE : Fld := ⟨16, 1⟩
def CORE_TACK_WAITING : Fld := ⟨17, 1⟩
def CORE_OVFSTAT_VALID : Fld := ⟨0, 1⟩
def CORE_OVFSTAT_STREAM : Fld := ⟨1, 2⟩
def CORE_OVFSTAT_OPND : Fld := ⟨4, 3⟩
def CORE_OVFSTAT_DIM : Fld := ⟨7, 3⟩
def CORE_OVFSTAT_OPC : Fld := ⟨16, 10⟩
def CORE_OVFDESC_DESC : Fld := ⟨0, 9⟩
def CORE_OVFEXT_VALUE : Fld := ⟨0, 32⟩
def CORE_OVFCAP_VALUE : Fld := ⟨0, 32⟩
def CORE_OVFPOS_VALUE : Fld := ⟨0, 32⟩
def CORE_OVFPCL_PC : Fld := ⟨0, 32⟩
def CORE_OVFPCH_PC : Fld := ⟨0, 16⟩
def CORE_SLABS_CNT : Fld := ⟨0, 32⟩
def CORE_SLOTEMPTY_CNT : Fld := ⟨0, 32⟩
def CORE_IDXINV_CNT : Fld := ⟨0, 32⟩
def CORE_BOBWAIT_CNT : Fld := ⟨0, 32⟩
def CORE_ARRPOS_POS : Fld := ⟨0, 10⟩
def CORE_ARRPOS_PERIOD : Fld := ⟨11, 11⟩
def CORE_ARRPOS_CLASS : Fld := ⟨22, 3⟩
def CORE_RCX_VALID : Fld := ⟨0, 1⟩
def CORE_RCX_KIND : Fld := ⟨1, 2⟩
def CORE_RCX_MB : Fld := ⟨3, 12⟩
def CORE_RCX_CONFIG : Fld := ⟨15, 8⟩
def CORE_RCX_PRESS : Fld := ⟨23, 8⟩
def CORE_RCX_SKIP : Fld := ⟨31, 1⟩
def CORE_ARRHOLD_CNT : Fld := ⟨0, 32⟩
def CORE_ARRIDLE_CNT : Fld := ⟨0, 32⟩
def CORE_CLASSCHG_CNT : Fld := ⟨0, 32⟩
def CORE_TOKDROP_CNT : Fld := ⟨0, 32⟩
def CORE_PSTALL_CNT : Fld := ⟨0, 32⟩
def CORE_CSTALL_CNT : Fld := ⟨0, 32⟩
def CORE_EPFLUSH_CNT : Fld := ⟨0, 32⟩
def CORE_DARN_BASE : Fld := ⟨0, 9⟩
def CORE_DARN_QSZ : Fld := ⟨9, 4⟩
def CORE_DARNSPILL_CNT : Fld := ⟨0, 32⟩
def CORE_DARNFULL_CNT : Fld := ⟨0, 32⟩
def CORE_QSTAT_FIFO : Fld := ⟨0, 7⟩
def CORE_QSTAT_RING : Fld := ⟨7, 9⟩
def CORE_QSTAT_SPILL : Fld := ⟨16, 1⟩
def CORE_QSTAT_FULL : Fld := ⟨17, 1⟩
def CORE_QSTAT_PSITE : Fld := ⟨18, 7⟩
def CORE_QSTAT_PVALID : Fld := ⟨25, 1⟩
def SPAT_DLCFG_QWIN : Fld := ⟨0, 16⟩
def SPAT_DLCFG_FATAL : Fld := ⟨16, 16⟩
def SPAT_DRAINTO_US : Fld := ⟨0, 16⟩
def SPAT_DLSTAT_VALID : Fld := ⟨0, 1⟩
def SPAT_DLSTAT_CTX : Fld := ⟨1, 4⟩
def SPAT_DLSTAT_SITE : Fld := ⟨5, 7⟩
def SPAT_DLSTAT_WAIT : Fld := ⟨12, 3⟩
def SPAT_DLSTAT_QUEUE : Fld := ⟨15, 3⟩
def SPAT_DLSPILL_CNT : Fld := ⟨0, 32⟩
def SPAT_DLFAULT_CNT : Fld := ⟨0, 32⟩
def CORE_CVTOVF_CNT : Fld := ⟨0, 32⟩
def CORE_CVTUFL_CNT : Fld := ⟨0, 32⟩
def CORE_CVTNAN_CNT : Fld := ⟨0, 32⟩
def CORE_PSAMAX_AMAX : Fld := ⟨0, 32⟩
def CORE_PSNONFIN_CNT : Fld := ⟨0, 32⟩
def NUM_CTRL_SAT8 : Fld := ⟨0, 1⟩
def NUM_CTRL_HEAD_MX : Fld := ⟨1, 2⟩
def NUM_CTRL_HEAD_T : Fld := ⟨3, 2⟩
def NUM_SRSEEDL_SEED : Fld := ⟨0, 32⟩
def NUM_SRSEEDH_SEED : Fld := ⟨0, 32⟩
def NUM_WCTRL_MODE : Fld := ⟨0, 2⟩
def NUM_WCTRL_CTX : Fld := ⟨2, 4⟩
def NUM_WCTRL_RATE : Fld := ⟨6, 4⟩
def NUM_WCTRL_AFAULT : Fld := ⟨10, 1⟩
def NUM_WCTRL_THRESH : Fld := ⟨16, 16⟩
def NUM_ACHECK_CNT : Fld := ⟨0, 32⟩
def NUM_ADIS_CNT : Fld := ⟨0, 32⟩
def NUM_ASKIP_CNT : Fld := ⟨0, 32⟩
def NUM_AMAX_D : Fld := ⟨0, 32⟩
def NUM_AREC_VALID : Fld := ⟨0, 1⟩
def NUM_AREC_SITE : Fld := ⟨1, 7⟩
def NUM_AREC_STREAM : Fld := ⟨8, 2⟩
def NUM_AREC_OPC : Fld := ⟨10, 10⟩
def NUM_ARECD_D : Fld := ⟨0, 32⟩
def NUM_WPRESS_EPOCH : Fld := ⟨0, 32⟩
def NUM_WSLOT_EN : Fld := ⟨0, 1⟩
def NUM_WSLOT_AUTOCLR : Fld := ⟨1, 1⟩
def NUM_WSLOT_SITE : Fld := ⟨2, 7⟩
def NUM_WSLOT_DESC : Fld := ⟨9, 9⟩
def NUM_WSLOT_BASE : Fld := ⟨18, 8⟩
def NUM_HIST_CNT : Fld := ⟨0, 32⟩
def NUM_PHIST_CNT : Fld := ⟨0, 32⟩
def CORE_BOBCORR_CNT : Fld := ⟨0, 32⟩
def CORE_BOBWIN_CNT : Fld := ⟨0, 32⟩
def CORE_ACCINF_CNT : Fld := ⟨0, 32⟩
def CORE_TOPKNAN_CNT : Fld := ⟨0, 32⟩
def CORE_TOPKSHORT_CNT : Fld := ⟨0, 32⟩
def CORE_ROUTEASGN_CNT : Fld := ⟨0, 32⟩
def CORE_ROUTEOVF_CNT : Fld := ⟨0, 32⟩
def CORE_ROUTERES_CNT : Fld := ⟨0, 32⟩
def CORE_SPCONF_CNT : Fld := ⟨0, 32⟩
def CORE_SPPAR_CNT : Fld := ⟨0, 32⟩
def CORE_SPRERUN_CNT : Fld := ⟨0, 32⟩
def CORE_SPPADDR_VALID : Fld := ⟨0, 1⟩
def CORE_SPPADDR_SOURCE : Fld := ⟨1, 2⟩
def CORE_SPPADDR_WORD : Fld := ⟨3, 19⟩
def CORE_SPPADDR_ARMED : Fld := ⟨22, 1⟩
def CORE_SPRET_MASK : Fld := ⟨0, 16⟩
def CORE_SPRET_EFF : Fld := ⟨16, 16⟩
def CORE_PILOT_DEPTH : Fld := ⟨0, 5⟩
def CORE_DTLATE_CNT : Fld := ⟨0, 32⟩
def CORE_FUSED_CNT : Fld := ⟨0, 32⟩
def CORE_FUSEMISS_CNT : Fld := ⟨0, 32⟩
def CORE_BSWAPS_CNT : Fld := ⟨0, 32⟩
def CORE_HALF_CFG_VALID : Fld := ⟨0, 1⟩
def CORE_HALF_CFG_INIT : Fld := ⟨1, 1⟩
def CORE_HALF_CFG_SIDE : Fld := ⟨2, 1⟩
def CORE_HALF_CFG_DF : Fld := ⟨4, 9⟩
def CORE_HALF_CFG_DD : Fld := ⟨13, 9⟩
def CORE_HALF_BASEL_ADDR : Fld := ⟨6, 26⟩
def CORE_HALF_BASEH_ADDR : Fld := ⟨0, 16⟩
def CORE_HALF_SPAN_SPAN : Fld := ⟨0, 32⟩
def TIER_CTRL_SCRUB_EN : Fld := ⟨0, 1⟩
def TIER_CTRL_SCRUB_MS : Fld := ⟨1, 16⟩
def TIER_CORR_CNT : Fld := ⟨0, 32⟩
def TIER_UCSTAT_VALID : Fld := ⟨0, 1⟩
def TIER_UCSTAT_SLICE : Fld := ⟨1, 7⟩
def TIER_UCSTAT_SOURCE : Fld := ⟨8, 2⟩
def TIER_UCADDR_WORD : Fld := ⟨0, 20⟩
def TIER_UCCNT_CNT : Fld := ⟨0, 32⟩
def TIER_SCRUBS_CNT : Fld := ⟨0, 32⟩
def MEMC_STATUS_READY : Fld := ⟨0, 1⟩
def MEMC_STATUS_SREF : Fld := ⟨1, 1⟩
def MEMC_STATUS_TRAIN_FAIL : Fld := ⟨2, 1⟩
def MEMC_STATUS_RATE : Fld := ⟨3, 3⟩
def MEMC_CTRL_SCRUB_EN : Fld := ⟨0, 1⟩
def MEMC_CTRL_SCRUB_H : Fld := ⟨1, 8⟩
def MEMC_CORR_CNT : Fld := ⟨0, 32⟩
def MEMC_LECC_CNT : Fld := ⟨0, 32⟩
def MEMC_UCSTAT_VALID : Fld := ⟨0, 1⟩
def MEMC_UCSTAT_SOURCE : Fld := ⟨1, 2⟩
def MEMC_UCADDRL_ADDR : Fld := ⟨6, 26⟩
def MEMC_UCADDRH_ADDR : Fld := ⟨0, 16⟩
def MEMC_UCCNT_CNT : Fld := ⟨0, 32⟩
def MEMC_RMW_CNT : Fld := ⟨0, 32⟩
def KT5_CTRL_EN : Fld := ⟨0, 1⟩
def KT5_CTRL_FLUSH : Fld := ⟨1, 1⟩
def KT5_CTRL_BUSY : Fld := ⟨2, 1⟩
def KT5_CTRL_HEAT : Fld := ⟨4, 4⟩
def KT5_CTRL_TMB : Fld := ⟨8, 6⟩
def KT5_MAP_LBASE : Fld := ⟨0, 8⟩
def KT5_MAP_SIZE : Fld := ⟨8, 8⟩
def KT5_HITS_CNT : Fld := ⟨0, 32⟩
def KT5_MISSES_CNT : Fld := ⟨0, 32⟩
def KT5_MIGR_CNT : Fld := ⟨0, 32⟩
def KT5_EVICT_CNT : Fld := ⟨0, 32⟩
def KT5_WAIT_CNT : Fld := ⟨0, 32⟩
def FLASH_STATUS_READY : Fld := ⟨0, 1⟩
def FLASH_STATUS_RO : Fld := ⟨1, 1⟩
def FLASH_STATUS_FAILED : Fld := ⟨2, 1⟩
def FLASH_STATUS_MAP_GEN : Fld := ⟨3, 1⟩
def FLASH_STATUS_SWAP_BUSY : Fld := ⟨4, 1⟩
def FLASH_STATUS_DIRTY : Fld := ⟨5, 1⟩
def FLASH_STATUS_BUS_UP : Fld := ⟨6, 8⟩
def FLASH_CTRL_FLUSH : Fld := ⟨0, 1⟩
def FLASH_CTRL_SWAP : Fld := ⟨1, 1⟩
def FLASH_CTRL_SWAP_MS : Fld := ⟨2, 10⟩
def FLASH_CTRL_WL_SPREAD : Fld := ⟨12, 8⟩
def FLASH_RDTHR_READS : Fld := ⟨0, 32⟩
def FLASH_HOSTWL_CNT : Fld := ⟨0, 32⟩
def FLASH_HOSTWH_CNT : Fld := ⟨0, 32⟩
def FLASH_NANDWL_CNT : Fld := ⟨0, 32⟩
def FLASH_NANDWH_CNT : Fld := ⟨0, 32⟩
def FLASH_ERASE_MAX : Fld := ⟨0, 16⟩
def FLASH_ERASE_MEAN : Fld := ⟨16, 16⟩
def FLASH_SPARE_CNT : Fld := ⟨0, 32⟩
def FLASH_GROWN_CNT : Fld := ⟨0, 32⟩
def FLASH_RELOC_CNT : Fld := ⟨0, 32⟩
def FLASH_SWAPS_CNT : Fld := ⟨0, 32⟩
def FLASH_MAPSTALL_CNT : Fld := ⟨0, 32⟩
def FLASH_UCSTAT_VALID : Fld := ⟨0, 1⟩
def FLASH_UCSTAT_SOURCE : Fld := ⟨1, 2⟩
def FLASH_UCUNIT_UNIT : Fld := ⟨0, 28⟩
def FLASH_UCCNT_CNT : Fld := ⟨0, 32⟩
def FLASH_DROP_CNT : Fld := ⟨0, 32⟩
def CORE_NORMACCL_VALUE : Fld := ⟨0, 32⟩
def CORE_NORMACCH_VALUE : Fld := ⟨0, 32⟩
def CORE_CLIP_VALUE : Fld := ⟨0, 32⟩
def CORE_FROZEN_SKIPS_CNT : Fld := ⟨0, 32⟩
def CORE_PRECSING_CNT : Fld := ⟨0, 32⟩
def CORE_PRECDIAG_CNT : Fld := ⟨0, 32⟩
def CORE_EMBROWS_CNT : Fld := ⟨0, 32⟩
def CORE_JBASEL_ADDR : Fld := ⟨6, 26⟩
def CORE_JBASEH_ADDR : Fld := ⟨0, 16⟩
def CORE_JSIZE_SIZE : Fld := ⟨0, 20⟩
def CORE_JFILL_FILL : Fld := ⟨0, 26⟩
def CORE_SNAPS_CNT : Fld := ⟨0, 32⟩
def UPD_CTRL_NFMODE : Fld := ⟨0, 1⟩
def UPD_CTRL_PRESS_US : Fld := ⟨16, 16⟩
def UPD_NFSKIP_CNT : Fld := ⟨0, 32⟩
def UPD_PRESSES_CNT : Fld := ⟨0, 32⟩
def UPD_PMAXLAT_US : Fld := ⟨0, 16⟩
def UPD_PRESS_MULTI : Fld := ⟨0, 1⟩
def UPD_PRESS_PHASE : Fld := ⟨1, 2⟩
def UPD_NORM_N : Fld := ⟨0, 32⟩
def YL_COORD_X : Fld := ⟨0, 2⟩
def YL_COORD_Y : Fld := ⟨2, 5⟩
def YL_COORD_Z : Fld := ⟨7, 6⟩
def YL_COORD_DY : Fld := ⟨13, 6⟩
def YL_COORD_DZ : Fld := ⟨19, 7⟩
def YL_SYSID_SYSID : Fld := ⟨0, 16⟩
def YL_RCTRL_SWAP : Fld := ⟨0, 1⟩
def YL_RCTRL_GEN : Fld := ⟨1, 1⟩
def YL_RCTRL_FILL : Fld := ⟨2, 1⟩
def YL_RCTRL_FILL_BUSY : Fld := ⟨3, 1⟩
def YL_RCTRL_WAIT_US : Fld := ⟨4, 12⟩
def YL_RCTRL_STUCK_US : Fld := ⟨16, 16⟩
def YL_RTADDR_INDEX : Fld := ⟨0, 13⟩
def YL_RTADDR_READ_ACTIVE : Fld := ⟨13, 1⟩
def YL_RTDATA_ENTRY : Fld := ⟨0, 4⟩
def YL_WAKE_PORT : Fld := ⟨0, 3⟩
def YL_RWTO_US : Fld := ⟨0, 16⟩
def YL_RTSTALL_CNT : Fld := ⟨0, 32⟩
def YL_NOROUTE_CNT : Fld := ⟨0, 32⟩
def YL_SWAPS_CNT : Fld := ⟨0, 32⟩
def YL_WCLOSEDRX_CNT : Fld := ⟨0, 32⟩
def YL_NAKRX_CNT : Fld := ⟨0, 32⟩
def YL_ECRC_CNT : Fld := ⟨0, 32⟩
def YL_RWTIMEOUT_CNT : Fld := ⟨0, 32⟩
def YLP_CTRL_EN : Fld := ⟨0, 1⟩
def YLP_CTRL_RESTART : Fld := ⟨1, 1⟩
def YLP_CTRL_RETRAIN_US : Fld := ⟨2, 10⟩
def YLP_STAT_STATE : Fld := ⟨0, 4⟩
def YLP_STAT_NARROW : Fld := ⟨4, 1⟩
def YLP_STAT_LANEREV : Fld := ⟨5, 1⟩
def YLP_STAT_POLINV : Fld := ⟨6, 8⟩
def YLP_PARTNER_COORD : Fld := ⟨0, 13⟩
def YLP_PARTNER_PORT : Fld := ⟨13, 3⟩
def YLP_PARTNER_VALID : Fld := ⟨16, 1⟩
def YLP_FECCW_CNT : Fld := ⟨0, 32⟩
def YLP_FECUNC_CNT : Fld := ⟨0, 32⟩
def YLP_REPLAY_CNT : Fld := ⟨0, 32⟩
def YLP_REPCW_CNT : Fld := ⟨0, 32⟩
def YLP_RETRAIN_CNT : Fld := ⟨0, 32⟩
def YLP_CSTALL_CNT : Fld := ⟨0, 32⟩
def YLP_BAD_CNT : Fld := ⟨0, 32⟩
def YLP_PGAP_US : Fld := ⟨0, 16⟩
def YLP_LSYM_CNT : Fld := ⟨0, 32⟩
def YLW_CTRL_OPEN : Fld := ⟨0, 1⟩
def YLW_CTRL_CLOSING : Fld := ⟨1, 1⟩
def YLW_CTRL_ERR : Fld := ⟨2, 1⟩
def YLW_CTRL_ACCEPT : Fld := ⟨3, 1⟩
def YLW_CTRL_CTX : Fld := ⟨4, 4⟩
def YLW_CTRL_NOTIFY : Fld := ⟨8, 1⟩
def YLW_CTRL_SITE : Fld := ⟨9, 7⟩
def YLW_CTRL_TACK : Fld := ⟨16, 6⟩
def YLW_BASEL_ADDR : Fld := ⟨6, 26⟩
def YLW_BASEH_ADDR : Fld := ⟨0, 16⟩
def YLW_SIZE_SIZE : Fld := ⟨0, 32⟩
def YLW_SRC_COORD : Fld := ⟨0, 13⟩
def YLW_WRITES_CNT : Fld := ⟨0, 32⟩
def YLW_WDROP_CNT : Fld := ⟨0, 32⟩
def TAT_CTRL_COLL_US : Fld := ⟨0, 16⟩
def TAT_STATUS_INFLIGHT : Fld := ⟨0, 7⟩
def TAT_STATUS_REDUCING : Fld := ⟨7, 3⟩
def TAT_STATUS_STOREFULL : Fld := ⟨10, 1⟩
def TAT_BUCKETS_CNT : Fld := ⟨0, 32⟩
def TAT_RESTARTS_CNT : Fld := ⟨0, 32⟩
def TAT_BF16_CNT : Fld := ⟨0, 32⟩
def TAT_STALE_CNT : Fld := ⟨0, 32⟩
def TAT_EPDROP_CNT : Fld := ⟨0, 32⟩
def TAT_SLOTWAIT_CNT : Fld := ⟨0, 32⟩
def TAT_REUSEWAIT_CNT : Fld := ⟨0, 32⟩
def TAT_ABANDON_CNT : Fld := ⟨0, 32⟩
def TAT_PERMWAIT_CNT : Fld := ⟨0, 32⟩
def TAT_BTBASEL_ADDR : Fld := ⟨6, 26⟩
def TAT_BTBASEH_ADDR : Fld := ⟨0, 16⟩
def TAT_BTCFG_NBKT : Fld := ⟨0, 13⟩
def TAT_BTCFG_LGEN : Fld := ⟨16, 4⟩
def TAT_JOB_JOB : Fld := ⟨0, 16⟩
def TAT_GRP_MODE : Fld := ⟨0, 2⟩
def TAT_GRP_REPL : Fld := ⟨2, 1⟩
def TAT_GRP_BASE : Fld := ⟨3, 6⟩
def TAT_GRP_LEN : Fld := ⟨9, 7⟩
def TAT_GRP_EMODE : Fld := ⟨16, 2⟩
def TAT_GRP_EBASE : Fld := ⟨18, 6⟩
def TAT_GRP_ELEN : Fld := ⟨24, 7⟩
def TAT_CDIG_DIG : Fld := ⟨0, 32⟩
def TAT_PDIG_DIG : Fld := ⟨0, 32⟩
def HIF_STATUS_WIN_UP : Fld := ⟨0, 1⟩
def HIF_STATUS_INPROG : Fld := ⟨1, 7⟩
def HIF_APBASE_BASE : Fld := ⟨0, 18⟩
def HIF_EVPEND_PEND : Fld := ⟨0, 16⟩
def HIF_DBERR_CNT : Fld := ⟨0, 32⟩
def HIF_APHOLE_CNT : Fld := ⟨0, 32⟩
def HIF_WINTO_CNT : Fld := ⟨0, 32⟩
def HIF_CQWAIT_CNT : Fld := ⟨0, 32⟩
def HIF_CMDS_CNT : Fld := ⟨0, 32⟩
def HIF_SQ_BASEL_ADDR : Fld := ⟨12, 20⟩
def HIF_SQ_BASEH_ADDR : Fld := ⟨0, 32⟩
def HIF_SQ_CFG_EN : Fld := ⟨0, 1⟩
def HIF_SQ_CFG_ERR : Fld := ⟨1, 1⟩
def HIF_SQ_CFG_LOG2SIZE : Fld := ⟨2, 5⟩
def HIF_SQ_CFG_CTX : Fld := ⟨7, 4⟩
def HIF_SQ_CFG_CQ : Fld := ⟨11, 6⟩
def HIF_SQ_CFG_PRIO : Fld := ⟨17, 2⟩
def HIF_SQ_STAT_HEAD : Fld := ⟨0, 16⟩
def HIF_SQ_STAT_IDLE : Fld := ⟨16, 1⟩
def HIF_CQ_BASEL_ADDR : Fld := ⟨12, 20⟩
def HIF_CQ_BASEH_ADDR : Fld := ⟨0, 32⟩
def HIF_CQ_CFG_EN : Fld := ⟨0, 1⟩
def HIF_CQ_CFG_ERR : Fld := ⟨1, 1⟩
def HIF_CQ_CFG_LOG2SIZE : Fld := ⟨2, 5⟩
def HIF_CQ_CFG_IEN : Fld := ⟨7, 1⟩
def HIF_CQ_CFG_VEC : Fld := ⟨8, 11⟩
def HIF_CQ_COAL_THRESH : Fld := ⟨0, 8⟩
def HIF_CQ_COAL_TIME_US : Fld := ⟨8, 16⟩
def HIF_CQ_STAT_TAIL : Fld := ⟨0, 16⟩
def HIF_CQ_STAT_PHASE : Fld := ⟨16, 1⟩
def HIF_EV_VEC : Fld := ⟨0, 11⟩
def HIF_EV_EN : Fld := ⟨31, 1⟩
def MBX_CTRL_LOCK : Fld := ⟨0, 1⟩
def MBX_CTRL_TMO_US : Fld := ⟨1, 16⟩
def MBX_BADW_CNT : Fld := ⟨0, 32⟩
def MBX_BIND_SENDER : Fld := ⟨0, 8⟩
def MBX_BIND_RECEIVER : Fld := ⟨8, 8⟩
def MBX_BIND_VALID : Fld := ⟨16, 1⟩
def MBX_DATA_WORD : Fld := ⟨0, 32⟩
def MBX_STAT_FULL : Fld := ⟨0, 1⟩
def MBX_STAT_TIMEOUT : Fld := ⟨1, 1⟩
def MBX_STAT_OVR : Fld := ⟨2, 1⟩
def DWG_STATUS_PHASE : Fld := ⟨0, 4⟩
def DWG_STATUS_CODE : Fld := ⟨4, 5⟩
def DWG_STATUS_FALLBACK : Fld := ⟨9, 1⟩
def DWG_STATUS_SLOT : Fld := ⟨10, 1⟩
def DWG_STATUS_SLOWIO : Fld := ⟨11, 1⟩
def DWG_STATUS_OTPGEN : Fld := ⟨12, 2⟩
def DWG_STATUS_OP : Fld := ⟨14, 2⟩
def DWG_STATUS_OPSTAT : Fld := ⟨16, 2⟩
def DWG_STATUS_DEFERRED : Fld := ⟨18, 1⟩
def DWG_ROMVER_BUILD : Fld := ⟨0, 16⟩
def DWG_ROMVER_MINOR : Fld := ⟨16, 8⟩
def DWG_ROMVER_MAJOR : Fld := ⟨24, 8⟩
def DWG_UCVER_BUILD : Fld := ⟨0, 16⟩
def DWG_UCVER_MINOR : Fld := ⟨16, 8⟩
def DWG_UCVER_MAJOR : Fld := ⟨24, 8⟩
def DWG_SVN_SVN : Fld := ⟨0, 16⟩
def DWG_SVN_MIN : Fld := ⟨16, 16⟩
def DWG_ADDRL_ADDR : Fld := ⟨6, 26⟩
def DWG_ADDRH_ADDR : Fld := ⟨0, 16⟩
def DWG_LEN_BYTES : Fld := ⟨0, 26⟩
def DWG_NONCE_NONCE : Fld := ⟨0, 32⟩
def DWG_IMGDIG_DATA : Fld := ⟨0, 32⟩
def DWG_DEVPUB_DATA : Fld := ⟨0, 32⟩
def DWG_DEVCERT_DATA : Fld := ⟨0, 32⟩
def SEQ_STATE_RUN : Fld := ⟨0, 4⟩
def SEQ_STATE_BANK : Fld := ⟨4, 4⟩
def SEQ_MENDS_CNT : Fld := ⟨0, 32⟩
def SEQ_DEFER_CNT : Fld := ⟨0, 32⟩
def SEQ_PARKMAX_US : Fld := ⟨0, 16⟩
def FLT_STATUS_PHASE : Fld := ⟨0, 2⟩
def FLT_STATUS_PENDING : Fld := ⟨2, 1⟩
def FLT_STATUS_OVF : Fld := ⟨3, 1⟩
def FLT_STATUS_NLOST : Fld := ⟨4, 10⟩
def FLT_STATUS_OSEQ : Fld := ⟨16, 8⟩
def FLT_CTRL_QUIET_US : Fld := ⟨0, 12⟩
def FLT_FIRST_VALID : Fld := ⟨0, 1⟩
def FLT_FIRST_CODE : Fld := ⟨1, 8⟩
def FLT_FIRST_NODE : Fld := ⟨9, 7⟩
def FLT_FIRST_CTX : Fld := ⟨16, 4⟩
def FLT_FIRST_CTXV : Fld := ⟨20, 1⟩
def FLT_LOSS_CTX : Fld := ⟨0, 16⟩
def FLT_PMAPL_ADDR : Fld := ⟨6, 26⟩
def FLT_PMAPH_ADDR : Fld := ⟨0, 16⟩
def FLT_PMAPN_N : Fld := ⟨0, 17⟩
def FLT_LOGSEQ_SEQ : Fld := ⟨0, 32⟩
def FLT_LOGACK_SEQ : Fld := ⟨0, 32⟩
def FLT_LOGCTRL_THRESH : Fld := ⟨0, 13⟩
def FLT_LOGLOST_CNT : Fld := ⟨0, 32⟩
def FLT_RINSES_CNT : Fld := ⟨0, 32⟩
def FLT_ORIG_CNT : Fld := ⟨0, 32⟩
def FLT_LATEVIEW_CNT : Fld := ⟨0, 32⟩
def FLT_AGREEMAX_US : Fld := ⟨0, 16⟩
def FLT_CORECORR_CNT : Fld := ⟨0, 32⟩
def FLT_LOG_DATA : Fld := ⟨0, 32⟩
def PWR_STATUS_STATE : Fld := ⟨0, 3⟩
def PWR_STATUS_GATED_W : Fld := ⟨3, 1⟩
def PWR_STATUS_GATED_E : Fld := ⟨4, 1⟩
def PWR_STATUS_BUSY : Fld := ⟨5, 1⟩
def PWR_STATUS_EMERG : Fld := ⟨6, 1⟩
def PWR_STATUS_PIN : Fld := ⟨7, 1⟩
def PWR_CTRL_AUTOC1 : Fld := ⟨0, 1⟩
def PWR_CTRL_C1IDLE : Fld := ⟨1, 15⟩
def PWR_REQ_TARGET : Fld := ⟨0, 3⟩
def PWR_REQ_HALVES : Fld := ⟨3, 2⟩
def PWR_WAKECFG_PINEN : Fld := ⟨0, 1⟩
def PWR_WAKECFG_POL : Fld := ⟨1, 1⟩
def PWR_WAKECFG_LINKEN : Fld := ⟨2, 1⟩
def PWR_DVFS_DIV : Fld := ⟨0, 4⟩
def PWR_DVFS_VSEL : Fld := ⟨4, 8⟩
def PWR_DVFS_SETDIV : Fld := ⟨12, 1⟩
def PWR_DVFS_SETV : Fld := ⟨13, 1⟩
def PWR_HALF_DIV : Fld := ⟨0, 4⟩
def PWR_HALF_VSEL : Fld := ⟨4, 8⟩
def PWR_HALF_CAP : Fld := ⟨12, 4⟩
def PWR_HALF_TEMP : Fld := ⟨16, 12⟩
def PWR_HALF_TGT : Fld := ⟨28, 4⟩
def PWR_THCFG_WARN : Fld := ⟨0, 8⟩
def PWR_THCFG_THROT : Fld := ⟨8, 8⟩
def PWR_THCFG_TRIP : Fld := ⟨16, 8⟩
def PWR_THCFG_HYST : Fld := ⟨24, 4⟩
def PWR_REFREC_VALID : Fld := ⟨0, 1⟩
def PWR_REFREC_REFUSER : Fld := ⟨1, 8⟩
def PWR_REFREC_REQUESTER : Fld := ⟨9, 8⟩
def PWR_REFREC_REASON : Fld := ⟨17, 4⟩
def PWR_REFREC_TARGET : Fld := ⟨21, 3⟩
def PWR_REFREC_KIND : Fld := ⟨24, 1⟩
def PWR_ABREC_VALID : Fld := ⟨0, 1⟩
def PWR_ABREC_SOURCE : Fld := ⟨1, 2⟩
def PWR_ABREC_TARGET : Fld := ⟨3, 3⟩
def PWR_ABREC_AP : Fld := ⟨6, 3⟩
def PWR_ABREC_PORT : Fld := ⟨9, 3⟩
def PWR_ENTRIES_CNT : Fld := ⟨0, 32⟩
def PWR_REFUSED_CNT : Fld := ⟨0, 32⟩
def PWR_ABORTED_CNT : Fld := ⟨0, 32⟩
def PWR_ORDERREF_CNT : Fld := ⟨0, 32⟩
def PWR_DEMAND_CNT : Fld := ⟨0, 32⟩
def PWR_DEMMAX_US : Fld := ⟨0, 16⟩
def PWR_THROTTLES_CNT : Fld := ⟨0, 32⟩
def PWR_THRMS_CNT : Fld := ⟨0, 32⟩
def PWR_EMERGS_CNT : Fld := ⟨0, 32⟩
def PWR_TIME_CNT : Fld := ⟨0, 32⟩

end Fl

/-- Registers of group mod. -/
def regTable_mod : List RegRow := [
  ⟨"MOD_ID", 0x0, [], [⟨0, 8, .ro, 0x1⟩, ⟨8, 2, .ro, 0x0⟩, ⟨16, 16, .ro, 0x7C44⟩]⟩,
  ⟨"MOD_STATUS", 0x4, [], [⟨0, 4, .ro, 0x0⟩, ⟨4, 4, .ro, 0x0⟩, ⟨8, 4, .w1c, 0x0⟩, ⟨12, 1, .ro, 0x0⟩]⟩,
  ⟨"MOD_CHRST", 0x8, [], [⟨0, 4, .rw, 0x0⟩]⟩,
  ⟨"MOD_ARB", 0xC, [], [⟨0, 4, .rw, 0x1⟩, ⟨4, 4, .rw, 0x1⟩, ⟨8, 4, .rw, 0x1⟩, ⟨12, 4, .rw, 0x1⟩]⟩,
  ⟨"MOD_DROP", 0x10, [(4, 0x4)], [⟨0, 32, .rw, 0x0⟩]⟩,
  ⟨"MOD_SERIAL", 0x20, [(4, 0x4)], [⟨0, 32, .ro, 0x0⟩]⟩]

/-- Registers of group f01. -/
def regTable_f01 : List RegRow := [
  ⟨"CHAN_ID", 0x1000, [], [⟨0, 2, .ro, 0x0⟩, ⟨4, 2, .ro, 0x0⟩, ⟨8, 7, .ro, 0x0⟩]⟩,
  ⟨"CHAN_SITEMAP", 0x1004, [(4, 0x4)], [⟨0, 32, .ro, 0x0⟩]⟩]

/-- Registers of group f02. -/
def regTable_f02 : List RegRow := [
  ⟨"MESH_CTRL", 0x2000, [], [⟨0, 8, .rw, 0x40⟩, ⟨8, 1, .wo, 0x0⟩, ⟨9, 1, .ro, 0x0⟩, ⟨10, 1, .ro, 0x0⟩, ⟨11, 1, .w1c, 0x0⟩]⟩,
  ⟨"MESH_FENCE", 0x2004, [(4, 0x4)], [⟨0, 32, .w1s, 0x0⟩]⟩,
  ⟨"MESH_RTADDR", 0x2014, [], [⟨0, 7, .rw, 0x0⟩, ⟨8, 7, .rw, 0x0⟩, ⟨15, 1, .rw, 0x0⟩]⟩,
  ⟨"MESH_RTDATA", 0x2018, [], [⟨0, 3, .rw, 0x0⟩]⟩,
  ⟨"MESH_MERGED", 0x201C, [], [⟨0, 32, .rw, 0x0⟩]⟩,
  ⟨"MESH_MERGEFULL", 0x2020, [], [⟨0, 32, .rw, 0x0⟩]⟩,
  ⟨"MESH_FENCEDROP", 0x2024, [], [⟨0, 32, .rw, 0x0⟩]⟩,
  ⟨"MESH_RTSTALL", 0x2028, [], [⟨0, 32, .rw, 0x0⟩]⟩,
  ⟨"MESH_SWAPS", 0x202C, [], [⟨0, 32, .rw, 0x0⟩]⟩,
  ⟨"MESH_CORR", 0x2030, [], [⟨0, 24, .rw, 0x0⟩, ⟨24, 8, .rw, 0x0⟩]⟩,
  ⟨"SEAM_STATUS", 0x2100, [], [⟨0, 4, .ro, 0x2⟩, ⟨4, 4, .ro, 0x2⟩, ⟨8, 10, .ro, 0x3FF⟩]⟩,
  ⟨"SEAM_STALL", 0x2104, [], [⟨0, 32, .rw, 0x0⟩]⟩,
  ⟨"SEAM_STALLW", 0x2108, [], [⟨0, 32, .rw, 0x0⟩]⟩,
  ⟨"SEAM_STALLE", 0x210C, [], [⟨0, 32, .rw, 0x0⟩]⟩,
  ⟨"CNET_CORR", 0x2200, [], [⟨0, 24, .rw, 0x0⟩, ⟨24, 8, .rw, 0x0⟩]⟩,
  ⟨"CNET_MAXLAT", 0x2204, [], [⟨0, 16, .rw, 0x0⟩]⟩]

/-- Registers of group f03. -/
def regTable_f03 : List RegRow := [
  ⟨"CTX_STATE", 0x3000, [(16, 0x40)], [⟨0, 2, .ro, 0x0⟩, ⟨8, 12, .ro, 0x0⟩, ⟨20, 7, .ro, 0x0⟩]⟩,
  ⟨"CTX_EPOCH", 0x3004, [(16, 0x40)], [⟨0, 8, .ro, 0x0⟩]⟩,
  ⟨"CTX_PRESS", 0x3008, [(16, 0x40)], [⟨0, 32, .rw, 0x0⟩]⟩,
  ⟨"CTX_VERWAIT", 0x300C, [(16, 0x40)], [⟨0, 32, .rw, 0x0⟩]⟩,
  ⟨"CTX_CORE", 0x3010, [(16, 0x40), (4, 0x4)], [⟨0, 32, .ro, 0x0⟩]⟩,
  ⟨"CTX_DIGEST", 0x3020, [(16, 0x40), (8, 0x4)], [⟨0, 32, .ro, 0x0⟩]⟩]

/-- Registers of group coreLo. -/
def regTable_coreLo : List RegRow := [
  ⟨"CORE_OWNER", 0x0, [], [⟨0, 4, .ro, 0x0⟩, ⟨4, 1, .ro, 0x0⟩, ⟨8, 7, .ro, 0x0⟩, ⟨16, 7, .ro, 0x0⟩]⟩,
  ⟨"CORE_RUN", 0x4, [], [⟨0, 13, .ro, 0x0⟩, ⟨13, 2, .ro, 0x0⟩, ⟨16, 12, .ro, 0x0⟩, ⟨28, 1, .ro, 0x0⟩, ⟨29, 1, .ro, 0x0⟩, ⟨30, 1, .ro, 0x0⟩]⟩,
  ⟨"CORE_FILLRUN", 0x8, [], [⟨0, 32, .rw, 0x0⟩]⟩,
  ⟨"CORE_FILLSKIP", 0xC, [], [⟨0, 32, .rw, 0x0⟩]⟩,
  ⟨"CORE_NOOPST", 0x10, [], [⟨0, 32, .rw, 0x0⟩]⟩,
  ⟨"CORE_ZEROOP", 0x14, [], [⟨0, 32, .rw, 0x0⟩]⟩,
  ⟨"CORE_TACKDROP", 0x18, [], [⟨0, 32, .rw, 0x0⟩]⟩,
  ⟨"CORE_DCONFL", 0x1C, [], [⟨0, 32, .rw, 0x0⟩]⟩,
  ⟨"CORE_SPCL", 0x100, [(3, 0x20)], [⟨0, 32, .ro, 0x0⟩]⟩,
  ⟨"CORE_SPCH", 0x104, [(3, 0x20)], [⟨0, 16, .ro, 0x0⟩]⟩,
  ⟨"CORE_SSTAT", 0x108, [(3, 0x20)], [⟨0, 3, .ro, 0x0⟩, ⟨3, 6, .ro, 0x0⟩, ⟨16, 8, .ro, 0x0⟩]⟩,
  ⟨"CORE_STWAIT", 0x10C, [(3, 0x20)], [⟨0, 32, .rw, 0x0⟩]⟩,
  ⟨"CORE_SISSUED", 0x110, [(3, 0x20)], [⟨0, 32, .rw, 0x0⟩]⟩,
  ⟨"CORE_OVFSTAT", 0x200, [], [⟨0, 1, .w1c, 0x0⟩, ⟨1, 2, .ro, 0x0⟩, ⟨4, 3, .ro, 0x0⟩, ⟨7, 3, .ro, 0x0⟩, ⟨16, 10, .ro, 0x0⟩]⟩,
  ⟨"CORE_OVFDESC", 0x204, [], [⟨0, 9, .ro, 0x0⟩]⟩,
  ⟨"CORE_OVFEXT", 0x208, [], [⟨0, 32, .ro, 0x0⟩]⟩,
  ⟨"CORE_OVFCAP", 0x20C, [], [⟨0, 32, .ro, 0x0⟩]⟩,
  ⟨"CORE_OVFPOS", 0x210, [], [⟨0, 32, .ro, 0x0⟩]⟩,
  ⟨"CORE_OVFPCL", 0x214, [], [⟨0, 32, .ro, 0x0⟩]⟩,
  ⟨"CORE_OVFPCH", 0x218, [], [⟨0, 16, .ro, 0x0⟩]⟩,
  ⟨"CORE_SLABS", 0x220, [], [⟨0, 32, .rw, 0x0⟩]⟩,
  ⟨"CORE_SLOTEMPTY", 0x224, [], [⟨0, 32, .rw, 0x0⟩]⟩,
  ⟨"CORE_IDXINV", 0x228, [], [⟨0, 32, .rw, 0x0⟩]⟩,
  ⟨"CORE_BOBWAIT", 0x22C, [], [⟨0, 32, .rw, 0x0⟩]⟩,
  ⟨"CORE_ARRPOS", 0x300, [], [⟨0, 10, .ro, 0x0⟩, ⟨11, 11, .ro, 0x0⟩, ⟨22, 3, .ro, 0x0⟩]⟩,
  ⟨"CORE_RCX", 0x304, [(2, 0x4)], [⟨0, 1, .ro, 0x0⟩, ⟨1, 2, .ro, 0x0⟩, ⟨3, 12, .ro, 0x0⟩, ⟨15, 8, .ro, 0x0⟩, ⟨23, 8, .ro, 0x0⟩, ⟨31, 1, .ro, 0x0⟩]⟩,
  ⟨"CORE_ARRHOLD", 0x30C, [], [⟨0, 32, .rw, 0x0⟩]⟩,
  ⟨"CORE_ARRIDLE", 0x310, [], [⟨0, 32, .rw, 0x0⟩]⟩,
  ⟨"CORE_CLASSCHG", 0x314, [], [⟨0, 32, .rw, 0x0⟩]⟩,
  ⟨"CORE_TOKDROP", 0x318, [], [⟨0, 32, .rw, 0x0⟩]⟩,
  ⟨"CORE_PSTALL", 0x31C, [], [⟨0, 32, .rw, 0x0⟩]⟩,
  ⟨"CORE_CSTALL", 0x320, [], [⟨0, 32, .rw, 0x0⟩]⟩,
  ⟨"CORE_EPFLUSH", 0x324, [], [⟨0, 32, .rw, 0x0⟩]⟩,
  ⟨"CORE_DARN", 0x328, [], [⟨0, 9, .rw, 0x1C0⟩, ⟨9, 4, .rw, 0x8⟩]⟩,
  ⟨"CORE_DARNSPILL", 0x32C, [], [⟨0, 32, .rw, 0x0⟩]⟩,
  ⟨"CORE_DARNFULL", 0x330, [], [⟨0, 32, .rw, 0x0⟩]⟩,
  ⟨"CORE_QSTAT", 0x340, [(8, 0x4)], [⟨0, 7, .ro, 0x0⟩, ⟨7, 9, .ro, 0x0⟩, ⟨16, 1, .ro, 0x0⟩, ⟨17, 1, .ro, 0x0⟩, ⟨18, 7, .ro, 0x0⟩, ⟨25, 1, .ro, 0x0⟩]⟩,
  ⟨"CORE_TACK", 0x400, [(64, 0x4)], [⟨0, 16, .rw, 0x0⟩, ⟨16, 1, .ro, 0x0⟩, ⟨17, 1, .ro, 0x0⟩]⟩,
  ⟨"CORE_CVTOVF", 0x500, [], [⟨0, 32, .rw, 0x0⟩]⟩,
  ⟨"CORE_CVTUFL", 0x504, [], [⟨0, 32, .rw, 0x0⟩]⟩,
  ⟨"CORE_CVTNAN", 0x508, [], [⟨0, 32, .rw, 0x0⟩]⟩,
  ⟨"CORE_PSAMAX", 0x50C, [], [⟨0, 32, .ro, 0x0⟩]⟩,
  ⟨"CORE_PSNONFIN", 0x510, [], [⟨0, 32, .rw, 0x0⟩]⟩]

/-- Registers of group coreHi. -/
def regTable_coreHi : List RegRow := [
  ⟨"CORE_BOBCORR", 0x600, [], [⟨0, 32, .rw, 0x0⟩]⟩,
  ⟨"CORE_BOBWIN", 0x604, [], [⟨0, 32, .rw, 0x0⟩]⟩,
  ⟨"CORE_ACCINF", 0x608, [], [⟨0, 32, .rw, 0x0⟩]⟩,
  ⟨"CORE_TOPKNAN", 0x60C, [], [⟨0, 32, .rw, 0x0⟩]⟩,
  ⟨"CORE_TOPKSHORT", 0x610, [], [⟨0, 32, .rw, 0x0⟩]⟩,
  ⟨"CORE_ROUTEASGN", 0x614, [], [⟨0, 32, .rw, 0x0⟩]⟩,
  ⟨"CORE_ROUTEOVF", 0x618, [], [⟨0, 32, .rw, 0x0⟩]⟩,
  ⟨"CORE_ROUTERES", 0x61C, [], [⟨0, 32, .rw, 0x0⟩]⟩,
  ⟨"CORE_SPCONF", 0x700, [], [⟨0, 32, .rw, 0x0⟩]⟩,
  ⟨"CORE_SPPAR", 0x704, [], [⟨0, 32, .rw, 0x0⟩]⟩,
  ⟨"CORE_SPRERUN", 0x708, [], [⟨0, 32, .rw, 0x0⟩]⟩,
  ⟨"CORE_SPPADDR", 0x70C, [], [⟨0, 1, .w1c, 0x0⟩, ⟨1, 2, .ro, 0x0⟩, ⟨3, 19, .ro, 0x0⟩, ⟨22, 1, .ro, 0x0⟩]⟩,
  ⟨"CORE_SPRET", 0x710, [], [⟨0, 16, .rw, 0xFFFF⟩, ⟨16, 16, .ro, 0xFFFF⟩]⟩,
  ⟨"CORE_PILOT", 0x714, [], [⟨0, 5, .rw, 0x8⟩]⟩,
  ⟨"CORE_DTLATE", 0x718, [], [⟨0, 32, .rw, 0x0⟩]⟩,
  ⟨"CORE_FUSED", 0x71C, [], [⟨0, 32, .rw, 0x0⟩]⟩,
  ⟨"CORE_FUSEMISS", 0x720, [], [⟨0, 32, .rw, 0x0⟩]⟩,
  ⟨"CORE_BSWAPS", 0x724, [], [⟨0, 32, .rw, 0x0⟩]⟩,
  ⟨"CORE_HALF_CFG", 0x800, [(16, 0x10)], [⟨0, 1, .rw, 0x0⟩, ⟨1, 1, .rw, 0x0⟩, ⟨2, 1, .ro, 0x0⟩, ⟨4, 9, .rw, 0x0⟩, ⟨13, 9, .rw, 0x0⟩]⟩,
  ⟨"CORE_HALF_BASEL", 0x804, [(16, 0x10)], [⟨6, 26, .rw, 0x0⟩]⟩,
  ⟨"CORE_HALF_BASEH", 0x808, [(16, 0x10)], [⟨0, 16, .rw, 0x0⟩]⟩,
  ⟨"CORE_HALF_SPAN", 0x80C, [(16, 0x10)], [⟨0, 32, .rw, 0x0⟩]⟩,
  ⟨"CORE_NORMACCL", 0x900, [], [⟨0, 32, .ro, 0x0⟩]⟩,
  ⟨"CORE_NORMACCH", 0x904, [], [⟨0, 32, .ro, 0x0⟩]⟩,
  ⟨"CORE_CLIP", 0x908, [], [⟨0, 32, .ro, 0x0⟩]⟩,
  ⟨"CORE_FROZEN_SKIPS", 0x90C, [], [⟨0, 32, .rw, 0x0⟩]⟩,
  ⟨"CORE_PRECSING", 0x910, [], [⟨0, 32, .rw, 0x0⟩]⟩,
  ⟨"CORE_PRECDIAG", 0x914, [], [⟨0, 32, .rw, 0x0⟩]⟩,
  ⟨"CORE_EMBROWS", 0x918, [], [⟨0, 32, .rw, 0x0⟩]⟩,
  ⟨"CORE_JBASEL", 0x91C, [], [⟨6, 26, .rw, 0x0⟩]⟩,
  ⟨"CORE_JBASEH", 0x920, [], [⟨0, 16, .rw, 0x0⟩]⟩,
  ⟨"CORE_JSIZE", 0x924, [], [⟨0, 20, .rw, 0x0⟩]⟩,
  ⟨"CORE_JFILL", 0x928, [], [⟨0, 26, .ro, 0x0⟩]⟩,
  ⟨"CORE_SNAPS", 0x92C, [], [⟨0, 32, .rw, 0x0⟩]⟩,
  ⟨"CORE_DESC", 0x8000, [(512, 0x40), (16, 0x4)], [⟨0, 32, .rw, 0x0⟩]⟩]

/-- Registers of group f06. -/
def regTable_f06 : List RegRow := [
  ⟨"SPAT_DLCFG", 0x2300, [], [⟨0, 16, .rw, 0x40⟩, ⟨16, 16, .rw, 0x2C⟩]⟩,
  ⟨"SPAT_DRAINTO", 0x2304, [], [⟨0, 16, .rw, 0x3E8⟩]⟩,
  ⟨"SPAT_DLSTAT", 0x2308, [], [⟨0, 1, .w1c, 0x0⟩, ⟨1, 4, .ro, 0x0⟩, ⟨5, 7, .ro, 0x0⟩, ⟨12, 3, .ro, 0x0⟩, ⟨15, 3, .ro, 0x0⟩]⟩,
  ⟨"SPAT_DLSPILL", 0x230C, [], [⟨0, 32, .rw, 0x0⟩]⟩,
  ⟨"SPAT_DLFAULT", 0x2310, [], [⟨0, 32, .rw, 0x0⟩]⟩]

/-- Registers of group f07. -/
def regTable_f07 : List RegRow := [
  ⟨"NUM_CTRL", 0x2400, [], [⟨0, 1, .rw, 0x1⟩, ⟨1, 2, .rw, 0x0⟩, ⟨3, 2, .rw, 0x1⟩]⟩,
  ⟨"NUM_SRSEEDL", 0x2404, [], [⟨0, 32, .rw, 0x0⟩]⟩,
  ⟨"NUM_SRSEEDH", 0x2408, [], [⟨0, 32, .rw, 0x0⟩]⟩,
  ⟨"NUM_WCTRL", 0x240C, [], [⟨0, 2, .rw, 0x0⟩, ⟨2, 4, .rw, 0x0⟩, ⟨6, 4, .rw, 0x6⟩, ⟨10, 1, .rw, 0x0⟩, ⟨16, 16, .rw, 0x400⟩]⟩,
  ⟨"NUM_ACHECK", 0x2410, [], [⟨0, 32, .rw, 0x0⟩]⟩,
  ⟨"NUM_ADIS", 0x2414, [], [⟨0, 32, .rw, 0x0⟩]⟩,
  ⟨"NUM_ASKIP", 0x2418, [], [⟨0, 32, .rw, 0x0⟩]⟩,
  ⟨"NUM_AMAX", 0x241C, [], [⟨0, 32, .rw, 0x0⟩]⟩,
  ⟨"NUM_AREC", 0x2420, [], [⟨0, 1, .w1c, 0x0⟩, ⟨1, 7, .ro, 0x0⟩, ⟨8, 2, .ro, 0x0⟩, ⟨10, 10, .ro, 0x0⟩]⟩,
  ⟨"NUM_ARECD", 0x2424, [], [⟨0, 32, .ro, 0x0⟩]⟩,
  ⟨"NUM_WPRESS", 0x2428, [], [⟨0, 32, .ro, 0x0⟩]⟩,
  ⟨"NUM_WSLOT", 0x2440, [(16, 0x4)], [⟨0, 1, .rw, 0x0⟩, ⟨1, 1, .rw, 0x0⟩, ⟨2, 7, .rw, 0x0⟩, ⟨9, 9, .rw, 0x0⟩, ⟨18, 8, .rw, 0x0⟩]⟩,
  ⟨"NUM_HIST", 0x4000, [(16, 0x100), (64, 0x4)], [⟨0, 32, .rw, 0x0⟩]⟩,
  ⟨"NUM_PHIST", 0x5000, [(16, 0x100), (64, 0x4)], [⟨0, 32, .ro, 0x0⟩]⟩]

/-- Registers of group f10. -/
def regTable_f10 : List RegRow := [
  ⟨"TIER_CTRL", 0x2500, [], [⟨0, 1, .rw, 0x1⟩, ⟨1, 16, .rw, 0x64⟩]⟩,
  ⟨"TIER_CORR", 0x2504, [], [⟨0, 32, .rw, 0x0⟩]⟩,
  ⟨"TIER_UCSTAT", 0x2508, [], [⟨0, 1, .w1c, 0x0⟩, ⟨1, 7, .ro, 0x0⟩, ⟨8, 2, .ro, 0x0⟩]⟩,
  ⟨"TIER_UCADDR", 0x250C, [], [⟨0, 20, .ro, 0x0⟩]⟩,
  ⟨"TIER_UCCNT", 0x2510, [], [⟨0, 32, .rw, 0x0⟩]⟩,
  ⟨"TIER_SCRUBS", 0x2514, [], [⟨0, 32, .rw, 0x0⟩]⟩,
  ⟨"MEMC_STATUS", 0x2600, [(4, 0x40)], [⟨0, 1, .ro, 0x0⟩, ⟨1, 1, .ro, 0x0⟩, ⟨2, 1, .ro, 0x0⟩, ⟨3, 3, .ro, 0x0⟩]⟩,
  ⟨"MEMC_CTRL", 0x2604, [(4, 0x40)], [⟨0, 1, .rw, 0x1⟩, ⟨1, 8, .rw, 0x18⟩]⟩,
  ⟨"MEMC_CORR", 0x2608, [(4, 0x40)], [⟨0, 32, .rw, 0x0⟩]⟩,
  ⟨"MEMC_LECC", 0x260C, [(4, 0x40)], [⟨0, 32, .rw, 0x0⟩]⟩,
  ⟨"MEMC_UCSTAT", 0x2610, [(4, 0x40)], [⟨0, 1, .w1c, 0x0⟩, ⟨1, 2, .ro, 0x0⟩]⟩,
  ⟨"MEMC_UCADDRL", 0x2614, [(4, 0x40)], [⟨6, 26, .ro, 0x0⟩]⟩,
  ⟨"MEMC_UCADDRH", 0x2618, [(4, 0x40)], [⟨0, 16, .ro, 0x0⟩]⟩,
  ⟨"MEMC_UCCNT", 0x261C, [(4, 0x40)], [⟨0, 32, .rw, 0x0⟩]⟩,
  ⟨"MEMC_RMW", 0x2620, [(4, 0x40)], [⟨0, 32, .rw, 0x0⟩]⟩,
  ⟨"KT5_CTRL", 0x2700, [], [⟨0, 1, .rw, 0x0⟩, ⟨1, 1, .wo, 0x0⟩, ⟨2, 1, .ro, 0x0⟩, ⟨4, 4, .rw, 0x4⟩, ⟨8, 6, .rw, 0x10⟩]⟩,
  ⟨"KT5_MAP", 0x2704, [], [⟨0, 8, .rw, 0x0⟩, ⟨8, 8, .rw, 0x0⟩]⟩,
  ⟨"KT5_HITS", 0x2708, [], [⟨0, 32, .rw, 0x0⟩]⟩,
  ⟨"KT5_MISSES", 0x270C, [], [⟨0, 32, .rw, 0x0⟩]⟩,
  ⟨"KT5_MIGR", 0x2710, [], [⟨0, 32, .rw, 0x0⟩]⟩,
  ⟨"KT5_EVICT", 0x2714, [], [⟨0, 32, .rw, 0x0⟩]⟩,
  ⟨"KT5_WAIT", 0x2718, [], [⟨0, 32, .rw, 0x0⟩]⟩,
  ⟨"FLASH_STATUS", 0x2800, [], [⟨0, 1, .ro, 0x0⟩, ⟨1, 1, .ro, 0x0⟩, ⟨2, 1, .ro, 0x0⟩, ⟨3, 1, .ro, 0x0⟩, ⟨4, 1, .ro, 0x0⟩, ⟨5, 1, .ro, 0x0⟩, ⟨6, 8, .ro, 0x0⟩]⟩,
  ⟨"FLASH_CTRL", 0x2804, [], [⟨0, 1, .wo, 0x0⟩, ⟨1, 1, .wo, 0x0⟩, ⟨2, 10, .rw, 0xA⟩, ⟨12, 8, .rw, 0xC8⟩]⟩,
  ⟨"FLASH_RDTHR", 0x2808, [], [⟨0, 32, .rw, 0x186A0⟩]⟩,
  ⟨"FLASH_HOSTWL", 0x280C, [], [⟨0, 32, .ro, 0x0⟩]⟩,
  ⟨"FLASH_HOSTWH", 0x2810, [], [⟨0, 32, .ro, 0x0⟩]⟩,
  ⟨"FLASH_NANDWL", 0x2814, [], [⟨0, 32, .ro, 0x0⟩]⟩,
  ⟨"FLASH_NANDWH", 0x2818, [], [⟨0, 32, .ro, 0x0⟩]⟩,
  ⟨"FLASH_ERASE", 0x281C, [], [⟨0, 16, .ro, 0x0⟩, ⟨16, 16, .ro, 0x0⟩]⟩,
  ⟨"FLASH_SPARE", 0x2820, [], [⟨0, 32, .ro, 0x0⟩]⟩,
  ⟨"FLASH_GROWN", 0x2824, [], [⟨0, 32, .ro, 0x0⟩]⟩,
  ⟨"FLASH_RELOC", 0x2828, [], [⟨0, 32, .rw, 0x0⟩]⟩,
  ⟨"FLASH_SWAPS", 0x282C, [], [⟨0, 32, .rw, 0x0⟩]⟩,
  ⟨"FLASH_MAPSTALL", 0x2830, [], [⟨0, 32, .rw, 0x0⟩]⟩,
  ⟨"FLASH_UCSTAT", 0x2834, [], [⟨0, 1, .w1c, 0x0⟩, ⟨1, 2, .ro, 0x0⟩]⟩,
  ⟨"FLASH_UCUNIT", 0x2838, [], [⟨0, 28, .ro, 0x0⟩]⟩,
  ⟨"FLASH_UCCNT", 0x283C, [], [⟨0, 32, .rw, 0x0⟩]⟩,
  ⟨"FLASH_DROP", 0x2840, [], [⟨0, 32, .rw, 0x0⟩]⟩]

/-- Registers of group f11. -/
def regTable_f11 : List RegRow := [
  ⟨"UPD_CTRL", 0x2900, [], [⟨0, 1, .rw, 0x0⟩, ⟨16, 16, .rw, 0x3E8⟩]⟩,
  ⟨"UPD_NFSKIP", 0x2904, [], [⟨0, 32, .rw, 0x0⟩]⟩,
  ⟨"UPD_PRESSES", 0x2908, [], [⟨0, 32, .rw, 0x0⟩]⟩,
  ⟨"UPD_PMAXLAT", 0x290C, [], [⟨0, 16, .rw, 0x0⟩]⟩,
  ⟨"UPD_PRESS", 0x2940, [(16, 0x4)], [⟨0, 1, .rw, 0x0⟩, ⟨1, 2, .ro, 0x0⟩]⟩,
  ⟨"UPD_NORM", 0x2980, [(16, 0x4)], [⟨0, 32, .ro, 0x0⟩]⟩]

/-- Registers of group f12. -/
def regTable_f12 : List RegRow := [
  ⟨"YL_COORD", 0x2A00, [], [⟨0, 2, .ro, 0x0⟩, ⟨2, 5, .rw, 0x0⟩, ⟨7, 6, .rw, 0x0⟩, ⟨13, 6, .rw, 0x1⟩, ⟨19, 7, .rw, 0x1⟩]⟩,
  ⟨"YL_SYSID", 0x2A04, [], [⟨0, 16, .rw, 0x0⟩]⟩,
  ⟨"YL_RCTRL", 0x2A08, [], [⟨0, 1, .wo, 0x0⟩, ⟨1, 1, .ro, 0x0⟩, ⟨2, 1, .wo, 0x0⟩, ⟨3, 1, .ro, 0x0⟩, ⟨4, 12, .rw, 0xC8⟩, ⟨16, 16, .rw, 0x1F4⟩]⟩,
  ⟨"YL_RTADDR", 0x2A0C, [], [⟨0, 13, .rw, 0x0⟩, ⟨13, 1, .rw, 0x0⟩]⟩,
  ⟨"YL_RTDATA", 0x2A10, [], [⟨0, 4, .rw, 0x0⟩]⟩,
  ⟨"YL_WAKE", 0x2A14, [], [⟨0, 3, .wo, 0x0⟩]⟩,
  ⟨"YL_RWTO", 0x2A18, [], [⟨0, 16, .rw, 0x7D0⟩]⟩,
  ⟨"YL_RTSTALL", 0x2A1C, [], [⟨0, 32, .rw, 0x0⟩]⟩,
  ⟨"YL_NOROUTE", 0x2A20, [], [⟨0, 32, .rw, 0x0⟩]⟩,
  ⟨"YL_SWAPS", 0x2A24, [], [⟨0, 32, .rw, 0x0⟩]⟩,
  ⟨"YL_WCLOSEDRX", 0x2A28, [], [⟨0, 32, .rw, 0x0⟩]⟩,
  ⟨"YL_NAKRX", 0x2A2C, [], [⟨0, 32, .rw, 0x0⟩]⟩,
  ⟨"YL_ECRC", 0x2A30, [], [⟨0, 32, .rw, 0x0⟩]⟩,
  ⟨"YL_RWTIMEOUT", 0x2A34, [], [⟨0, 32, .rw, 0x0⟩]⟩,
  ⟨"YLP_CTRL", 0x6000, [(6, 0x100)], [⟨0, 1, .rw, 0x0⟩, ⟨1, 1, .wo, 0x0⟩, ⟨2, 10, .rw, 0x1F4⟩]⟩,
  ⟨"YLP_STAT", 0x6004, [(6, 0x100)], [⟨0, 4, .ro, 0x0⟩, ⟨4, 1, .ro, 0x0⟩, ⟨5, 1, .ro, 0x0⟩, ⟨6, 8, .ro, 0x0⟩]⟩,
  ⟨"YLP_PARTNER", 0x6008, [(6, 0x100)], [⟨0, 13, .ro, 0x0⟩, ⟨13, 3, .ro, 0x0⟩, ⟨16, 1, .ro, 0x0⟩]⟩,
  ⟨"YLP_FECCW", 0x600C, [(6, 0x100)], [⟨0, 32, .rw, 0x0⟩]⟩,
  ⟨"YLP_FECUNC", 0x6010, [(6, 0x100)], [⟨0, 32, .rw, 0x0⟩]⟩,
  ⟨"YLP_REPLAY", 0x6014, [(6, 0x100)], [⟨0, 32, .rw, 0x0⟩]⟩,
  ⟨"YLP_REPCW", 0x6018, [(6, 0x100)], [⟨0, 32, .rw, 0x0⟩]⟩,
  ⟨"YLP_RETRAIN", 0x601C, [(6, 0x100)], [⟨0, 32, .rw, 0x0⟩]⟩,
  ⟨"YLP_CSTALL", 0x6020, [(6, 0x100)], [⟨0, 32, .rw, 0x0⟩]⟩,
  ⟨"YLP_BAD", 0x6024, [(6, 0x100)], [⟨0, 32, .rw, 0x0⟩]⟩,
  ⟨"YLP_PGAP", 0x6028, [(6, 0x100)], [⟨0, 16, .rw, 0x0⟩]⟩,
  ⟨"YLP_LSYM", 0x6040, [(6, 0x100), (8, 0x4)], [⟨0, 32, .rw, 0x0⟩]⟩,
  ⟨"YLW_CTRL", 0x6800, [(64, 0x20)], [⟨0, 1, .rw, 0x0⟩, ⟨1, 1, .ro, 0x0⟩, ⟨2, 1, .w1c, 0x0⟩, ⟨3, 1, .rw, 0x0⟩, ⟨4, 4, .rw, 0x0⟩, ⟨8, 1, .rw, 0x0⟩, ⟨9, 7, .rw, 0x0⟩, ⟨16, 6, .rw, 0x0⟩]⟩,
  ⟨"YLW_BASEL", 0x6804, [(64, 0x20)], [⟨6, 26, .rw, 0x0⟩]⟩,
  ⟨"YLW_BASEH", 0x6808, [(64, 0x20)], [⟨0, 16, .rw, 0x0⟩]⟩,
  ⟨"YLW_SIZE", 0x680C, [(64, 0x20)], [⟨0, 32, .rw, 0x0⟩]⟩,
  ⟨"YLW_SRC", 0x6810, [(64, 0x20)], [⟨0, 13, .rw, 0x0⟩]⟩,
  ⟨"YLW_WRITES", 0x6814, [(64, 0x20)], [⟨0, 32, .rw, 0x0⟩]⟩,
  ⟨"YLW_WDROP", 0x6818, [(64, 0x20)], [⟨0, 32, .rw, 0x0⟩]⟩]

/-- Registers of group f13. -/
def regTable_f13 : List RegRow := [
  ⟨"TAT_CTRL", 0x2B00, [], [⟨0, 16, .rw, 0x7D0⟩]⟩,
  ⟨"TAT_STATUS", 0x2B04, [], [⟨0, 7, .ro, 0x0⟩, ⟨7, 3, .ro, 0x0⟩, ⟨10, 1, .ro, 0x0⟩]⟩,
  ⟨"TAT_BUCKETS", 0x2B08, [], [⟨0, 32, .rw, 0x0⟩]⟩,
  ⟨"TAT_RESTARTS", 0x2B0C, [], [⟨0, 32, .rw, 0x0⟩]⟩,
  ⟨"TAT_BF16", 0x2B10, [], [⟨0, 32, .rw, 0x0⟩]⟩,
  ⟨"TAT_STALE", 0x2B14, [], [⟨0, 32, .rw, 0x0⟩]⟩,
  ⟨"TAT_EPDROP", 0x2B18, [], [⟨0, 32, .rw, 0x0⟩]⟩,
  ⟨"TAT_SLOTWAIT", 0x2B1C, [], [⟨0, 32, .rw, 0x0⟩]⟩,
  ⟨"TAT_REUSEWAIT", 0x2B20, [], [⟨0, 32, .rw, 0x0⟩]⟩,
  ⟨"TAT_ABANDON", 0x2B24, [], [⟨0, 32, .rw, 0x0⟩]⟩,
  ⟨"TAT_PERMWAIT", 0x2B28, [], [⟨0, 32, .rw, 0x0⟩]⟩,
  ⟨"TAT_BTBASEL", 0x7000, [(16, 0x80)], [⟨6, 26, .rw, 0x0⟩]⟩,
  ⟨"TAT_BTBASEH", 0x7004, [(16, 0x80)], [⟨0, 16, .rw, 0x0⟩]⟩,
  ⟨"TAT_BTCFG", 0x7008, [(16, 0x80)], [⟨0, 13, .rw, 0x0⟩, ⟨16, 4, .rw, 0x0⟩]⟩,
  ⟨"TAT_JOB", 0x700C, [(16, 0x80)], [⟨0, 16, .rw, 0x0⟩]⟩,
  ⟨"TAT_GRP", 0x7010, [(16, 0x80), (3, 0x4)], [⟨0, 2, .rw, 0x0⟩, ⟨2, 1, .rw, 0x0⟩, ⟨3, 6, .rw, 0x0⟩, ⟨9, 7, .rw, 0x1⟩, ⟨16, 2, .ro, 0x0⟩, ⟨18, 6, .ro, 0x0⟩, ⟨24, 7, .ro, 0x1⟩]⟩,
  ⟨"TAT_CDIG", 0x7020, [(16, 0x80), (8, 0x4)], [⟨0, 32, .ro, 0x0⟩]⟩,
  ⟨"TAT_PDIG", 0x7040, [(16, 0x80), (8, 0x4)], [⟨0, 32, .ro, 0x0⟩]⟩]

/-- Registers of group f14. -/
def regTable_f14 : List RegRow := [
  ⟨"HIF_STATUS", 0x8000, [], [⟨0, 1, .ro, 0x0⟩, ⟨1, 7, .ro, 0x0⟩]⟩,
  ⟨"HIF_APBASE", 0x8004, [], [⟨0, 18, .rw, 0x0⟩]⟩,
  ⟨"HIF_EVPEND", 0x8008, [], [⟨0, 16, .w1c, 0x0⟩]⟩,
  ⟨"HIF_DBERR", 0x800C, [], [⟨0, 32, .rw, 0x0⟩]⟩,
  ⟨"HIF_APHOLE", 0x8010, [], [⟨0, 32, .rw, 0x0⟩]⟩,
  ⟨"HIF_WINTO", 0x8014, [], [⟨0, 32, .rw, 0x0⟩]⟩,
  ⟨"HIF_CQWAIT", 0x8018, [], [⟨0, 32, .rw, 0x0⟩]⟩,
  ⟨"HIF_CMDS", 0x801C, [], [⟨0, 32, .rw, 0x0⟩]⟩,
  ⟨"MBX_CTRL", 0x9000, [], [⟨0, 1, .w1s, 0x0⟩, ⟨1, 16, .rw, 0x3E8⟩]⟩,
  ⟨"MBX_BADW", 0x9004, [], [⟨0, 32, .rw, 0x0⟩]⟩,
  ⟨"MBX_BIND", 0x9040, [(16, 0x4)], [⟨0, 8, .rw, 0x0⟩, ⟨8, 8, .rw, 0x0⟩, ⟨16, 1, .rw, 0x0⟩]⟩,
  ⟨"MBX_DATA", 0x9080, [(16, 0x8)], [⟨0, 32, .rw, 0x0⟩]⟩,
  ⟨"MBX_STAT", 0x9084, [(16, 0x8)], [⟨0, 1, .w1c, 0x0⟩, ⟨1, 1, .w1c, 0x0⟩, ⟨2, 1, .w1c, 0x0⟩]⟩,
  ⟨"HIF_SQ_BASEL", 0xA000, [(64, 0x20)], [⟨12, 20, .rw, 0x0⟩]⟩,
  ⟨"HIF_SQ_BASEH", 0xA004, [(64, 0x20)], [⟨0, 32, .rw, 0x0⟩]⟩,
  ⟨"HIF_SQ_CFG", 0xA008, [(64, 0x20)], [⟨0, 1, .rw, 0x0⟩, ⟨1, 1, .w1c, 0x0⟩, ⟨2, 5, .rw, 0x0⟩, ⟨7, 4, .rw, 0x0⟩, ⟨11, 6, .rw, 0x0⟩, ⟨17, 2, .rw, 0x0⟩]⟩,
  ⟨"HIF_SQ_STAT", 0xA00C, [(64, 0x20)], [⟨0, 16, .ro, 0x0⟩, ⟨16, 1, .ro, 0x1⟩]⟩,
  ⟨"HIF_CQ_BASEL", 0xA800, [(64, 0x20)], [⟨12, 20, .rw, 0x0⟩]⟩,
  ⟨"HIF_CQ_BASEH", 0xA804, [(64, 0x20)], [⟨0, 32, .rw, 0x0⟩]⟩,
  ⟨"HIF_CQ_CFG", 0xA808, [(64, 0x20)], [⟨0, 1, .rw, 0x0⟩, ⟨1, 1, .w1c, 0x0⟩, ⟨2, 5, .rw, 0x0⟩, ⟨7, 1, .rw, 0x0⟩, ⟨8, 11, .rw, 0x0⟩]⟩,
  ⟨"HIF_CQ_COAL", 0xA80C, [(64, 0x20)], [⟨0, 8, .rw, 0x1⟩, ⟨8, 16, .rw, 0x0⟩]⟩,
  ⟨"HIF_CQ_STAT", 0xA810, [(64, 0x20)], [⟨0, 16, .ro, 0x0⟩, ⟨16, 1, .ro, 0x1⟩]⟩,
  ⟨"HIF_EV", 0xB000, [(16, 0x4)], [⟨0, 11, .rw, 0x0⟩, ⟨31, 1, .rw, 0x0⟩]⟩]

/-- Registers of group f15. -/
def regTable_f15 : List RegRow := [
  ⟨"SEQ_STATE", 0xB100, [], [⟨0, 4, .ro, 0x0⟩, ⟨4, 4, .ro, 0x0⟩]⟩,
  ⟨"SEQ_MENDS", 0xB104, [], [⟨0, 32, .rw, 0x0⟩]⟩,
  ⟨"SEQ_DEFER", 0xB108, [], [⟨0, 32, .rw, 0x0⟩]⟩,
  ⟨"SEQ_PARKMAX", 0xB10C, [], [⟨0, 16, .rw, 0x0⟩]⟩,
  ⟨"DWG_STATUS", 0xC000, [], [⟨0, 4, .ro, 0x0⟩, ⟨4, 5, .ro, 0x0⟩, ⟨9, 1, .ro, 0x0⟩, ⟨10, 1, .ro, 0x0⟩, ⟨11, 1, .ro, 0x0⟩, ⟨12, 2, .ro, 0x0⟩, ⟨14, 2, .ro, 0x0⟩, ⟨16, 2, .ro, 0x0⟩, ⟨18, 1, .ro, 0x0⟩]⟩,
  ⟨"DWG_ROMVER", 0xC004, [], [⟨0, 16, .ro, 0x0⟩, ⟨16, 8, .ro, 0x0⟩, ⟨24, 8, .ro, 0x0⟩]⟩,
  ⟨"DWG_UCVER", 0xC008, [], [⟨0, 16, .ro, 0x0⟩, ⟨16, 8, .ro, 0x0⟩, ⟨24, 8, .ro, 0x0⟩]⟩,
  ⟨"DWG_SVN", 0xC00C, [], [⟨0, 16, .ro, 0x0⟩, ⟨16, 16, .ro, 0x0⟩]⟩,
  ⟨"DWG_ADDRL", 0xC010, [], [⟨6, 26, .rw, 0x0⟩]⟩,
  ⟨"DWG_ADDRH", 0xC014, [], [⟨0, 16, .rw, 0x0⟩]⟩,
  ⟨"DWG_LEN", 0xC018, [], [⟨0, 26, .rw, 0x0⟩]⟩,
  ⟨"DWG_NONCE", 0xC020, [(8, 0x4)], [⟨0, 32, .rw, 0x0⟩]⟩,
  ⟨"DWG_IMGDIG", 0xC040, [(8, 0x4)], [⟨0, 32, .ro, 0x0⟩]⟩,
  ⟨"DWG_DEVPUB", 0xC060, [(16, 0x4)], [⟨0, 32, .ro, 0x0⟩]⟩,
  ⟨"DWG_DEVCERT", 0xC0A0, [(16, 0x4)], [⟨0, 32, .ro, 0x0⟩]⟩]

/-- Registers of group f16. -/
def regTable_f16 : List RegRow := [
  ⟨"FLT_STATUS", 0xD000, [], [⟨0, 2, .ro, 0x0⟩, ⟨2, 1, .ro, 0x0⟩, ⟨3, 1, .ro, 0x0⟩, ⟨4, 10, .ro, 0x0⟩, ⟨16, 8, .ro, 0x0⟩]⟩,
  ⟨"FLT_CTRL", 0xD004, [], [⟨0, 12, .rw, 0x12C⟩]⟩,
  ⟨"FLT_FIRST", 0xD008, [], [⟨0, 1, .w1c, 0x0⟩, ⟨1, 8, .ro, 0x0⟩, ⟨9, 7, .ro, 0x0⟩, ⟨16, 4, .ro, 0x0⟩, ⟨20, 1, .ro, 0x0⟩]⟩,
  ⟨"FLT_LOSS", 0xD00C, [], [⟨0, 16, .w1c, 0x0⟩]⟩,
  ⟨"FLT_PMAPL", 0xD010, [], [⟨6, 26, .rw, 0x0⟩]⟩,
  ⟨"FLT_PMAPH", 0xD014, [], [⟨0, 16, .rw, 0x0⟩]⟩,
  ⟨"FLT_PMAPN", 0xD018, [], [⟨0, 17, .rw, 0x0⟩]⟩,
  ⟨"FLT_LOGSEQ", 0xD01C, [], [⟨0, 32, .ro, 0x0⟩]⟩,
  ⟨"FLT_LOGACK", 0xD020, [], [⟨0, 32, .rw, 0x0⟩]⟩,
  ⟨"FLT_LOGCTRL", 0xD024, [], [⟨0, 13, .rw, 0x800⟩]⟩,
  ⟨"FLT_LOGLOST", 0xD028, [], [⟨0, 32, .rw, 0x0⟩]⟩,
  ⟨"FLT_RINSES", 0xD02C, [], [⟨0, 32, .rw, 0x0⟩]⟩,
  ⟨"FLT_ORIG", 0xD030, [], [⟨0, 32, .rw, 0x0⟩]⟩,
  ⟨"FLT_LATEVIEW", 0xD034, [], [⟨0, 32, .rw, 0x0⟩]⟩,
  ⟨"FLT_AGREEMAX", 0xD038, [], [⟨0, 16, .rw, 0x0⟩]⟩,
  ⟨"FLT_CORECORR", 0xD03C, [], [⟨0, 32, .rw, 0x0⟩]⟩,
  ⟨"FLT_LOG", 0x20000, [(4096, 0x20), (8, 0x4)], [⟨0, 32, .ro, 0x0⟩]⟩]

/-- Registers of group f17. -/
def regTable_f17 : List RegRow := [
  ⟨"PWR_STATUS", 0xE000, [], [⟨0, 3, .ro, 0x0⟩, ⟨3, 1, .ro, 0x0⟩, ⟨4, 1, .ro, 0x0⟩, ⟨5, 1, .ro, 0x0⟩, ⟨6, 1, .ro, 0x0⟩, ⟨7, 1, .ro, 0x0⟩]⟩,
  ⟨"PWR_CTRL", 0xE004, [], [⟨0, 1, .rw, 0x0⟩, ⟨1, 15, .rw, 0x64⟩]⟩,
  ⟨"PWR_REQ", 0xE008, [], [⟨0, 3, .wo, 0x0⟩, ⟨3, 2, .wo, 0x0⟩]⟩,
  ⟨"PWR_WAKECFG", 0xE00C, [], [⟨0, 1, .rw, 0x1⟩, ⟨1, 1, .rw, 0x0⟩, ⟨2, 1, .rw, 0x1⟩]⟩,
  ⟨"PWR_DVFS", 0xE010, [(2, 0x10)], [⟨0, 4, .wo, 0x0⟩, ⟨4, 8, .wo, 0x0⟩, ⟨12, 1, .wo, 0x0⟩, ⟨13, 1, .wo, 0x0⟩]⟩,
  ⟨"PWR_HALF", 0xE014, [(2, 0x10)], [⟨0, 4, .ro, 0x2⟩, ⟨4, 8, .ro, 0x32⟩, ⟨12, 4, .ro, 0x2⟩, ⟨16, 12, .ro, 0x0⟩, ⟨28, 4, .ro, 0x2⟩]⟩,
  ⟨"PWR_THCFG", 0xE030, [], [⟨0, 8, .rw, 0x5F⟩, ⟨8, 8, .rw, 0x69⟩, ⟨16, 8, .rw, 0x73⟩, ⟨24, 4, .rw, 0x5⟩]⟩,
  ⟨"PWR_REFREC", 0xE034, [], [⟨0, 1, .w1c, 0x0⟩, ⟨1, 8, .ro, 0x0⟩, ⟨9, 8, .ro, 0x0⟩, ⟨17, 4, .ro, 0x0⟩, ⟨21, 3, .ro, 0x0⟩, ⟨24, 1, .ro, 0x0⟩]⟩,
  ⟨"PWR_ABREC", 0xE038, [], [⟨0, 1, .w1c, 0x0⟩, ⟨1, 2, .ro, 0x0⟩, ⟨3, 3, .ro, 0x0⟩, ⟨6, 3, .ro, 0x0⟩, ⟨9, 3, .ro, 0x0⟩]⟩,
  ⟨"PWR_ENTRIES", 0xE03C, [], [⟨0, 32, .rw, 0x0⟩]⟩,
  ⟨"PWR_REFUSED", 0xE040, [], [⟨0, 32, .rw, 0x0⟩]⟩,
  ⟨"PWR_ABORTED", 0xE044, [], [⟨0, 32, .rw, 0x0⟩]⟩,
  ⟨"PWR_ORDERREF", 0xE048, [], [⟨0, 32, .rw, 0x0⟩]⟩,
  ⟨"PWR_DEMAND", 0xE04C, [], [⟨0, 32, .rw, 0x0⟩]⟩,
  ⟨"PWR_DEMMAX", 0xE050, [], [⟨0, 16, .rw, 0x0⟩]⟩,
  ⟨"PWR_THROTTLES", 0xE054, [], [⟨0, 32, .rw, 0x0⟩]⟩,
  ⟨"PWR_THRMS", 0xE058, [], [⟨0, 32, .rw, 0x0⟩]⟩,
  ⟨"PWR_EMERGS", 0xE05C, [], [⟨0, 32, .rw, 0x0⟩]⟩,
  ⟨"PWR_TIME", 0xE080, [(5, 0x4)], [⟨0, 32, .rw, 0x0⟩]⟩]

end Sys2Proof.Machine
end

