-- ==== Sys2Proof/Machine/ChanState.lean ====
section
/-! DEFINITION. What a channel holds beside its registers, memory and cores, one structure per unit. -/

namespace Sys2Proof.Machine

open Sys2Proof

/-- A message of the control network on its way (R65, R66). -/
inductive CMsg where
  | barrier (hdr pay : Word)
  | table (which : Nat)
  | power (hdr : Word) (pays : List Word)
  | mailbox (hdr pay : Word)
deriving DecidableEq, Repr

/-- A flit in the mesh: the router that is to capture it, the port it comes in by (R47). -/
structure FlitAt where
  router : Nat
  inp : MPort
  flit : Flit
deriving DecidableEq, Repr

/-- The mesh: both generations of the routing tables (key router * 128 + destination), flits between routers, flits
delivered to a sub-port and not yet taken, when the swap in progress began (R49, R50). -/
structure MeshSt where
  rt0 : List (Nat × Nat)
  rt1 : List (Nat × Nat)
  flits : List FlitAt
  eject : List FlitAt
  swapAt : Nat
deriving DecidableEq, Repr

def MeshSt.reset : MeshSt := ⟨[], [], [], [], 0⟩

/-- A merge-table entry of a tier slice: its line, and the requesters that wait for its data as (site, tag); the slice's own site stands for
its stream port (R57, R58). -/
structure MergeEnt where
  slice : Nat
  line : Nat
  waiting : List (Nat × Nat)
deriving DecidableEq, Repr

/-- A queue line between its producer and its consumer, and the number of the SEND that sent it (R178). -/
structure QFlight where
  src : Nat
  dst : Nat
  q : Nat
  ord : Nat
  line : QLine
deriving DecidableEq, Repr

/-- A credit return between a consumer and a producer (R179). -/
structure QCredit where
  cons : Nat
  prod : Nat
  q : Nat
deriving DecidableEq, Repr


/-- A unit in the flash write buffer: the bytes written since it entered, by offset, whether its data came with OFFLOADABLE,
and whether it is to be programmed (R291, R298). -/
structure BufUnit where
  unit : Nat
  bytes : List (Nat × Byte)
  off : Bool
  due : Bool
deriving DecidableEq, Repr

/-- A NAND block: page reads since its last erase, erasures, retired, pages programmed since its last erase, whether they came with
OFFLOADABLE (R289, R298 to R300). -/
structure NandBlk where
  reads : Nat
  erases : Nat
  bad : Bool
  pages : Nat
  off : Bool
deriving DecidableEq, Repr

/-- A flash access that waits: for the map, a swap, a STALE entry or buffer space (R291, R293, R296, R297). -/
inductive FlashReq where
  | read (addr len : Nat) (stream : Bool)
  | write (addr : Nat) (data : List Byte) (off : Bool)
deriving DecidableEq, Repr

/-- The flash controller beside its registers and its durable contents, which lie in the channel's memory (R289 to R304).
Maps hold block + 1 for a mapped unit. -/
structure FlashSt where
  buf : List BufUnit
  waiting : List FlashReq
  map0 : List (Nat × Nat)
  map1 : List (Nat × Nat)
  stale : List Nat
  blocks : List (Nat × NandBlk)
  cache : List Nat
  lastSwap : Nat
  latchW : Option Nat
  latchN : Option Nat
deriving DecidableEq, Repr

def FlashSt.reset : FlashSt := ⟨[], [], [], [], [], [], [], 0, none, none⟩

/-- A cached page of the KT5 range: tag, dirty mark, time of last use (R308, R309). -/
structure KtWay where
  tag : Nat
  dirty : Bool
  used : Nat
deriving DecidableEq, Repr

/-- The KT5 range's cache: ways (key (home * 64 + set) * 16 + way), candidate counters per set as (page, count), pages whose
counter has reached HEAT, a clock of uses, and whether the flush in progress also disables (R308 to R310). -/
structure Kt5St where
  ways : List (Nat × Option KtWay)
  cands : List (Nat × List (Nat × Nat))
  pend : List Nat
  clock : Nat
  disabling : Bool
deriving DecidableEq, Repr

def Kt5St.reset : Kt5St := ⟨[], [], [], 0, false⟩

/-- A gradient bucket of a context: state (R379), the CTX_PRESS of the step that opened it, contributors and closers (R378), and for
WFMT 3 the largest magnitude that additions have written into each block, NaN for a non-finite one (R382). -/
structure Bkt where
  st : Nat
  ep : Nat
  contrib : List Nat
  closed : List Nat
  amax : List (Nat × Val)
deriving DecidableEq, Repr

def Bkt.reset : Bkt := ⟨0, 0, [], [], []⟩

/-- What a context's step in progress keeps beside its registers: the norm contributions and their senders, N once known (FP32
bits), whether the step is skipped (R320 to R322), filler micro-batches supplied (R76), the number of the command that runs
it, when it was VOTED (R333), whether the reduction has started (R380). -/
structure StepSt where
  norm : F32C
  sent : List Nat
  known : Option Nat
  skip : Bool
  fillers : Nat
  cmd : Option Nat
  voted : Nat
  reducing : Bool
deriving DecidableEq, Repr

def StepSt.reset : StepSt := ⟨czero, [], none, false, 0, none, 0, false⟩

/-- A data codeword that a port has sent and keeps until it is acknowledged: SEQ, HMASK, slots before scrambling (R340, R349). -/
structure Cw where
  seq : Nat
  hmask : Nat
  slots : List (BitVec 512)
deriving DecidableEq, Repr

/-- One Yelli port beside its registers (R340 to R355, R371). Transmit: queued packets with their VC, kept codewords, next SEQ,
slots sent per VC, CREDv last reported by the partner, scrambler, VC alternation, MCOUNT. Receive: SEQ expected, the packet
being assembled and its slots still to come, packets in the buffer, slots freed per VC, descrambler, a gap found and the markers
sent since, missed markers. Then: NAKs in succession of one SEQ, times of the latest uncorrectable codewords, last valid picot,
confirmed, partner recorded, width asked for and whether it is agreed. Lanes: which are precoded, the last level sent on each; codewords
of the package partner taken so far (R22, R337). -/
structure YPort where
  txq : List (Nat × Pkt)
  kept : List Cw
  txSeq : Nat
  sent : List Nat
  cred : List Nat
  scr : Nat
  altRsp : Bool
  altReq : Bool
  mcount : Nat
  rxSeq : Nat
  asm : Option (Pkt × Nat)
  rxq : List (Nat × Pkt)
  freed : List Nat
  dsc : Nat
  gap : Bool
  sinceNak : Nat
  missed : Nat
  naks : Nat × Nat
  unc : List Nat
  lastPicot : Nat
  confirmed : Bool
  partnered : Bool
  width : Option Nat
  agreed : Bool
  pre : Nat
  lev : List Nat
  seen : Nat
deriving DecidableEq, Repr

def YPort.reset : YPort :=
  { txq := [], kept := [], txSeq := 0, sent := [0, 0, 0, 0, 0], cred := [0, 0, 0, 0, 0], scr := 0, altRsp := false, altReq := false,
    mcount := 0, rxSeq := 0, asm := none, rxq := [], freed := [0, 0, 0, 0, 0], dsc := 0, gap := false, sinceNak := 0, missed := 0,
    naks := (0, 0), unc := [], lastPicot := 0, confirmed := false, partnered := false, width := none, agreed := false,
    pre := 0, lev := List.replicate 8 0, seen := 0 }

/-- Who waits for a remote-write request: a command, by its number, or a PERMUTE's send (R367, R396). -/
inductive RwOwner where
  | cmd (id : Nat)
  | perm (ctx : Nat)
deriving DecidableEq, Repr

/-- A remote-write request in progress: its record, the bytes sent so far, the offsets not yet answered, the lowest offset
answered with another status than OK, whether it has sent its last packet (R367). -/
structure RwReq where
  owner : RwOwner
  src : Nat
  len : Nat
  dst : Nat
  win : Nat
  ctx : Nat
  offset : Nat
  tag : Nat
  pos : Nat
  sentAll : Bool
  open_ : List Nat
  bad : Option (Nat × Nat)
deriving DecidableEq, Repr

/-- A lookup that waits for a routing swap: the port it came by, the packet, since when, whether it still holds its slots of that port's
receive buffer (R346, R361). -/
structure RtWait where
  inp : Option Nat
  pkt : Pkt
  since : Nat
  held : Bool
deriving DecidableEq, Repr

/-- The Yelli fabric of a channel: ports, both routing tables, lookups that wait, remote-write requests (R357 to R367). -/
structure YlSt where
  ports : List (Nat × YPort)
  rt0 : List (Nat × Nat)
  rt1 : List (Nat × Nat)
  waits : List RtWait
  reqs : List RwReq
deriving DecidableEq, Repr

def YlSt.reset : YlSt := ⟨[], [], [], [], []⟩

/-- A bucket's reduction: context, bucket, tag, epoch, whether it agrees scales, dimension, pass, whether the local value is zero,
results of the dimension in progress and of the one before by packet (half * 2^20 + packet), agreed scale codes, flagged blocks,
restarts, digests (R380 to R388). -/
structure Pass where
  ctx : Nat
  b : Nat
  tag : Nat
  ep : Nat
  agree : Bool
  dim : Nat
  pass : Nat
  zero : Bool
  res : List (Nat × List Nat)
  prev : Option (List (Nat × List Nat))
  scales : List Nat
  flags : List Nat
  ended : Bool
  sdig : Nat
  rdig : Nat
deriving DecidableEq, Repr

/-- What a chain collective combines (R389 to R392). -/
inductive ChainVal where
  | norm (v : F32C)
  | sum (v : Nat)
  | votes (n : Nat)
deriving DecidableEq, Repr

/-- A chain collective of a context: the value combined so far, the dimension it is in (3: sent on or at the root), whether the
value of the next member has been taken in that dimension (R389). -/
structure Chain where
  ctx : Nat
  ep : Nat
  val : ChainVal
  dim : Nat
  got : Bool
deriving DecidableEq, Repr

/-- A shard of a PGATHER: owner, bytes, first element in D0, source address (R393). -/
structure GRec where
  owner : Nat
  bytes : Nat
  doff : Nat
  src : Nat
deriving DecidableEq, Repr

/-- A PGATHER in progress: its shards, core, stream, instruction, tag, MB and kind, dimension, packets taken per (dimension, half, step)
(R393). -/
structure Gath where
  recs : List GRec
  site : Nat
  st : Strm
  ord : Nat
  ctx : Nat
  ep : Nat
  tag : Nat
  off : Nat
  dim : Nat
  taken : List (Nat × Nat)
deriving DecidableEq, Repr

/-- A PERMUTE in progress (R396, R397): context, command, plan, send records still to request (by number), members whose sends failed,
step of R396, status of this channel's first failing send. -/
structure Perm where
  ctx : Nat
  cmd : Nat
  plan : Nat
  left : List Nat
  bad : Nat
  step : Nat
  det : Nat
deriving DecidableEq, Repr

/-- The tatting engine: reduction queue as (context, bucket), passes, chain collectives, gathers, packets held for collectives that
have not begun, PERMUTEs (R380 to R397). -/
structure TatSt where
  queue : List (Nat × Nat)
  passes : List Pass
  chains : List Chain
  gathers : List Gath
  held : List (Nat × Pkt)
  perms : List Perm
deriving DecidableEq, Repr

def TatSt.reset : TatSt := ⟨[], [], [], [], [], []⟩

/-- A command that has started and not completed: its number, queue, identifier, the completion queue that its queue named when it
started, opcode, context (R407, R416). -/
structure Cmd where
  id : Nat
  sq : Nat
  cid : Nat
  cq : Nat
  opc : Nat
  ctx : Nat
deriving DecidableEq, Repr

/-- A completion whose command has ended (R415). -/
structure Compl where
  sq : Nat
  cid : Nat
  cq : Nat
  status : Nat
  detail : Nat
  res : Nat
deriving DecidableEq, Repr

/-- A load whose checks have passed and which waits for the queues to drain (R195): command, context, bundle address. -/
structure LoadWait where
  id : Nat
  ctx : Nat
  bundle : Nat
deriving DecidableEq, Repr

/-- The host port beside its registers (R399 to R430): commands in progress, the number of the next, last queue served per level,
queues whose next command cannot start yet, latched tails and heads by queue, entries that a rinse ends by queue, entries written
and not covered since the last vector by completion queue, loads that wait, completions due, replies that wait as (mailbox, word). -/
structure HostSt where
  cmds : List Cmd
  next : Nat
  last : List Nat
  blocked : List Nat
  tails : List (Nat × Nat)
  heads : List (Nat × Nat)
  marks : List (Nat × Nat)
  uncovered : List (Nat × Nat)
  loads : List LoadWait
  compl : List Compl
  replies : List (Nat × Nat)
deriving DecidableEq, Repr

def HostSt.reset : HostSt := ⟨[], 0, [63, 63, 63, 63], [], [], [], [], [], [], [], []⟩

/-- A rinse identity (R460): origin, OSEQ, CAUSE. -/
structure Rid where
  origin : Nat
  oseq : Nat
  cause : Nat
deriving DecidableEq, Repr

/-- A view: identities, jobs with their epochs, lost channels, whether a list overflowed (R463). -/
structure RView where
  rids : List Rid
  jobs : List (Nat × Nat)
  lost : List Nat
  ovf : Bool
deriving DecidableEq, Repr

def RView.empty : RView := ⟨[], [], [], false⟩

/-- The rinse of a channel beside FLT_STATUS: its view, first identity, when it began, whether a STOP fault began it, views held for the next rinse, the CAUSE of a fault that waits for it, the identities of the last rinse, the lost set
that it agreed (R451, R459 to R469). -/
structure RinseSt where
  view : RView
  first : Rid
  began : Nat
  alone : Bool
  held : List RView
  cause : Option Nat
  seen : List Rid
  lost : List Nat
deriving DecidableEq, Repr

def RinseSt.reset : RinseSt := ⟨.empty, ⟨0, 0, 0⟩, 0, false, [], none, [], []⟩

/-- The boot block and the sequencers beside their registers (R431 to R448): the running image's HANDOVER, KEYIDX and SVN, the step of a
mend (0 none, 3 it waits, 4 it parks, 5 it tries again later), the tries of its step 4, what a staging or OTP_COMMIT is to write, the
code banks by sequencer * 2 + bank and the data memories as loaded. -/
structure FwSt where
  handover : Nat
  keyidx : Nat
  svn : Nat
  mend : Nat
  tries : Nat
  stage : List Byte
  otpNew : List Byte
  banks : List (Nat × List Byte)
  dmem : List (Nat × List Byte)
deriving DecidableEq, Repr

def FwSt.reset : FwSt := ⟨0, 0, 0, 0, 0, [], [], [], []⟩

/-- An entry into a power state in progress: target, requester, the step of R481 that it has come to, the wake event that has come
(source, port). -/
structure PwrEntry where
  target : Nat
  who : Nat
  step : Nat
  wake : Option (Nat × Nat)
deriving DecidableEq, Repr

/-- A DVFS transition of a half in progress: divisor and rail still to be set, the identity that asked (R488 to R490). -/
structure Dvfs where
  div : Option Nat
  vsel : Option Nat
  who : Nat
deriving DecidableEq, Repr

/-- One half: transition in progress, VSEL last accepted, the last temperature in 1/8 degree, the causes of its cap: thermal, rail
(R488 to R493). -/
structure HalfSt where
  tr : Option Dvfs
  vselT : Nat
  temp : Int
  hot : Bool
  rail : Bool
deriving DecidableEq, Repr

def HalfSt.reset : HalfSt := ⟨none, 50, 0, false, false⟩

/-- A host access that waits until the channel has woken (R485): a register write or read, of 64 bits where `wide`, a BAR2 write or
read. -/
inductive HostAcc where
  | wr (m : Master) (a v : Nat) (wide : Bool)
  | rd (a : Nat) (wide : Bool)
  | memWr (a : Nat) (data : List Byte)
  | memRd (a len : Nat)
deriving DecidableEq, Repr

/-- PSEQ and the AON island beside their registers: entry, exit under way, wake pin armed, halves, input alarm, a STOP fault that
waits for C4, rails removed, acknowledgements that PSEQ waits for as (node, command), accesses that wait with the time that they
came (R478 to R495). -/
structure PwrSt where
  entry : Option PwrEntry
  exit : Bool
  armed : Bool
  west : HalfSt
  east : HalfSt
  alarm : Bool
  stop : Bool
  removed : Bool
  acks : List (Nat × Nat)
  waits : List (Nat × HostAcc)
deriving DecidableEq, Repr

def PwrSt.reset : PwrSt := ⟨none, false, true, .reset, .reset, false, false, false, [], []⟩

/-- A channel's OTP array (R33, R36, R441): grade, site map, the factory area's values, programmed bytes of the four generation
records (key record * 256 + offset). -/
structure Otp where
  grade : Nat
  sites : Nat
  devid : Nat
  devpub : Nat
  devcert : Nat
  recs : List (Nat × Byte)
deriving DecidableEq, Repr

/-- DESIGN CHOICE (log 7): grade A with the disabled sites of the example at R37: 7, 38, 61 and 94; nothing else programmed. -/
def Otp.reset : Otp :=
  { grade := 1, sites := 2 ^ 100 - 1 - 2 ^ 7 - 2 ^ 38 - 2 ^ 61 - 2 ^ 94, devid := 0, devpub := 0, devcert := 0, recs := [] }

/-- What a channel knows of its way to the host: held in reset, bridge link, PCIe port up, its function in D3hot (R26, R401, R501). -/
structure HostLink where
  held : Bool
  link : Bool
  pcie : Bool
  d3 : Bool
deriving DecidableEq, Repr

def HostLink.reset : HostLink := ⟨false, false, false, false⟩

/-- The MSI-X table of a channel's function, in 32-bit words (word 4 v + j is word j of entry v), and the vectors whose pending bit is 1
(R402, R421). -/
structure VecSt where
  table : List (Nat × Word)
  pend : List Nat
deriving DecidableEq, Repr

def VecSt.reset : VecSt := ⟨[], []⟩

end Sys2Proof.Machine
end

