-- ==== Sys2Proof/Machine/State.lean ====
section
/-! DEFINITION. The state of the module: four channels, the bridge die, the queue of waiting commands. -/

namespace Sys2Proof.Machine

open Sys2Proof

/-- Why a command stops the model. -/
inductive Fault where
  /-- For an outcome that the spec calls undefined and gives no effect. No meaning raises it: the spec gives every command one. Safe. -/
  | undefinedOutcome (rule : String)
deriving DecidableEq, Repr

/-- Why a command is refused. -/
inductive Refusal where
  /-- For a command whose meaning is not written. No arm raises it: all are. Safe. -/
  | notModelled (mnemonic : String)
deriving DecidableEq, Repr

/-- What leaves the module or a bus master receives, newest first in `Channel.out` and `State.out`. PF0 stands as channel 4;
`aer` is a report of a non-fatal error (R400). A codeword stands with whether it is a marker and with the levels of its unit intervals on
each lane (R337); those of P0 and P1 stay in the package and reach the neighbouring channel (R21, R22). -/
inductive Out where
  | msix (ch : Nat) (vec : Nat)
  | hostWrite (ch : Nat) (addr : Nat) (data : List Byte)
  | readData (ch : Nat) (data : List Byte)
  | smbus (addr : Nat) (data : List Byte)
  | codeword (ch port : Nat) (marker : Bool) (cw : BitVec 5440) (lanes : List (List Nat))
  | nack
  | aer (ch : Nat)
deriving DecidableEq, Repr

/-- One channel. -/
structure Channel where
  num : Nat
  regs : List (Nat × Word)
  mem : List (Nat × Byte)
  cores : List (Nat × Core)
  faultq : List FaultMsg
  cmsgs : List CMsg
  mesh : MeshSt
  merges : List MergeEnt
  qlines : List QFlight
  qcreds : List QCredit
  corr : List Nat
  scrub : List (Nat × Nat)
  mscrub : List (Nat × Nat)
  flash : FlashSt
  kt5 : Kt5St
  bkts : List (Nat × Bkt)
  steps : List (Nat × StepSt)
  yl : YlSt
  tat : TatSt
  host : HostSt
  rinse : RinseSt
  fw : FwSt
  bflash : List (Nat × Byte)
  pwr : PwrSt
  way : HostLink
  vecs : VecSt
  dark : Bool
  out : List Out
  otp : Otp
  ts : Nat
deriving DecidableEq, Repr

def Channel.reset (n : Nat) : Channel :=
  { num := n, regs := [], mem := [], cores := [], faultq := [], cmsgs := [], mesh := .reset, merges := [], qlines := [], qcreds := [],
    corr := [], scrub := [], mscrub := [], flash := .reset, kt5 := .reset, bkts := [], steps := [], yl := .reset, tat := .reset, host := .reset, rinse := .reset, fw := .reset,
    bflash := [], pwr := .reset, way := .reset, vecs := .reset, dark := false, out := [], otp := .reset, ts := 0 }

/-- The module's pins and supplies: MRST_N and PERST# asserted, PRSNT_N closed, conversion running, 3V3_AUX applied, PF0 in D3hot,
the straps SA0, SA1 and CLKSEL from bit 0 on as they are tied, and as last sampled (R401, R500 to R505). -/
structure Pins where
  mrst : Bool
  perst : Bool
  prsnt : Bool
  conv : Bool
  aux : Bool
  d3 : Bool
  straps : BitVec 3
  sampled : BitVec 3
deriving DecidableEq, Repr

/-- DESIGN CHOICE (log 7): the module just after MRST_N has risen: powered, seated, PERST# still asserted. -/
def Pins.reset : Pins := ⟨false, true, true, true, true, false, 0, 0⟩

/-- The module. -/
structure State where
  ch0 : Channel
  ch1 : Channel
  ch2 : Channel
  ch3 : Channel
  mod : List (Nat × Word)
  pins : Pins
  out : List Out
  free : Nat
  pending : List Instr
deriving DecidableEq, Repr

def State.reset : State :=
  { ch0 := .reset 0, ch1 := .reset 1, ch2 := .reset 2, ch3 := .reset 3, mod := [], pins := .reset, out := [], free := 0, pending := [] }

end Sys2Proof.Machine
end

