-- ==== Sys2Proof/Machine/Ops.lean ====
section
/-! DEFINITION. The named operations over a channel: registers, cores, memories, faults, counters. -/

namespace Sys2Proof.Machine

open Sys2Proof

/-! ### Registers -/

/-- Whether an offset from the row's base is one of the row's registers. -/
def dimsHit : List (Nat × Nat) → Nat → Bool
  | [], r => r == 0
  | (n, st) :: t, r => decide (r / st < n) && dimsHit t (r % st)

def rowHit (off : Nat) (r : RegRow) : Bool := decide (r.base ≤ off) && dimsHit r.dims (off - r.base)

/-- Where the core register blocks end (R515). -/
def coreEnd : Nat := 0x0164_0000

/-- Whether a channel address lies in a core register block (R516). -/
def inCoreBlock (a : Nat) : Bool := decide (0x0100_0000 ≤ a) && decide (a < coreEnd)

/-- The core whose block holds a, and the offset in it. -/
def coreOf (a : Nat) : Nat := (a - 0x0100_0000) / 0x1_0000
def coreOff (a : Nat) : Nat := (a - 0x0100_0000) % 0x1_0000

/-- The table group that holds the registers near an offset (R515, R516). -/
def regGroup (a : Nat) : List RegRow :=
  if inCoreBlock a then (if coreOff a < 0x600 then regTable_coreLo else regTable_coreHi)
  else if a < 0x2000 then regTable_f01
  else if a < 0x2300 then regTable_f02
  else if a < 0x2400 then regTable_f06
  else if a < 0x2500 then regTable_f07
  else if a < 0x2900 then regTable_f10
  else if a < 0x2A00 then regTable_f11
  else if a < 0x2B00 then regTable_f12
  else if a < 0x3000 then regTable_f13
  else if a < 0x4000 then regTable_f03
  else if a < 0x6000 then regTable_f07
  else if a < 0x7000 then regTable_f12
  else if a < 0x8000 then regTable_f13
  else if a < 0xB100 then regTable_f14
  else if a < 0xD000 then regTable_f15
  else if a < 0xE000 then regTable_f16
  else if a < 0x2_0000 then regTable_f17
  else regTable_f16

/-- The register at a channel address, if one is assigned there (R514 to R516). -/
def regRow (a : Nat) : Option RegRow :=
  (regGroup a).find? (rowHit (if inCoreBlock a then coreOff a else a))

/-- The reset value of a register, from its field table. -/
def rowReset (r : RegRow) : Nat := r.fields.foldl (fun x f => x + f.reset * 2 ^ f.lo) 0

/-- What a register that nothing has written holds. -/
def regDefault (a : Nat) : Word :=
  match regRow a with
  | some r => BitVec.ofNat 32 (rowReset r)
  | none => 0

/-- The stored value of the register at a. -/
def Channel.rd (c : Channel) (a : Nat) : Nat := (mget regDefault c.regs a).toNat

/-- Stores a register. -/
def Channel.wr (c : Channel) (a v : Nat) : Channel := { c with regs := mset regDefault c.regs a (BitVec.ofNat 32 v) }

/-- A field of a stored register. -/
def Channel.fld (c : Channel) (a : Nat) (f : Fld) : Nat := bits (c.rd a) f.lo f.w

/-- Stores a field of a register. -/
def Channel.setFld (c : Channel) (a : Nat) (f : Fld) (v : Nat) : Channel := c.wr a (setBits (c.rd a) f.lo f.w v)

/-- Adds n to a saturating field (R11). -/
def Channel.addFld (c : Channel) (a : Nat) (f : Fld) (n : Nat) : Channel := c.setFld a f (satAdd f.w (c.fld a f) n)

/-- Adds n to a whole-word counter (R11). -/
def Channel.count (c : Channel) (a n : Nat) : Channel := if n = 0 then c else c.wr a (satAdd 32 (c.rd a) n)

/-- Raises a maximum field to at least v, saturating. -/
def Channel.raiseFld (c : Channel) (a : Nat) (f : Fld) (v : Nat) : Channel :=
  c.setFld a f (max (c.fld a f) (min v (2 ^ f.w - 1)))

/-! ### Cores and the module -/

def Channel.core (c : Channel) (i : Nat) : Core := mget (fun _ => Core.reset) c.cores i

def Channel.setCore (c : Channel) (i : Nat) (k : Core) : Channel :=
  { c with cores := mset (fun _ => Core.reset) c.cores i k }

def State.chan (s : State) (k : Chan) : Channel :=
  match k.val with
  | 0 => s.ch0
  | 1 => s.ch1
  | 2 => s.ch2
  | _ => s.ch3

def State.setChan (s : State) (k : Chan) (c : Channel) : State :=
  match k.val with
  | 0 => { s with ch0 := c }
  | 1 => { s with ch1 := c }
  | 2 => { s with ch2 := c }
  | _ => { s with ch3 := c }

/-- Applies a channel function to channel k. -/
def State.onChan (s : State) (k : Chan) (f : Channel → Channel) : State := s.setChan k (f (s.chan k))

/-- Applies a channel function to every channel. -/
def State.onAll (s : State) (f : Channel → Channel) : State :=
  { s with ch0 := f s.ch0, ch1 := f s.ch1, ch2 := f s.ch2, ch3 := f s.ch3 }

/-- At each whole millisecond: PWR_TIMEs of the state, and PWR_THRMS while a half is capped (R492). -/
def Channel.milli (c : Channel) : Channel :=
  if c.ts % 100000 ≠ 0 then c
  else
    let c1 := c.count (Reg.PWR_TIME (c.fld Reg.PWR_STATUS Fl.PWR_STATUS_STATE)) 1
    if 2 < c1.fld (Reg.PWR_HALF 0) Fl.PWR_HALF_CAP ∨ 2 < c1.fld (Reg.PWR_HALF 1) Fl.PWR_HALF_CAP then c1.count Reg.PWR_THRMS 1 else c1

/-- A SLOW tick in which a lookup waits for a swap of the flash map is counted (R296). -/
def Channel.mapStall (c : Channel) : Channel :=
  if c.fld Reg.FLASH_STATUS Fl.FLASH_STATUS_SWAP_BUSY = 1 ∧ !c.flash.waiting.isEmpty then c.count Reg.FLASH_MAPSTALL 1 else c

/-- 10 ns pass: the timestamps advance (R6, log 2). -/
def State.tick (s : State) : State := s.onAll (fun c => (Channel.milli { c with ts := (c.ts + 1) % 2 ^ 64 }).mapStall)

/-- Records something that leaves the module. -/
def State.emit (s : State) (o : Out) : State := { s with out := o :: s.out }

def State.emits (s : State) (os : List Out) : State := { s with out := os.reverse ++ s.out }

/-- The outcome of every meaning that goes on. -/
abbrev Outc := Host.Outcome State Fault Refusal

/-- The stream of a core. -/
def Core.str (k : Core) (st : Strm) : Stream :=
  match st with
  | .f => k.f
  | .b => k.b
  | .u => k.u

def Core.setStr (k : Core) (st : Strm) (x : Stream) : Core :=
  match st with
  | .f => { k with f := x }
  | .b => { k with b := x }
  | .u => { k with u := x }

def strmNum (st : Strm) : Nat :=
  match st with
  | .f => 0
  | .b => 1
  | .u => 2

def Core.rcOf (k : Core) (r : Rc) : Option RunInfo :=
  match r with
  | .r0 => k.rc0
  | .r1 => k.rc1
  | .u => k.rcU

def Core.setRc (k : Core) (r : Rc) (x : Option RunInfo) : Core :=
  match r with
  | .r0 => { k with rc0 := x }
  | .r1 => { k with rc1 := x }
  | .u => { k with rcU := x }

def Core.queue (k : Core) (q : Nat) : Queue := mget (fun _ => Queue.reset) k.queues q

def Core.setQueue (k : Core) (q : Nat) (x : Queue) : Core :=
  { k with queues := mset (fun _ => Queue.reset) k.queues q x }

/-! ### Sites -/

/-- Whether a site's core is enabled (R33, R36). -/
def Channel.enabled (c : Channel) (i : Nat) : Bool := decide (i < 100) && c.otp.sites.testBit i

/-- Whether a site's core is fenced (R60). -/
def Channel.fenced (c : Channel) (i : Nat) : Bool := (c.rd (Reg.MESH_FENCE (i / 32))).testBit (i % 32)

/-- Whether a site has a core in service (R35, R59). -/
def Channel.usable (c : Channel) (i : Nat) : Bool := c.enabled i && !c.fenced i

/-- The epoch of a context (R194). -/
def Channel.config (c : Channel) (x : Nat) : Nat := c.fld (Reg.CTX_EPOCH x) Fl.CTX_EPOCH_CONFIG

/-- States of a context (R90). -/
def ctxEmpty : Nat := 0
def ctxReady : Nat := 1
def ctxStep : Nat := 2
def ctxRinse : Nat := 3

def Channel.ctxState (c : Channel) (x : Nat) : Nat := c.fld (Reg.CTX_STATE x) Fl.CTX_STATE_STATE

def Channel.setCtxState (c : Channel) (x v : Nat) : Channel := c.setFld (Reg.CTX_STATE x) Fl.CTX_STATE_STATE v

/-- Whether some context is in STEP or RINSE (R212, R306, R456). -/
def Channel.anyBusy (c : Channel) : Bool := (List.range 16).any (fun x => decide (2 ≤ c.ctxState x))

/-- The condition of R108 for host writes to a core: its context EMPTY or READY, or the core unowned. -/
def Channel.hostMayWrite (c : Channel) (i : Nat) : Bool :=
  match (c.core i).owner with
  | none => true
  | some x => decide (c.ctxState x ≤ 1)

/-- CTX_PRESS of a context. -/
def Channel.press (c : Channel) (x : Nat) : Nat := c.rd (Reg.CTX_PRESS x)

/-- The sites a context owns. -/
def Channel.ownedSites (c : Channel) (x : Nat) : List Nat :=
  (List.range 100).filter (fun i => (c.core i).owner == some x)

/-! ### Faults -/

/-- A block raises a fault: its FAULT message goes on its way to the fault unit (R449). -/
def Channel.raise (c : Channel) (m : FaultMsg) : Channel := { c with faultq := c.faultq ++ [m] }

def mkFault (node code : Nat) (x : Option Nat) (arg0 arg1 : Nat) : FaultMsg :=
  { node := Fin.ofNat 128 node, code := BitVec.ofNat 8 code, ctx := Fin.ofNat 16 (x.getD 0), ctxv := x.isSome,
    arg0 := BitVec.ofNat 32 arg0, arg1 := BitVec.ofNat 64 arg1 }

/-- Fault codes (R451). -/
def fcInstIllegal : Nat := 0x01
def fcInstStream : Nat := 0x02
def fcFetchBad : Nat := 0x03
def fcDescBad : Nat := 0x04
def fcAddrBad : Nat := 0x05
def fcDescFormat : Nat := 0x06
def fcShapeMismatch : Nat := 0x07
def fcShapeOvf : Nat := 0x08
def fcTackOvf : Nat := 0x09
def fcFrameSeq : Nat := 0x0A
def fcDeadlock : Nat := 0x0B
def fcNormNonfin : Nat := 0x0C
def fcWatchDisagree : Nat := 0x0D
def fcSpParity : Nat := 0x10
def fcBobUncorr : Nat := 0x11
def fcTierUncorr : Nat := 0x12
def fcMemUncorr : Nat := 0x13
def fcFlashUncorr : Nat := 0x14
def fcFlashRo : Nat := 0x15
def fcFlashDown : Nat := 0x16
def fcParamLoss : Nat := 0x17
def fcMeshUncorr : Nat := 0x20
def fcMeshStall : Nat := 0x21
def fcMeshUnreach : Nat := 0x22
def fcCnetUncorr : Nat := 0x23
def fcCoreLogic : Nat := 0x24
def fcYlLost : Nat := 0x30
def fcYlMiswire : Nat := 0x31
def fcYlStuck : Nat := 0x32
def fcYlEcrc : Nat := 0x33
def fcTatGroup : Nat := 0x38
def fcTatEntry : Nat := 0x39
def fcTatContrib : Nat := 0x3A
def fcTatEcrc : Nat := 0x3B
def fcTatTimeout : Nat := 0x3C
def fcPressTimeout : Nat := 0x3D
def fcBridgeLost : Nat := 0x40
def fcThermalTrip : Nat := 0x41
def fcRailFault : Nat := 0x42
def fcPllUnlock : Nat := 0x43
def fcRinseBegin : Nat := 0x50
def fcRinseEnd : Nat := 0x51
def fcFenceHost : Nat := 0x52

/-! ### The address map (R513) -/

/-- What a channel address names. -/
inductive Row where
  | regs
  | spad (site off : Nat)
  | bob (site off : Nat)
  | tier (off : Nat)
  | lp (off : Nat)
  | flash (off : Nat)
  | flat (off : Nat)
  | hole
deriving DecidableEq, Repr

def spadBase (c : Nat) : Nat := 0x4000_0000 + c * 0x20_0000
def bobBase (c : Nat) : Nat := 0x6000_0000 + c * 0x8_0000
def sliceBase (s : Nat) : Nat := 0x1_0000_0000 + s * 0x280_0000
def lpBase : Nat := 0x0100_0000_0000
def flashBase : Nat := 0x1000_0000_0000
def flatBase : Nat := 0x4000_0000_0000

/-- GiB of the KT5 range: the row of the address map (R513). -/
def Channel.flatSize (c : Channel) : Nat := c.fld Reg.KT5_MAP Fl.KT5_MAP_SIZE

/-- Whether the KT5 range is in service; otherwise its accesses have no effect and reads return 0 (R306). -/
def Channel.ktOn (c : Channel) : Bool := c.fld Reg.KT5_CTRL Fl.KT5_CTRL_EN == 1

def Channel.row (c : Channel) (a : Nat) : Row :=
  if a < 0x1000_0000 then .regs
  else if a < 0x4000_0000 then .hole
  else if a < 0x4C80_0000 then .spad ((a - 0x4000_0000) / 0x20_0000) ((a - 0x4000_0000) % 0x20_0000)
  else if a < 0x6000_0000 then .hole
  else if a < 0x6320_0000 then .bob ((a - 0x6000_0000) / 0x8_0000) ((a - 0x6000_0000) % 0x8_0000)
  else if a < 0x1_0000_0000 then .hole
  else if a < 0x1_FA00_0000 then .tier (a - 0x1_0000_0000)
  else if a < lpBase then .hole
  else if a < 0x0130_0000_0000 then .lp (a - lpBase)
  else if a < flashBase then .hole
  else if a < 0x1400_0000_0000 then .flash (a - flashBase)
  else if a < flatBase then .hole
  else if a - flatBase < c.flatSize * 2 ^ 30 then .flat (a - flatBase)
  else .hole

/-- What a byte that nothing has written reads as: 0. For flash the spec says so (R290), for a bobbin after reset too (R138);
elsewhere DESIGN CHOICE (log 8). -/
def memDefault (_ : Nat) : Byte := 0

/-- The canonical form of a channel's memory: addresses strictly rising, no entry equal to what an unlisted address reads as. -/
def Memory.wf (m : List Host.Cell) : Bool := mwf memDefault m

/-- The KT5 cache position of page p: home slice, set, tag (R308). -/
def Channel.ktPlace (c : Channel) (p : Nat) : Nat × Nat × Nat :=
  let tmb := max 1 (c.fld Reg.KT5_CTRL Fl.KT5_CTRL_TMB)
  (p % 100, p / 100 % tmb, p / (100 * tmb))

def ktKey (home set way : Nat) : Nat := (home * 64 + set) * 16 + way

/-- The way that holds page p, if one does. -/
def Channel.ktFind (c : Channel) (p : Nat) : Option Nat :=
  let (h, st, tg) := c.ktPlace p
  (List.range 16).find? (fun w =>
    match mget (fun _ => none) c.kt5.ways (ktKey h st w) with
    | some y => y.tag == tg
    | none => false)

/-- way_addr of R308. -/
def Channel.ktWayAddr (c : Channel) (home set way : Nat) : Nat :=
  sliceBase home + (40 - c.fld Reg.KT5_CTRL Fl.KT5_CTRL_TMB + set) * 2 ^ 20 + way * 2 ^ 16

/-- The backing address of flat offset o (R306). -/
def Channel.ktBack (c : Channel) (o : Nat) : Nat := lpBase + c.fld Reg.KT5_MAP Fl.KT5_MAP_LBASE * 2 ^ 30 + o

/-- Where the byte at flat offset o lies now: the tier copy on a hit, else the backing copy. -/
def Channel.ktAddr (c : Channel) (o : Nat) : Nat :=
  let p := o / 2 ^ 16
  let (h, st, _) := c.ktPlace p
  match c.ktFind p with
  | some w => c.ktWayAddr h st w + o % 2 ^ 16
  | none => c.ktBack o

/-- The buffered unit that holds flash unit u. -/
def Channel.flashBuf (c : Channel) (u : Nat) : Option BufUnit := c.flash.buf.find? (fun b => b.unit == u)

/-- A flash byte as a read returns it: zeros once the controller has failed (R303), the write buffer over what is durable
(R291). -/
def Channel.flashByte (c : Channel) (off : Nat) : Byte :=
  if c.fld Reg.FLASH_STATUS Fl.FLASH_STATUS_FAILED = 1 then 0
  else
    match c.flashBuf (off / 0x4000) with
    | some b => match b.bytes.find? (fun e => e.1 == off % 0x4000) with
      | some e => e.2
      | none => mget memDefault c.mem (flashBase + off)
    | none => mget memDefault c.mem (flashBase + off)

/-- One byte of the channel's address space as a read returns it. -/
def Channel.ldByte (c : Channel) (a : Nat) : Byte :=
  match c.row a with
  | .spad i _ => if c.usable i then mget memDefault c.mem a else 0
  | .bob i _ => if c.usable i then mget memDefault c.mem a else 0
  | .tier _ => mget memDefault c.mem a
  | .lp _ => mget memDefault c.mem a
  | .flash o => c.flashByte o
  | .flat o => if c.ktOn then mget memDefault c.mem (c.ktAddr o) else 0
  | .regs => 0
  | .hole => 0

/-! ### What a tier slice sends back (R57, R58) -/

/-- A flit that a unit at router r is about to inject. -/
def Channel.meshOffer (c : Channel) (r : Nat) (f : Flit) : Channel :=
  { c with mesh := { c.mesh with flits := c.mesh.flits ++ [⟨r, .loc, f⟩] } }

/-- A flit of a slice's answer. -/
def sliceFlit (slice dst : Nat) (sub : Fin 8) (kind : Fin 8) (tag : BitVec 16) (data : Nat) (mask : Nat) : Flit :=
  { dst := Fin.ofNat 128 dst, sub := sub, src := Fin.ofNat 128 slice, srcsub := 1, vc := true, gen := false, tag := tag, kind := kind,
    data := BitVec.ofNat 1024 data, mask := BitVec.ofNat 100 mask }

/-- The requesters, as (site, tag), that the next multicast serves: at most 32, one for each site, by increasing site. -/
def castNext (l : List (Nat × Nat)) : List (Nat × Nat) := ((List.range 100).filterMap (fun i => l.find? (fun e => e.1 == i))).take 32

/-- One multicast: its header and data flit, without flits where the stream port alone is served (the slice's own site). -/
def Channel.castOne (c : Channel) (slice data : Nat) (l : List (Nat × Nat)) : Channel :=
  let m := l.foldl (fun m e => m + 2 ^ e.1) 0
  let tags := (l.zip (List.range l.length)).foldl (fun x e => x + e.1.2 * 2 ^ (112 + 16 * e.2)) 0
  let dst := ((l.find? (fun e => e.1 != slice)).map (·.1)).getD slice
  if l.all (fun e => e.1 == slice) then c
  else (c.meshOffer slice (sliceFlit slice dst 0 4 0 (m + tags) m)).meshOffer slice (sliceFlit slice dst 0 5 0 data m)

/-- The data goes to all requesters of a list, in as many multicasts as it takes; one alone gets a reply (R58). -/
def Channel.castAll (c : Channel) (slice data : Nat) (l : List (Nat × Nat)) : Nat → Channel
  | 0 => c
  | n + 1 =>
    if l.isEmpty then c
    else
      let now := castNext l
      (c.castOne slice data now).castAll slice data (now.foldl (fun l e => eraseFirst e l) l) n

/-- The answer of a merge entry: a requester alone gets a reply, several a multicast. -/
def Channel.mergeAnswer (c : Channel) (e : MergeEnt) : Channel :=
  let data := leNat ((List.range 128).map (fun b => mget memDefault c.mem (sliceBase e.slice + e.line * 128 + b)))
  match e.waiting with
  | [(site, tag)] => if site = e.slice then c else c.meshOffer e.slice (sliceFlit e.slice site 0 1 (BitVec.ofNat 16 tag) data 0)
  | l => c.castAll e.slice data l l.length

/-- The merge entry of a line closes: its requesters get the line as it is now (R57; that they get it then is the model's choice, log 152). -/
def Channel.mergeShut (c : Channel) (slice line : Nat) : Channel :=
  match c.merges.find? (fun m => m.slice == slice && m.line == line) with
  | none => c
  | some e => { c.mergeAnswer e with merges := c.merges.filter (fun m => !(m.slice == slice && m.line == line)) }

/-- The word at a has been written: no correction of it is written back any more (R282). -/
def Channel.wroteWord (c : Channel) (a : Nat) : Channel := { c with corr := c.corr.filter (fun x => x != a) }

/-- Stores one byte at a place that is plain memory. -/
def Channel.poke (c : Channel) (a : Nat) (b : Byte) : Channel := { c with mem := mset memDefault c.mem a b }

/-- Marks the cached page dirty when it is written (R308). -/
def Channel.ktDirty (c : Channel) (o : Nat) : Channel :=
  let p := o / 2 ^ 16
  let (h, st, tg) := c.ktPlace p
  match c.ktFind p with
  | some w =>
    let u := (mget (fun _ => none) c.kt5.ways (ktKey h st w)).elim 0 (·.used)
    { c with kt5 := { c.kt5 with ways := mset (fun _ => none) c.kt5.ways (ktKey h st w) (some ⟨tg, true, u⟩) } }
  | none => c

/-- One byte into the flash write buffer (R291); read-only and failed flash ignore it (R301, R303). -/
def Channel.flashPut (c : Channel) (off : Nat) (b : Byte) (offl : Bool) : Channel :=
  if c.fld Reg.FLASH_STATUS Fl.FLASH_STATUS_FAILED = 1 ∨ c.fld Reg.FLASH_STATUS Fl.FLASH_STATUS_RO = 1 then c
  else
    let u := off / 0x4000
    let d : BufUnit := (c.flashBuf u).getD ⟨u, [], offl, false⟩
    let bs := (off % 0x4000, b) :: d.bytes.filter (fun e => e.1 != off % 0x4000)
    let d : BufUnit := { d with bytes := bs, due := d.due || decide (bs.length = 0x4000) }
    let c := { c with flash := { c.flash with buf := c.flash.buf.filter (fun (x : BufUnit) => x.unit != u) ++ [d] } }
    c.setFld Reg.FLASH_STATUS Fl.FLASH_STATUS_DIRTY 1

/-- One byte stored through the address map; holes, registers and cores out of service ignore it (R514, R35, R59). -/
def Channel.stByte (c : Channel) (a : Nat) (b : Byte) (offl : Bool) : Channel :=
  match c.row a with
  | .spad i _ => if c.usable i then c.poke a b else c
  | .bob i _ => if c.usable i then c.poke a b else c
  | .tier o => ((c.mergeShut (o / 0x280_0000) (o % 0x280_0000 / 128)).wroteWord (a / 64 * 64)).poke a b
  | .lp _ => (c.wroteWord (a / 64 * 64)).poke a b
  | .flash o => c.flashPut o b offl
  | .flat o => if c.ktOn then (c.poke (c.ktAddr o) b).ktDirty o else c
  | .regs => c
  | .hole => c

/-- n bytes from address a. -/
def Channel.ld (c : Channel) (a : Nat) : Nat → List Byte
  | 0 => []
  | n + 1 => c.ldByte a :: c.ld (a + 1) n

/-- Bytes stored from address a on. -/
def Channel.st (c : Channel) (a : Nat) (offl : Bool) : List Byte → Channel
  | [] => c
  | b :: t => (c.stByte a b offl).st (a + 1) offl t

/-- A little-endian number of n bytes (R7). -/
def Channel.ldN (c : Channel) (a n : Nat) : Nat := leNat (c.ld a n)

/-- The raw 512 bits of descriptor i of core k's table (R102, R108). -/
def Channel.descRaw (c : Channel) (k i : Nat) : Nat :=
  (List.range 16).foldl (fun x j => x + c.rd (Reg.CORE_DESC k i 0 + 4 * j) <<< (32 * j)) 0

/-- Writes 64-bit word j of descriptor i. -/
def Channel.setDescWord (c : Channel) (k i j v : Nat) : Channel :=
  (c.wr (Reg.CORE_DESC k i j) (v % 2 ^ 32)).wr (Reg.CORE_DESC k i j + 4) (v / 2 ^ 32 % 2 ^ 32)

/-- Writes a whole descriptor. -/
def Channel.setDesc (c : Channel) (k i v : Nat) : Channel :=
  (List.range 8).foldl (fun c j => c.setDescWord k i j (v >>> (64 * j) % 2 ^ 64)) c

/-- A bobbin element's address in its core's window (R225). -/
def bobAddr (core j i k : Nat) : Nat := bobBase core + j * 0x8000 + (i * 64 + k) * 8

/-- The zeroing of a bobbin (R229). -/
def Channel.bobClear (c : Channel) (core j : Nat) : Channel :=
  { c with mem := mclear c.mem (bobAddr core j 0 0) (bobAddr core (j + 1) 0 0) }

def Channel.bobGet (c : Channel) (core j i k : Nat) : F32C := cOfBits (leNat ((List.range 8).map (fun b => mget memDefault c.mem (bobAddr core j i k + b))))

def Channel.bobSet (c : Channel) (core j i k : Nat) (v : F32C) : Channel :=
  (List.range 8).foldl (fun c b => c.poke (bobAddr core j i k + b) (BitVec.ofNat 8 (cBits v >>> (8 * b)))) c

/-- Microseconds since a timestamp (R6: 100 ticks of 10 ns). -/
def Channel.usSince (c : Channel) (t : Nat) : Nat := (c.ts - t) / 100

end Sys2Proof.Machine
end

