-- ==== Sys2Proof/Machine/Served.lean ====
section
/-! DEFINITION. The memory controllers' part of an access, whoever makes it: fenced windows (R59), units of LPDDR5X (R284, R286), NAND and
its blocks (R289, R294 to R302), lines of the KT5 range (R308, R309). -/

namespace Sys2Proof.Machine

open Sys2Proof

/-- The units of n bytes that a range touches, with whether it covers each whole. -/
def touched (n a len : Nat) : List (Nat × Bool) :=
  if len = 0 then []
  else (rangeFrom (a / n) ((a + len - 1) / n + 1 - a / n)).map (fun u => (u * n, decide (a ≤ u * n ∧ u * n + n ≤ a + len)))

/-- Whether an address lies in the windows of a fenced core (R59). -/
def Channel.fencedWindow (c : Channel) (a : Nat) : Bool :=
  match c.row a with
  | .spad i _ => c.enabled i && c.fenced i
  | .bob i _ => c.enabled i && c.fenced i
  | .regs => inCoreBlock a && c.enabled (coreOf a) && c.fenced (coreOf a)
  | _ => false

/-! ### The control network (R63 to R68) -/

/-- Class, destination and source of a message: header bits [31:15]. -/
def CMsg.lane : CMsg → Nat
  | .barrier h _ => h.toNat / 2 ^ 15
  | .table n => 2 * 2 ^ 14 + n
  | .power h _ => h.toNat / 2 ^ 15
  | .mailbox h _ => h.toNat / 2 ^ 15

/-- Whether a message is on its way and the oldest of its class, source and destination (R68). -/
def Channel.msgNext (c : Channel) (m : CMsg) : Bool := c.cmsgs.find? (fun x => x.lane == m.lane) == some m

/-- A message with header hdr as its node receives it: a single-bit error is corrected and counted; a double-bit error loses the message
and is reported (R63). -/
def Channel.cnetRx (c : Channel) (dst hdr : Nat) (ecc : Ecc) (f : Channel → Channel) : Channel :=
  match ecc with
  | .clean => f c
  | .single => f (c.addFld Reg.CNET_CORR Fl.CNET_CORR_CORR 1)
  | .double => c.raise (mkFault dst fcCnetUncorr none dst hdr)

/-! ### LPDDR5X (R284, R286) -/

/-- The controller of an LPDDR5X offset (R284). -/
def memCtrl (off : Nat) : Nat :=
  let u := off / 256
  bits u 0 2 ^^^ bits u 8 2 ^^^ bits u 16 2 ^^^ bits u 24 2

/-- The read-modify-writes that a write of n bytes makes: its units of 256 bytes that it covers in part (R286). -/
def Channel.rmwCount (c : Channel) (a n : Nat) : Channel :=
  ((touched 256 a n).filter (fun u => !u.2)).foldl (fun c u => c.count (Reg.MEMC_RMW (memCtrl (u.1 - lpBase))) 1) c

/-! ### Flash -/

def Channel.fstat (c : Channel) (f : Fld) : Bool := c.fld Reg.FLASH_STATUS f == 1
def Channel.setFstat (c : Channel) (f : Fld) (b : Bool) : Channel := c.setFld Reg.FLASH_STATUS f (b2n b)

/-- A fault of the flash controller. -/
def Channel.flashFault (c : Channel) (code arg0 arg1 : Nat) : Channel := c.raise (mkFault 118 code none arg0 arg1)

/-- An increment of a 64-bit counter pair, which saturates (R11, R304). -/
def Channel.count64 (c : Channel) (l h n : Nat) : Channel :=
  let x := satAdd 64 (c.rd l + c.rd h * 2 ^ 32) n
  (c.wr l (x % 2 ^ 32)).wr h (x / 2 ^ 32)

def Channel.nandW (c : Channel) (n : Nat) : Channel := c.count64 Reg.FLASH_NANDWL Reg.FLASH_NANDWH n
def Channel.hostW (c : Channel) (n : Nat) : Channel := c.count64 Reg.FLASH_HOSTWL Reg.FLASH_HOSTWH n

/-! ### Blocks and the map (R295 to R300) -/

/-- Blocks of a channel: 5 TiB of 16 MiB (R289). -/
def nandBlocks : Nat := 327680

/-- Pages of a block (R289). -/
def blkPages : Nat := 1024

def blkDefault (_ : Nat) : NandBlk := ⟨0, 0, false, 0, false⟩
def Channel.blk (c : Channel) (b : Nat) : NandBlk := mget blkDefault c.flash.blocks b
def Channel.setBlk (c : Channel) (b : Nat) (k : NandBlk) : Channel := { c with flash := { c.flash with blocks := mset blkDefault c.flash.blocks b k } }

/-- The map of generation g: block + 1, or 0 for an unmapped unit. -/
def Channel.fmap (c : Channel) (g : Bool) (u : Nat) : Nat := mget (fun _ => 0) (if g then c.flash.map1 else c.flash.map0) u
def Channel.setFmap (c : Channel) (g : Bool) (u v : Nat) : Channel :=
  if g then { c with flash := { c.flash with map1 := mset (fun _ => 0) c.flash.map1 u v } }
  else { c with flash := { c.flash with map0 := mset (fun _ => 0) c.flash.map0 u v } }

/-- The active generation. -/
def Channel.fgen (c : Channel) : Bool := c.fstat Fl.FLASH_STATUS_MAP_GEN

/-- Free blocks beyond those that hold 4 TiB: 327,680 blocks of 16 MiB, 262,144 needed, none bad at test (log 7). -/
def Channel.spare (c : Channel) : Nat := 65536 - c.rd Reg.FLASH_GROWN

/-- The flash becomes read-only at a spare of 1,024 (R301). -/
def Channel.roCheck (c : Channel) : Channel :=
  if c.spare ≤ 1024 ∧ !c.fstat Fl.FLASH_STATUS_RO then
    let d := c.setFstat Fl.FLASH_STATUS_RO true
    d.flashFault fcFlashRo (d.rd Reg.FLASH_STATUS) 0
  else c

/-- Retires a block (R300). -/
def Channel.retireBlk (c : Channel) (b : Nat) : Channel :=
  if (c.blk b).bad then c else ((c.setBlk b { c.blk b with bad := true }).count Reg.FLASH_GROWN 1).roCheck

/-- The fewest erasures of a free block, one that holds no page (R298); blocks that nothing lists are free and have none. -/
def Channel.leastErased (c : Channel) : Nat :=
  let l := c.flash.blocks
  if l.length < nandBlocks then 0
  else (l.filter (fun e => !e.2.bad && e.2.pages == 0)).foldl (fun n e => min n e.2.erases) (l.foldl (fun n e => max n e.2.erases) 0)

/-- Whether the next page may be programmed into a block: it exists, is not retired and has a page left; an open block takes data of its own
kind, a free one is opened where it has the fewest erasures (R289, R298). -/
def Channel.blkTakes (c : Channel) (b : Nat) (off : Bool) : Bool :=
  let k := c.blk b
  decide (b < nandBlocks) && !k.bad && decide (k.pages < blkPages) && (if k.pages = 0 then k.erases == c.leastErased else k.off == off)

/-- The block that FSEQ chooses of its own: an open one, else a free one, the lowest first (DESIGN CHOICE, log 151). -/
def Channel.pickBlk (c : Channel) (off : Bool) : Nat :=
  let l := c.flash.blocks
  match l.find? (fun e => e.2.pages != 0 && c.blkTakes e.1 off) with
  | some e => e.1
  | none => ((List.range (min nandBlocks (l.length + 1))).find? (fun b => c.blkTakes b off)).getD 0

/-- A page has been programmed into a block (R304). -/
def Channel.pageIn (c : Channel) (b : Nat) (off : Bool) : Channel := (c.setBlk b { c.blk b with pages := (c.blk b).pages + 1, off := off }).nandW 1

/-- Units that a generation maps to a block, in increasing order. -/
def Channel.unitsIn (c : Channel) (g : Bool) (b : Nat) : List Nat := ((if g then c.flash.map1 else c.flash.map0).filter (fun e => e.2 == b + 1)).map (·.1)

/-- A swap starts (R296). -/
def Channel.swapStart (c : Channel) : Channel :=
  if c.fstat Fl.FLASH_STATUS_READY ∧ !c.fstat Fl.FLASH_STATUS_FAILED then c.setFstat Fl.FLASH_STATUS_SWAP_BUSY true else c

/-! ### Reads of NAND (R299, R302) -/

def flashUnit (u : Nat) : Nat := flashBase + u * 0x4000

/-- Replaces the durable contents of a unit. -/
def Channel.putUnit (c : Channel) (u : Nat) (data : List Byte) : Channel :=
  ((data.take 0x4000).zip (List.range 0x4000)).foldl (fun c e => c.poke (flashUnit u + e.2) e.1) c

/-- Whether a unit's data came with OFFLOADABLE: it lies in a block of that kind. -/
def Channel.unitKind (c : Channel) (u : Nat) : Bool := let b := c.fmap (!c.fgen) u; b != 0 && (c.blk (b - 1)).off

/-- A unit's new place, in the pending generation (R295). -/
def Channel.moveUnit (c : Channel) (u blk : Nat) : Channel :=
  let k := c.unitKind u
  ((c.setFmap (!c.fgen) u (blk + 1)).count Reg.FLASH_RELOC 1).pageIn blk k

/-- FSEQ relocates a unit to a block of its own choice. -/
def Channel.relocUnit (c : Channel) (u : Nat) : Channel := if c.fmap (!c.fgen) u = 0 then c else c.moveUnit u (c.pickBlk (c.unitKind u))

/-- FSEQ relocates a block's valid units (R299). -/
def Channel.relocBlk (c : Channel) (b : Nat) : Channel := (c.unitsIn (!c.fgen) b).foldl (fun c u => c.relocUnit u) c

/-- The count of page reads since a block's erase; at FLASH_RDTHR, 0 acting as 1, its units are relocated (R299). -/
def Channel.blkRead (c : Channel) (b : Nat) : Channel :=
  let n := (c.blk b).reads + 1
  let c1 := c.setBlk b { c.blk b with reads := n }
  if max 1 (c.rd Reg.FLASH_RDTHR) ≤ n ∧ !c.fstat Fl.FLASH_STATUS_SWAP_BUSY then c1.relocBlk b else c1

/-- A page read of a unit with its outcome; what cannot be corrected becomes the unit's data, with which it is relocated (R302). -/
def Channel.nandRead (c : Channel) (u source : Nat) (res : FlashRes) : Channel :=
  let b := c.fmap c.fgen u
  let c1 := if b = 0 then c else c.blkRead (b - 1)
  match res with
  | .uncorr data =>
    let c2 := (c1.putUnit u data).count Reg.FLASH_UCCNT 1
    let c3 := if c2.fld Reg.FLASH_UCSTAT Fl.FLASH_UCSTAT_VALID = 1 then c2
      else (c2.wr Reg.FLASH_UCSTAT (1 + source * 2)).wr Reg.FLASH_UCUNIT u
    c3.relocUnit u |>.flashFault fcFlashUncorr source (flashUnit u)
  | _ => c1

/-! ### Accesses (R290, R291, R293, R294) -/

/-- Enters a unit into the read cache as the last one read. -/
def Channel.cacheUnit (c : Channel) (u : Nat) : Channel :=
  let l := c.flash.cache.filter (fun x => x != u) ++ [u]
  { c with flash := { c.flash with cache := l.drop (l.length - 1024) } }

def unitsOf (off len : Nat) : List Nat := if len = 0 then [] else rangeFrom (off / 0x4000) ((off + len - 1) / 0x4000 + 1 - off / 0x4000)

/-- Whether the buffer holds every byte of a unit that an access asks for. -/
def Channel.buffered (c : Channel) (u off len : Nat) : Bool :=
  match c.flashBuf u with
  | none => false
  | some b =>
    let lo := max off (u * 0x4000) - u * 0x4000
    let hi := min (off + len) ((u + 1) * 0x4000) - u * 0x4000
    (rangeFrom lo (hi - lo)).all (fun i => b.bytes.any (fun e => e.1 == i))

/-- The units that an access touches. -/
def FlashReq.units (r : FlashReq) : List Nat :=
  match r with
  | .read a n _ => unitsOf a n
  | .write a d _ => unitsOf a d.length

/-- Whether an access must wait: an earlier one of a unit waits (R290), the map is not ready, a swap runs, an entry is STALE, or the buffer is
full. -/
def Channel.flashWaits (c : Channel) (us : List Nat) (write : Bool) : Bool :=
  c.flash.waiting.any (fun r => r.units.any us.contains) || !c.fstat Fl.FLASH_STATUS_READY || c.fstat Fl.FLASH_STATUS_SWAP_BUSY && !us.all (fun u => (c.flashBuf u).isSome)
  || us.any (fun u => c.flash.stale.contains u && (c.flashBuf u).isNone)
  || write && decide (2048 < (c.flash.buf.map (·.unit) ++ us.filter (fun u => (c.flashBuf u).isNone)).length)

/-- One read: from the buffer, the cache, NAND, or zeros for a unit never written. A read with STREAM does not enter the cache. -/
def Channel.flashServeR (c : Channel) (off len : Nat) (stream : Bool) (res : FlashRes) : Channel :=
  (unitsOf off len).foldl (fun c u =>
    if c.buffered u off len ∨ c.fmap c.fgen u = 0 then c
    else if c.flash.cache.contains u then (if stream then c else c.cacheUnit u)
    else
      let c1 := c.nandRead u 0 res
      if stream then c1 else c1.cacheUnit u) c

/-! ### Lines of the KT5 range (R308, R309) -/

def Channel.kt (c : Channel) (h st w : Nat) : Option KtWay := mget (fun _ => none) c.kt5.ways (ktKey h st w)
def Channel.setKt (c : Channel) (h st w : Nat) (y : Option KtWay) : Channel :=
  { c with kt5 := { c.kt5 with ways := mset (fun _ => none) c.kt5.ways (ktKey h st w) y } }

/-- Candidate counters of a set. -/
def candKey (h st : Nat) : Nat := h * 64 + st
def Channel.cands (c : Channel) (h st : Nat) : List (Nat × Nat) := mget (fun _ => []) c.kt5.cands (candKey h st)
def Channel.setCands (c : Channel) (h st : Nat) (l : List (Nat × Nat)) : Channel :=
  { c with kt5 := { c.kt5 with cands := mset (fun _ => []) c.kt5.cands (candKey h st) l } }

def Channel.ktHeatAt (c : Channel) : Nat := max 1 (c.fld Reg.KT5_CTRL Fl.KT5_CTRL_HEAT)

/-- The counter with the lowest count, the lowest number on a tie. -/
def lowestCand (l : List (Nat × Nat)) : Nat :=
  ((l.zip (List.range l.length)).foldl (fun (r : Nat × Nat) e => if e.1.2 < r.2 then (e.2, e.1.2) else r) (0, 16)).1

/-- A miss adds heat to its page: four counters of four bits in each set. -/
def heatList (l : List (Nat × Nat)) (p : Nat) : List (Nat × Nat) :=
  if l.any (fun e => e.1 == p) then l.map (fun e => if e.1 = p then (p, min 15 (e.2 + 1)) else e)
  else if l.length < 4 then l ++ [(p, 1)]
  else l.set (lowestCand l) (p, 1)

def Channel.ktHeat (c : Channel) (p : Nat) : Channel :=
  let (h, st, _) := c.ktPlace p
  let l := heatList (c.cands h st) p
  let c1 := c.setCands h st l
  if l.any (fun e => e.1 == p && decide (c.ktHeatAt ≤ e.2)) ∧ !c1.kt5.pend.contains p then
    { c1 with kt5 := { c1.kt5 with pend := c1.kt5.pend ++ [p] } }
  else c1

/-- One line, or part of one, of a flat-range access (R308). -/
def Channel.ktLine (c : Channel) (o : Nat) (data : List Byte) (cold : Bool) : Channel :=
  let p := o / 2 ^ 16
  let (h, st, _) := c.ktPlace p
  let c1 := { c with kt5 := { c.kt5 with clock := c.kt5.clock + 1 } }
  let c2 := match c1.ktFind p with
    | some w => (c1.setKt h st w ((c1.kt h st w).map (fun (y : KtWay) => (⟨y.tag, y.dirty, c1.kt5.clock⟩ : KtWay)))).count Reg.KT5_HITS 1
    | none => let d := c1.count Reg.KT5_MISSES 1; if cold then d else d.ktHeat p
  c2.st (flatBase + o) false data

/-- The pieces of a range that lie in one line each: offset, first byte, bytes. -/
def linePieces (o len : Nat) : List (Nat × Nat × Nat) :=
  (touched 128 o len).map (fun u => let lo := max o u.1; (lo, lo - o, min (o + len) (u.1 + 128) - lo))

/-! ### The accesses of an instruction (R59, R286, R291, R294, R301, R303, R305, R308)

An instruction reads and writes each line of its operands' spans once, at its issue, for these counts (DESIGN CHOICE, log 153). -/

/-- What the units read for n bytes at a do beside returning them; `stream` and `cold`: the descriptor's STREAM, and PIN or STREAM. -/
def Channel.accRd (c : Channel) (a n : Nat) (stream cold : Bool) : Channel :=
  match c.row a with
  | .flash o => if c.fstat Fl.FLASH_STATUS_FAILED then c.count Reg.FLASH_DROP 1 else c.flashServeR o n stream .clean
  | .flat o => if c.ktOn then (linePieces o n).foldl (fun c e => c.ktLine e.1 [] cold) c else c
  | _ => if c.fencedWindow a then c.count Reg.MESH_FENCEDROP (touched 128 a n).length else c

/-- What the units written with n bytes at a do beside storing them. -/
def Channel.accWr (c : Channel) (a n : Nat) (cold : Bool) : Channel :=
  match c.row a with
  | .flash _ => if c.fstat Fl.FLASH_STATUS_FAILED ∨ c.fstat Fl.FLASH_STATUS_RO then c.count Reg.FLASH_DROP 1 else c
  | .flat o => if c.ktOn then (linePieces o n).foldl (fun c e => c.ktLine e.1 [] cold) c else c
  | .lp _ => c.rmwCount a n
  | _ => if c.fencedWindow a then c.count Reg.MESH_FENCEDROP (touched 128 a n).length else c

/-- Whether the flash controller holds an access of n bytes at a back (R290, R291, R293, R296). -/
def Channel.accHeld (c : Channel) (a n : Nat) (write : Bool) : Bool :=
  match c.row a with
  | .flash o => !c.fstat Fl.FLASH_STATUS_FAILED && !(write && c.fstat Fl.FLASH_STATUS_RO) && c.flashWaits (unitsOf o n) write
  | _ => false

end Sys2Proof.Machine
end

