-- ==== Sys2Proof/Machine/Operands.lean ====
section
/-! DEFINITION. The instruction word's fields and the tensor descriptor: fields, extents, effective addresses, spans, block
scales, reading and writing one element (R93, R97, R102 to R107, R200, R201). -/

namespace Sys2Proof.Machine

open Sys2Proof

/-! ### Instruction word (R93, R97) -/

def iOpc (w : IWord) : Nat := bits w.toNat 118 10
def iPen (w : IWord) : Bool := bit w.toNat 117
def iPinv (w : IWord) : Bool := bit w.toNat 116
def iPsel (w : IWord) : Nat := bits w.toNat 113 3
def iWen (w : IWord) : Bool := bit w.toNat 112
def iWtack (w : IWord) : Nat := bits w.toNat 106 6
def iSen (w : IWord) : Bool := bit w.toNat 105
def iStack (w : IWord) : Nat := bits w.toNat 99 6
def iMsk (w : IWord) : Bool := bit w.toNat 96
def iFuse (w : IWord) : Bool := bit w.toNat 97
def iAcc (w : IWord) : Bool := bit w.toNat 98
def iMod (w : IWord) : Nat := bits w.toNat 96 3
/-- Layout T. -/
def iD0 (w : IWord) : Nat := bits w.toNat 87 9
def iD1 (w : IWord) : Nat := bits w.toNat 78 9
def iD2 (w : IWord) : Nat := bits w.toNat 69 9
def iD3 (w : IWord) : Nat := bits w.toNat 60 9
def iDm (w : IWord) : Nat := bits w.toNat 51 9
def iBob (w : IWord) : Nat := bits w.toNat 47 4
def iNbob (w : IWord) : Nat := bits w.toNat 43 4
def iEpi (w : IWord) : Nat := bits w.toNat 39 4
def iFunc (w : IWord) : Nat := bits w.toNat 32 7
def iImm (w : IWord) : Nat := bits w.toNat 0 32
/-- Layout C. -/
def iOff (w : IWord) : Int := signed 32 (bits w.toNat 64 32)
def iLc (w : IWord) : Nat := bits w.toNat 62 2
/-- Layout F. -/
def iCfn (w : IWord) : Nat := bits w.toNat 93 3
def iCmp (w : IWord) : Nat := bits w.toNat 90 3
def iFdidx (w : IWord) : Nat := bits w.toNat 81 9
/-- Layout S. -/
def iTack (w : IWord) : Nat := bits w.toNat 90 6
def iSite (w : IWord) : Nat := bits w.toNat 83 7
def iKind (w : IWord) : Nat := bits w.toNat 80 3
def iValue (w : IWord) : Nat := bits w.toNat 64 16
/-- Layout D. -/
def iDidx (w : IWord) : Nat := bits w.toNat 87 9
def iDsrc (w : IWord) : Nat := bits w.toNat 78 9
def iSel (w : IWord) : Bool := bit w.toNat 77
def iFrom (w : IWord) : Bool := bit w.toNat 76
def iWord (w : IWord) : Nat := bits w.toNat 73 3
def iVal64 (w : IWord) : Nat := bits w.toNat 0 64

/-! ### Descriptor fields (R102) -/

def dBase (d : Nat) : Nat := bits d 0 48
def dAlloc (d : Nat) : Nat := bits d 48 8
def dFmt (d : Nat) : Nat := bits d 56 4
def dNdim (d : Nat) : Nat := bits d 60 3
def dValid (d : Nat) : Bool := bit d 63
def dCapRaw (d k : Nat) : Nat := bits d (64 * (k + 1)) 25
def dStride (d k : Nat) : Nat := bits d (64 * (k + 1) + 25) 36
def dVar (d k : Nat) : Bool := bit d (64 * (k + 1) + 61)
def dExtA (d : Nat) : Nat := bits d 384 25
def dExtB (d : Nat) : Nat := bits d 409 25
def dSpmode (d : Nat) : Nat := bits d 434 2
def dSpblk (d : Nat) : Nat := bits d 436 3
def dSpidx (d : Nat) : Nat := bits d 439 9
def dSbase (d : Nat) : Nat := bits d 448 48
def dSmode (d : Nat) : Nat := bits d 496 2
def dTscale (d : Nat) : Nat := bits d 498 8
def dGrad (d : Nat) : Bool := bit d 506
def dVers (d : Nat) : Bool := bit d 507
def dFrozen (d : Nat) : Bool := bit d 508
def dMbidx (d : Nat) : Bool := bit d 509
/-- ALLOC flags (R104). -/
def dMerge (d : Nat) : Bool := bit d 49
def dStream (d : Nat) : Bool := bit d 50
def dOffl (d : Nat) : Bool := bit d 51
def dPin (d : Nat) : Bool := bit d 52

/-- Capacity of dimension k; 1 at or above NDIM (R131). -/
def dCap (d k : Nat) : Nat := if k < dNdim d then dCapRaw d k else 1

/-- The dimensions set at run time, lowest first. -/
def dVars (d : Nat) : List Nat := (List.range (min 5 (dNdim d))).filter (fun k => dVar d k)

/-- extent(d, k) of R106; 1 at or above NDIM. -/
def dExt (d k : Nat) : Nat :=
  if dNdim d ≤ k then 1
  else if dVar d k then (if (dVars d).head? = some k then dExtA d else dExtB d)
  else dCapRaw d k

def dBits (d : Nat) : Nat := fmtBits (dFmt d)

/-! ### Addresses (R106, R107, R201) -/

/-- Bits from element 0 to the end of the element at the capacity in every dimension, the outermost taken n times over. -/
def dSpanBits (d n : Nat) : Nat :=
  let ks := List.range (dNdim d)
  if ks.any (fun k => dCapRaw d k == 0) then 0
  else
    ks.foldl (fun x k =>
      let c := if k + 1 = dNdim d ∧ dMbidx d then dCapRaw d k * n else dCapRaw d k
      x + (c - 1) * dStride d k * dBits d) (dBits d)

/-- The descriptor's span in bytes without versions, B blocks of the outermost dimension where MBIDX is 1. -/
def dSpan (d b : Nat) : Nat := ceilDiv (dSpanBits d b) 8

/-- vspan of R107. -/
def dVspan (d b : Nat) : Nat := roundUp (dSpan d b) 4096

/-- Scale bytes over every capacity (sspan of R201). -/
def dSspan (d b : Nat) : Nat :=
  let n := (List.range (dNdim d)).foldl (fun x k => x * dCapRaw d k) 1 / 32
  if dMbidx d then n * b else n

/-- A descriptor as an instruction uses it: raw words, micro-batch of the run, block count B of R106, parameter version. -/
structure Opd where
  d : Nat
  mb : Nat
  blk : Nat
  ver : Nat
deriving DecidableEq, Repr

/-- Base of block 0 in the buffer of the version. -/
def Opd.base0 (o : Opd) : Nat := dBase o.d + (if dVers o.d then o.ver % 2 * dVspan o.d o.blk else 0)

/-- eff_base of R106. -/
def Opd.base (o : Opd) : Nat :=
  o.base0 + (if dMbidx o.d then
    let n := dNdim o.d - 1
    o.mb * dCapRaw o.d n * dStride o.d n * dBits o.d / 8 else 0)

/-- The bit address of the element at an index: 8 * address + bit offset within the byte (R106). -/
def Opd.bitAddr (o : Opd) (i : List Nat) : Nat :=
  8 * o.base + (List.range (dNdim o.d)).foldl (fun x k => x + nth 0 i k * dStride o.d k * dBits o.d) 0

/-- The span of R106. -/
def Opd.span (o : Opd) : Span := ⟨o.base0, dSpan o.d o.blk⟩

/-- The block-scale span of R106. -/
def Opd.sspan (o : Opd) : Span :=
  ⟨dSbase o.d + (if dVers o.d then o.ver % 2 * roundUp (dSspan o.d o.blk) 4096 else 0), dSspan o.d o.blk⟩

/-- The spans an operand occupies. -/
def Opd.spans (o : Opd) : List Span := if dSmode o.d = 2 then [o.span, o.sspan] else [o.span]

/-- scale_addr of R201. -/
def Opd.scaleAddr (o : Opd) (i : List Nat) : Nat :=
  let n := dNdim o.d - 1
  let ix (k : Nat) : Nat := nth 0 i k + (if k = n ∧ dMbidx o.d then o.mb * dCapRaw o.d n else 0)
  let r := (List.range (dNdim o.d)).foldl (fun (x : Nat × Nat) k =>
    if k = 0 then (ix 0 / 32, dCapRaw o.d 0 / 32) else (x.1 + x.2 * ix k, x.2 * dCapRaw o.d k)) (0, 1)
  dSbase o.d + r.1 + (if dVers o.d then o.ver % 2 * roundUp (dSspan o.d o.blk) 4096 else 0)

/-! ### Elements -/

/-- w bits from bit address a. -/
def Channel.ldBits (c : Channel) (a w : Nat) : Nat := bits (c.ldN (a / 8) ((a % 8 + w + 7) / 8)) (a % 8) w

/-- Stores w bits at bit address a. -/
def Channel.stBits (c : Channel) (a w v : Nat) (offl : Bool) : Channel :=
  let n := (a % 8 + w + 7) / 8
  let x := if a % 8 = 0 ∧ w % 8 = 0 then v % 2 ^ w else setBits (c.ldN (a / 8) n) (a % 8) w v
  c.st (a / 8) offl (leBytes n x)

/-- The code of the element at an index. -/
def Channel.ldCode (c : Channel) (o : Opd) (i : List Nat) : Nat := c.ldBits (o.bitAddr i) (dBits o.d)

/-- The exact value of the element at an index, scale included (R198 to R203). -/
def Channel.ldVal (c : Channel) (o : Opd) (i : List Nat) : Val :=
  let v := decElem (dFmt o.d) (c.ldCode o i)
  match dSmode o.d with
  | 1 => withScale v (dTscale o.d)
  | 2 => withScale v (c.ldByte (o.scaleAddr i)).toNat
  | _ => v

/-- The element as a signed integer, for index tensors, masks and counts. -/
def Channel.ldInt (c : Channel) (o : Opd) (i : List Nat) : Int :=
  let x := c.ldCode o i
  if dFmt o.d = 0xD then (x : Int) else signed 32 x

def Channel.stCode (c : Channel) (o : Opd) (i : List Nat) (v : Nat) : Channel :=
  c.stBits (o.bitAddr i) (dBits o.d) v (dOffl o.d)

/-- What conversions of one instruction depend on: SAT8, HEAD_MX, whether block scales are chosen from FP32 values (a drain, R139), the
stochastic key. -/
structure CvtEnv where
  sat8 : Bool
  head : Int
  fp32 : Bool
  key : SrKey
deriving DecidableEq, Repr

/-- The random bits of a conversion into an element, where it rounds stochastically (R209 to R211). -/
def Opd.srBitsAt (o : Opd) (e : CvtEnv) (i : List Nat) : Option Nat :=
  if dGrad o.d && fmtSr (dFmt o.d) then some (srElem e.key (o.bitAddr i)) else none

/-- Converts and writes one element of a target that is not MX: the tensor scale is divided out (R203 to R211). DESIGN CHOICE (log 165): a
TSCALE of 0xFF is divided out as a NaN. -/
def Channel.stVal (c : Channel) (o : Opd) (e : CvtEnv) (i : List Nat) (v : Val) : Channel × CvtCnt :=
  let v' := if dSmode o.d = 1 then (if dTscale o.d = 0xFF then .nan else vScale v (127 - (dTscale o.d : Int))) else v
  let (x, n) := convert (dFmt o.d) e.sat8 (o.srBitsAt e i) v'
  (c.stCode o i x, n)

/-- A value as the choice of a block's scale sees it. -/
def CvtEnv.seen (e : CvtEnv) (v : Val) : Val :=
  let r := rn32 v
  if e.fp32 && f32Finite r then f32Val r else v

/-- Converts and writes the elements of one MX block that an instruction writes, as one unit (R139, R205). -/
def Channel.stBlock (c : Channel) (o : Opd) (e : CvtEnv) (xs : List (List Nat × Val)) : Channel × CvtCnt :=
  match xs with
  | [] => (c, cnt0)
  | (i0, _) :: _ =>
    if xs.any (fun x => !vFinite x.2) then
      (xs.foldl (fun c x => c.stCode o x.1 0) (c.stByte (o.scaleAddr i0) 0xFF (dOffl o.d)), ⟨0, 0, xs.length⟩)
    else
      let amax := xs.foldl (fun a x => amaxStep a (e.seen x.2)) vZero
      let s := scaleCode amax (fmtEmax (dFmt o.d)) e.head
      let c := c.stByte (o.scaleAddr i0) (BitVec.ofNat 8 s) (dOffl o.d)
      xs.foldl (fun (r : Channel × CvtCnt) x =>
        let (y, n) := convert (dFmt o.d) e.sat8 (o.srBitsAt e x.1) (vScale x.2 (127 - (s : Int)))
        (r.1.stCode o x.1 y, cntAdd r.2 n)) (c, cnt0)

/-- Groups elements by their 32-element block along dimension 0, keeping order. -/
def blockGroups : List (List Nat × Val) → List (List (List Nat × Val))
  | [] => []
  | x :: t =>
    match blockGroups t with
    | [] => [[x]]
    | g :: gs =>
      match g with
      | y :: _ => if nth 0 x.1 0 / 32 = nth 0 y.1 0 / 32 ∧ x.1.drop 1 = y.1.drop 1 then (x :: g) :: gs else [x] :: g :: gs
      | [] => [x] :: gs

/-- Converts and writes a list of elements, given in walk order. -/
def Channel.stVals (c : Channel) (o : Opd) (e : CvtEnv) (xs : List (List Nat × Val)) : Channel × CvtCnt :=
  if dSmode o.d = 2 then
    (blockGroups xs).foldl (fun r g => let (c, n) := r.1.stBlock o e g; (c, cntAdd r.2 n)) (c, cnt0)
  else
    xs.foldl (fun r x => let (c, n) := r.1.stVal o e x.1 x.2; (c, cntAdd r.2 n)) (c, cnt0)

/-! ### Validation (R105) -/

/-- The conditions of R105 on a descriptor's own fields. -/
def descFieldsBad (d : Nat) : Bool :=
  let n := dNdim d
  let fmt := dFmt d
  let mx := fmtMx fmt
  let sm := dSmode d
  !dValid d || n == 0 || decide (6 ≤ n) || decide (0xE ≤ fmt)
  || bits (dAlloc d) 5 3 != 0 || bits d 510 2 != 0
  || (List.range 5).any (fun k => if k < n then bits d (64 * (k + 1) + 62) 2 != 0 else bits d (64 * (k + 1)) 64 != 0)
  || dMerge d && dStream d
  || (List.range n).any (fun k => decide (2 ^ 24 < dCapRaw d k))
  || dStride d 0 != 1 || decide (2 < (dVars d).length)
  || (List.range n).any (fun k => decide (1 ≤ k) && dStride d k * dBits d % 8 != 0)
  || sm == 3 || (if mx then sm != 2 else if fmt == 4 || fmt == 5 then sm == 2 else sm != 0)
  || sm != 2 && dSbase d != 0 || sm != 1 && dTscale d != 0
  || sm == 2 && dCapRaw d 0 % 32 != 0
  || dSpmode d == 3 || dSpmode d != 2 && dSpblk d != 0
  || dBase d % 64 != 0 || dSbase d % 64 != 0

/-- DESC_BAD of R105: own fields, an invalid index descriptor, and a VERS or FROZEN descriptor that an F or B instruction
writes. -/
def descBad (d idx : Nat) (fbWrites : Bool) : Bool :=
  descFieldsBad d
  || dSpmode d != 0 && (descFieldsBad idx)
  || fbWrites && (dVers d || dFrozen d)

/-- The row of the address map a span lies in, when one row holds it whole: a number for the row (R106, R513, R514). -/
def Channel.spanRow (c : Channel) (s : Span) : Option Nat :=
  let tag (a : Nat) : Option Nat := match c.row a with
    | .spad _ _ => some 1
    | .bob _ _ => some 2
    | .tier _ => some 3
    | .lp _ => some 4
    | .flash _ => some 5
    | .flat _ => some 6
    | .regs => none
    | .hole => none
  if s.len = 0 then tag s.lo
  else if tag s.lo = tag (s.lo + s.len - 1) then tag s.lo else none

/-- The sites whose scratchpads or bobbin windows a span reaches. -/
def spanSites (s : Span) : List Nat :=
  if s.len = 0 then []
  else if 0x4000_0000 ≤ s.lo ∧ s.lo < 0x4C80_0000 then
    rangeFrom ((s.lo - 0x4000_0000) / 0x20_0000) ((s.lo + s.len - 1 - 0x4000_0000) / 0x20_0000 + 1 - (s.lo - 0x4000_0000) / 0x20_0000)
  else if 0x6000_0000 ≤ s.lo ∧ s.lo < 0x6320_0000 then
    rangeFrom ((s.lo - 0x6000_0000) / 0x8_0000) ((s.lo + s.len - 1 - 0x6000_0000) / 0x8_0000 + 1 - (s.lo - 0x6000_0000) / 0x8_0000)
  else []

/-- ADDR_BAD of R106: the span leaves one row, or reaches a core the issuing context does not own. -/
def Channel.addrBad (c : Channel) (owner : Option Nat) (s : Span) : Bool :=
  (c.spanRow s).isNone || (spanSites s).any (fun i => (c.core i).owner != owner && c.usable i)

/-- Whether two spans share a byte. -/
def spanHit (a b : Span) : Bool := decide (a.lo < b.lo + b.len) && decide (b.lo < a.lo + a.len)

def spansHit (a b : List Span) : Bool := a.any (fun x => b.any (fun y => spanHit x y))

end Sys2Proof.Machine
end

