-- ==== Sys2Proof/Machine/Flags.lean ====
section
/-! DEFINITION. Condition flags and comparisons (R97, R113, R114), and the legality of an instruction word (R94, R97, R101,
R241, R245, R270). -/

namespace Sys2Proof.Machine

open Sys2Proof

/-- Condition flag n of a stream. -/
def Stream.flag (x : Stream) (n : Nat) : Bool := x.cf.testBit n

/-- A stream with condition flag n set to v. -/
def Stream.setFlag (x : Stream) (n : Nat) (v : Bool) : Stream := { x with cf := setBits x.cf n 1 (b2n v) }

/-- The flags at the start of a run: CF0 to CF5 clear, CF6 and CF7 as R113 sets them. -/
def startFlags (kind : RunKind) (last : Bool) : Nat :=
  match kind with
  | .e => 0x40
  | .u => 0x80
  | _ => if last then 0x80 else 0

/-- FTEST's comparison of element 0 with IMM (R97). -/
def compareBy (cmp x imm : Nat) : Bool :=
  match cmp with
  | 0 => x == imm
  | 1 => x != imm
  | 2 => decide (x < imm)
  | 3 => decide (imm ≤ x)
  | 4 => decide (signed 32 x < signed 32 imm)
  | 5 => decide (signed 32 imm ≤ signed 32 x)
  | _ => false

/-- Whether an instruction is predicated off (R114). -/
def predOff (x : Stream) (w : IWord) : Bool := iPen w && (x.flag (iPsel w) == iPinv w)

/-- The header rule of R94. -/
def headerOk (w : IWord) : Bool :=
  (iPen w || (!iPinv w && iPsel w == 0)) && (iWen w || iWtack w == 0) && (iSen w || iStack w == 0)

/-- Which fields of layout T an opcode uses: descriptors D0 to D3, DM, bobbins, EPI, the FUNC bits and IMM bits it reads, and
whether FUSE and ACC are accepted (R97, R101, R270). -/
structure TUse where
  d0 : Bool
  d1 : Bool
  d2 : Bool
  d3 : Bool
  dm : Bool
  bob : Bool
  epi : Bool
  func : Nat
  imm : Nat
  fuse : Bool
deriving DecidableEq, Repr

/-- Every field the opcode does not use is 0, and MOD, EPI and the bobbin range are in range. -/
def tOk (u : TUse) (w : IWord) : Bool :=
  (u.d0 || iD0 w == 0) && (u.d1 || iD1 w == 0) && (u.d2 || iD2 w == 0) && (u.d3 || iD3 w == 0)
  && (if iMsk w then u.dm else iDm w == 0)
  && (u.fuse || (!iFuse w && !iAcc w))
  && (if u.bob then decide (iBob w + iNbob w ≤ 15) else iBob w == 0 && iNbob w == 0)
  && (if u.epi then decide (iEpi w ≤ 6) else iEpi w == 0)
  && (iFunc w &&& (0x7F - u.func) == 0)
  && ((u.epi && iEpi w == 6) || (iImm w &&& (0xFFFF_FFFF - u.imm) == 0))

def immAll : Nat := 0xFFFF_FFFF

/-- Layout C: reserved bits 0, and fields the opcode does not use. -/
def cOk (off lc count : Bool) (w : IWord) : Bool :=
  iMod w == 0 && bits w.toNat 32 30 == 0 && (off || bits w.toNat 64 32 == 0) && (lc || iLc w == 0)
  && (count || iImm w == 0)

/-- Layout F. -/
def fOk (test : Bool) (w : IWord) : Bool :=
  iMod w == 0 && bits w.toNat 32 49 == 0 && decide (iCfn w ≤ 5)
  && (if test then iCmp w != 7 else iCmp w == 0 && iFdidx w == 0)

/-- Layout S. -/
def sOk (tack site value : Bool) (w : IWord) : Bool :=
  iMod w == 0 && bits w.toNat 0 64 == 0 && (tack || iTack w == 0)
  && (if site then decide (iSite w ≤ 99) && decide (iKind w ≤ 1) else iSite w == 0 && iKind w == 0)
  && (value || iValue w == 0)

/-- Layout D. -/
def dOk (w : IWord) : Bool := iMod w == 0 && bits w.toNat 64 9 == 0

end Sys2Proof.Machine
end

