-- ==== Sys2Proof/Machine/Issue.lean ====
section
/-! DEFINITION. Issue, hazards, tacks and completion of instructions (R94 to R96, R101, R105 to R127, R140, R183, R255, R256). -/

namespace Sys2Proof.Machine

open Sys2Proof

/-- Everything an instruction's meaning sees at its issue; `wm`: the mode of the numerics watch then (R219). -/
structure Xc where
  c : Channel
  site : Nat
  st : Strm
  w : IWord
  follow : IWord
  rc : Rc
  run : RunInfo
  snap : List (Nat × Nat)
  blk : Nat
  fr : Nat
  pc : Nat
  owner : Option Nat
  wm : Nat

/-- How an instruction uses a descriptor it names: index, operand code of the overflow record (R156), read, written, whether
it must be one that F and B may write (R105). -/
structure Role where
  idx : Nat
  opnd : Nat
  rd : Bool
  wr : Bool
deriving DecidableEq, Repr

/-- A meaning's parts in the order of R126. -/
structure OpSpec where
  /-- The opcode. -/
  opc : Nat
  /-- The streams permitted to issue it (R101). -/
  streams : Strm → Bool
  /-- Operand fields in range (R94, R97). -/
  legal : IWord → Bool
  /-- Auxiliary descriptors whose use depends on the table lie within it (R97). -/
  auxOk : (Nat → Nat) → IWord → Bool
  /-- The descriptors it names (R109), from the table's present contents. -/
  roles : (Nat → Nat) → IWord → List Role
  /-- The opcode's own checks: a fault code (R100, R132). -/
  bad : Xc → Option Nat
  /-- Not permitted by the state it finds: the counter it counts in (R117). -/
  noop : Xc → Option Nat
  /-- A zero-shape instruction (R116). -/
  zero : Xc → Bool
  /-- What a zero-shape instruction writes. -/
  zeroRun : Xc → Flight → Channel × Flight
  /-- Issues the following word with it (R270). -/
  pair : Xc → Flight → Channel × Flight
  /-- Waits for earlier instructions of the stream beyond common bytes (R140, R264). -/
  block : Xc → List Flight → Bool
  /-- Reads and writes beyond the named descriptors' spans. -/
  extra : Xc → List Span × List Span
  /-- Whether it writes memory or sends tokens. -/
  writes : IWord → Bool
  /-- The operation. -/
  run : Xc → Flight → Channel × Flight

/-- A spec that does nothing, from which the others are made. -/
def specBase : OpSpec :=
  { opc := 0, streams := fun _ => true, legal := fun _ => true, auxOk := fun _ _ => true, roles := fun _ _ => [], bad := fun _ => none,
    noop := fun _ => none, zero := fun _ => false, zeroRun := fun x f => (x.c, f),
    pair := fun x f => (x.c, f), block := fun _ _ => false,
    extra := fun _ => ([], []), writes := fun _ => false, run := fun x f => (x.c, f) }

/-- Raw words of descriptor i in the snapshot. -/
def Xc.desc (x : Xc) (i : Nat) : Nat := ((x.snap.find? (fun e => e.1 == i)).map (·.2)).getD 0

/-- A named descriptor as the run reads it: the parameter version of the press epoch its tokens carry (R107). -/
def Xc.opd (x : Xc) (i : Nat) : Opd := ⟨x.desc i, x.run.mb, x.blk, x.run.press⟩

/-- A named descriptor as the U stream writes it: version p + 1 (R107). -/
def Xc.opdW (x : Xc) (i : Nat) : Opd := ⟨x.desc i, x.run.mb, x.blk, if x.st = .u then x.run.press + 1 else x.run.press⟩

/-- A descriptor of a flight's snapshot. -/
def Flight.desc (f : Flight) (i : Nat) : Nat := ((f.snap.find? (fun e => e.1 == i)).map (·.2)).getD 0

/-- B of R106 for core i: the larger of M and the number of E entries in its run list. -/
def Channel.blkOf (c : Channel) (i : Nat) : Nat :=
  let m := match (c.core i).owner with
    | some x => c.fld (Reg.CTX_STATE x) Fl.CTX_STATE_MB
    | none => 0
  max m ((c.core i).runList.filter (fun e => bits e 0 2 == 2)).length

/-- Changes a stream. -/
def Channel.modStr (c : Channel) (i : Nat) (st : Strm) (g : Stream → Stream) : Channel :=
  let k := c.core i
  c.setCore i (k.setStr st (g (k.str st)))

def Channel.strm (c : Channel) (i : Nat) (st : Strm) : Stream := (c.core i).str st

/-- Adds a descriptor write and the like to the count of a core register. -/
def Channel.coreCount (c : Channel) (a n : Nat) : Channel := c.count a n

/-- Raises an instruction fault: ARG0 holds stream and opcode, ARG1 the instruction's address (R453). -/
def Channel.raiseInstr (c : Channel) (i : Nat) (st : Strm) (w : IWord) (pc code : Nat) : Channel :=
  c.raise (mkFault i code (c.core i).owner (strmNum st + iOpc w * 4) pc)

/-- Raises an instruction fault and stops the stream (CORE_SSTAT.STATE FAULT). -/
def Channel.faultStop (c : Channel) (i : Nat) (st : Strm) (w : IWord) (pc code : Nat) : Channel :=
  (c.raiseInstr i st w pc code).modStr i st (fun x => { x with wait := .fault })

/-! ### Tacks (R118 to R121) -/

def Channel.tack (c : Channel) (i t : Nat) : Nat := c.fld (Reg.CORE_TACK i t) Fl.CORE_TACK_COUNT

def Channel.setTack (c : Channel) (i t v : Nat) : Channel := c.setFld (Reg.CORE_TACK i t) Fl.CORE_TACK_COUNT v

/-- Adds v to tack t of core i; above 0xFFFF it stays at 0xFFFF and TACK_OVF is raised with these arguments (R120). -/
def Channel.tackAdd (c : Channel) (i t v arg0 arg1 : Nat) : Channel :=
  let n := c.tack i t + v
  if n ≤ 0xFFFF then c.setTack i t n
  else (c.setTack i t 0xFFFF).raise (mkFault i fcTackOvf (c.core i).owner arg0 arg1)

/-- The tack a stream waits on and the count it needs, if it waits (R119). -/
def Stream.tackWait (x : Stream) : Option (Nat × Nat) :=
  match x.wait with
  | .header w _ => some (iWtack w, 1)
  | .tack w => some (iTack w, iValue w)
  | .none => none
  | .fault => none

/-- Whether a stream of the core waits on tack t (CORE_TACKt.WAITING). -/
def Core.waitsOn (k : Core) (t : Nat) : Bool :=
  [k.f, k.b, k.u].any (fun x => match x.tackWait with | some (a, _) => a == t | none => false)

/-- Whether a stream served before st waits on tack t and is met by count n (R121). -/
def Core.servedBefore (k : Core) (st : Strm) (t n : Nat) : Bool :=
  let met (x : Stream) : Bool := match x.tackWait with | some (a, v) => a == t && decide (v ≤ n) | none => false
  match st with
  | .f => false
  | .b => met k.f
  | .u => met k.f || met k.b

/-! ### The re-run window (R255, R256) -/

/-- The spans the window has read, without repeats. -/
def addSpans (l xs : List Span) : List Span := xs.foldl (fun l s => if s ∈ l then l else l ++ [s]) l

/-- Opcodes that end a window's being re-runnable when they issue (R256). -/
def opBreaks (opc : Nat) : Bool :=
  opc == 0x042 || opc == 0x043 || opc == 0x1C3 || opc == 0x1C4 || opc == 0x1C5 || opc == 0x240 || opc == 0x241
  || opc == 0x242 || decide (0x200 ≤ opc) && decide (opc ≤ 0x23F)

/-- The window after an instruction with these spans has issued. -/
def Stream.window (x : Stream) (opc : Nat) (acc : Bool) (rd wr : List Span) : Stream :=
  let seen := addSpans x.winRd rd
  { x with
    winRd := seen
    rerun := x.rerun && !opBreaks opc && !acc && !spansHit wr seen && decide (seen.length ≤ 32) }

/-- A completed wait, or the start of a run: a new re-run point (R255). -/
def Stream.mark (x : Stream) (ord : Nat) (hdr : Bool) : Stream :=
  { x with rePc := x.pc, reLc := x.lc, reCf := x.cf % 64, reHdr := hdr, reOrd := ord, rerun := true, winRd := [] }

/-! ### Hazards (R123) -/

/-- Whether a new instruction's bytes meet those of an earlier one in flight. -/
def flightHit (rd wr : List Span) (g : Flight) : Bool :=
  spansHit rd g.wr || spansHit wr g.rd || spansHit wr g.wr

/-- Phases in which an instruction keeps its stream from issuing the next (CORE_SSTAT.STATE HAZARD, DRAIN, BOBBIN and the
waits of R78, R321, R379). -/
def phBlocks (p : Phase) : Bool :=
  match p with
  | .hazard => true
  | .bobbins => true
  | .drain => true
  | .version => true
  | .norm => true
  | .slot => true
  | _ => false

/-- Whether an instruction keeps its stream from issuing. An END does not: a stream without a run issues nothing, and the next run issues
while this one retires (R73). -/
def Flight.blocks (f : Flight) : Bool := phBlocks f.ph && !(f.ph == .drain && iOpc f.w == 0x001)

/-- Whether a stream may issue its next instruction. -/
def Stream.mayIssue (x : Stream) : Bool :=
  x.run.isSome && x.wait == .none && !x.flights.any Flight.blocks

/-! ### Fetch (R95) -/

/-- FETCH_BAD: not a multiple of 16, or outside the core's own scratchpad and tier slice. -/
def fetchBad (i pc : Nat) : Bool :=
  pc % 16 != 0 || !(decide (spadBase i ≤ pc) && decide (pc < spadBase (i + 1)) || decide (sliceBase i ≤ pc) && decide (pc < sliceBase (i + 1)))

/-! ### Completion (R119, R122, R125) -/

/-- A new flight of an instruction. -/
def newFlight (x : Xc) (rd wr : List Span) : Flight :=
  { pc := x.pc, w := x.w, rc := x.rc, ph := .done, snap := x.snap, rd := rd, wr := wr, bobs := [], cur := ⟨0, 0, 0, 0, 0, 0⟩,
    ord := (x.c.core x.site).ord, partner := none, mate := none, drains := [], lines := [], row := 0, frame := none, ml := [], wrote := false,
    act := true, wm := x.wm }

/-- A run's local histogram counts go to the live bins (R224). -/
def Channel.histFlush (c : Channel) (i : Nat) : Channel :=
  let k := c.core i
  (k.hist.foldl (fun c e => c.count (0x4000 + e.1 / 64 * 0x100 + e.1 % 64 * 4) e.2) c).setCore i { k with hist := [] }

/-- A run retires: its histogram counts are added, its bobbin holds end, its run context is freed; an E run is counted
(R77, R125, R140, R164, R183, R224). -/
def Channel.retire (c : Channel) (i : Nat) (r : Rc) : Channel :=
  let c := c.histFlush i
  let k := c.core i
  let info := k.rcOf r
  let k1 := { k with held := k.held.filter (fun h => h.2.2 != r) }
  let c1 := c.setCore i (k1.setRc r none)
  match info with
  | some q =>
    match q.kind with
    | .e => if q.skip then c1.count (Reg.CORE_FILLSKIP i) 1 else c1.count (Reg.CORE_FILLRUN i) 1
    | .u => c1.setCore i { c1.core i with uDone := true }
    | _ => c1
  | none => c1

/-- The BARRIER message of an RSIG (R122). -/
def rsigMsg (c : Channel) (i : Nat) (w : IWord) : CMsg :=
  let x := ((c.core i).owner).getD 0
  .barrier (BitVec.ofNat 32 (3 * 2 ^ 29 + iSite w * 2 ^ 22 + i * 2 ^ 15 + 1 * 2 ^ 13 + iKind w * 2 ^ 10 + x * 2 ^ 6 + iTack w))
    (BitVec.ofNat 32 (iValue w))

/-- A signal made within the re-run window ends its being re-runnable (R256). -/
def Channel.signalled (c : Channel) (i : Nat) (st : Strm) (f : Flight) : Channel :=
  c.modStr i st (fun x => if x.reOrd ≤ f.ord then { x with rerun := false } else x)

/-- What an instruction does when it completes: TSIG's addition, RSIG's message, END's retirement, SNAP's count (R335), the header signal. -/
def Channel.finish (c : Channel) (i : Nat) (st : Strm) (f : Flight) : Channel :=
  let a0 := strmNum st + iOpc f.w * 4
  let c1 :=
    if f.act && iOpc f.w == 0x041 then (c.tackAdd i (iTack f.w) (iValue f.w) a0 f.pc).signalled i st f
    else if f.act && iOpc f.w == 0x043 then { c with cmsgs := c.cmsgs ++ [rsigMsg c i f.w] }
    else if f.act && iOpc f.w == 0x001 then c.retire i f.rc
    else if f.act && iOpc f.w == 0x206 then c.count (Reg.CORE_SNAPS i) 1
    else c
  if iSen f.w then (c1.tackAdd i (iStack f.w) 1 a0 f.pc).signalled i st f else c1

/-- Completes, in order, the instructions at the head of a stream that have nothing left to write (R125). -/
def Channel.cascade (c : Channel) (i : Nat) (st : Strm) : Nat → Channel
  | 0 => c
  | n + 1 =>
    match (c.strm i st).flights with
    | [] => c
    | f :: t =>
      if (f.ph = .done ∧ f.wrote = false) ∨ f.ph = .drain then
        ((c.modStr i st (fun x => { x with flights := t })).finish i st f).cascade i st n
      else c

/-- Completes what can be completed. -/
def Channel.completeAll (c : Channel) (i : Nat) (st : Strm) : Channel := c.cascade i st (c.strm i st).flights.length

/-! ### Issue (R126) -/

/-- The descriptors of a list of roles, from the table. -/
def Channel.snapshot (c : Channel) (i : Nat) (rs : List Role) : List (Nat × Nat) :=
  rs.foldl (fun l r => if l.any (fun e => e.1 == r.idx) then l else l ++ [(r.idx, c.descRaw i r.idx)]) []

/-- DESC_BAD of any named descriptor (R105); an index descriptor is looked up in the table. -/
def Xc.descBadAny (x : Xc) (rs : List Role) : Bool :=
  rs.any (fun r => let d := x.desc r.idx; descBad d (x.c.descRaw x.site (dSpidx d)) (r.wr && x.st != .u))

/-- The spans that an operand of a role is read and written through: of both versions where it is both (R107). -/
def Xc.roleRd (x : Xc) (r : Role) : List Span := if r.rd then (x.opd r.idx).spans else []
def Xc.roleWr (x : Xc) (r : Role) : List Span := if r.wr then (x.opdW r.idx).spans else []

/-- ADDR_BAD of any named descriptor's spans or of an extra span (R106, R110, R253). -/
def Xc.addrBadAny (x : Xc) (rs : List Role) (ex : List Span × List Span) : Bool :=
  (rs.flatMap (fun r => x.roleRd r ++ x.roleWr r) ++ ex.1 ++ ex.2).any (fun s => x.c.addrBad x.owner s)

/-- What the memory controllers do for an instruction that starts, by its operands and its other spans. -/
def Xc.memAcc (x : Xc) (rs : List Role) (ex : List Span × List Span) : Xc :=
  let one (c : Channel) (r : Role) : Channel :=
    let d := x.desc r.idx
    let c1 := (x.roleRd r).foldl (fun c s => c.accRd s.lo s.len (dStream d) (dPin d || dStream d)) c
    (x.roleWr r).foldl (fun c s => c.accWr s.lo s.len (dPin d || dStream d)) c1
  let c1 := rs.foldl one x.c
  let c2 := ex.1.foldl (fun c s => c.accRd s.lo s.len false false) c1
  { x with c := ex.2.foldl (fun c s => c.accWr s.lo s.len false) c2 }

/-- Whether the flash controller holds an instruction's accesses back. -/
def Channel.memHold (c : Channel) (rd wr : List Span) : Bool :=
  rd.any (fun s => c.accHeld s.lo s.len false) || wr.any (fun s => c.accHeld s.lo s.len true)

/-- The flight of the instruction that pairs with a matrix instruction. -/
def mateFlight (f : Flight) (m : Mate) : Flight :=
  { f with pc := (f.pc + 16) % 2 ^ 48, w := m.w, ph := if f.ph = .done ∨ f.ph = .stopped then f.ph else .fused, snap := m.snap,
           rd := m.rd, wr := m.wr, bobs := [], partner := none, mate := none, drains := [], wrote := true, act := m.act, ord := f.ord + 1 }

/-- The instruction that enters its stream with f: the one paired with it, once f has started. -/
def Flight.withMate (f : Flight) : List Flight :=
  if f.ph = .hazard ∨ f.ph = .slot then [f] else f :: (f.mate.map (mateFlight f)).toList

/-- What f and the instruction paired with it read and write. -/
def Flight.allRd (f : Flight) : List Span := f.rd ++ (f.mate.map (·.rd)).getD []
def Flight.allWr (f : Flight) : List Span := f.wr ++ (f.mate.map (·.wr)).getD []

/-- Appends a flight, and the one paired with it, to its stream and completes what can be completed. -/
def Channel.launch (c : Channel) (i : Nat) (st : Strm) (f : Flight) : Channel :=
  let c1 := c.modStr i st (fun x => { x with flights := x.flights ++ f.withMate })
  let c2 := if f.ph = .stopped then c1.modStr i st (fun x => { x with wait := .fault }) else c1
  c2.completeAll i st

/-- The classes whose instructions act as usual in skip mode: CONTROL, SYNC and DESCRIPTOR, and SEND and RECV with their own
rule (R183). -/
def actsInSkip (opc : Nat) : Bool := decide (opc < 0x0C0) || opc == 0x1C3 || opc == 0x1C4

/-- Whether an E run that `p` picks is in progress in a core of the context. -/
def Channel.eRun (c : Channel) (x : Nat) (p : RunInfo → Bool) : Bool :=
  (List.range 100).any (fun i => (c.core i).owner == some x && [(c.core i).rc0, (c.core i).rc1].any (fun r =>
    match r with
    | some q => q.kind == .e && p q
    | none => false))

/-- Whether a U write of the next version must wait for an E run that reads its buffer (R78). -/
def Xc.versionBusy (x : Xc) : Bool :=
  x.c.eRun (x.owner.getD 0) (fun q => q.press % 2 == (x.run.press + 1) % 2)

/-- Whether an instruction of the U stream writes a buffer that an E run reads. The rules of class UPDATE look themselves (R322, R327). -/
def Xc.versionHeld (x : Xc) (opc : Nat) (rs : List Role) : Bool :=
  x.st == .u && decide (opc < 0x200) && rs.any (fun r => r.wr && dVers (x.desc r.idx)) && x.versionBusy

/-- An instruction that nothing holds back starts: its zero-shape results, or its operation (R78, R116, R126). -/
def Xc.start (x : Xc) (sp : OpSpec) (rs : List Role) (ex : List Span × List Span) (f : Flight) : Channel :=
  if sp.zero x then
    let (c1, f1) := sp.zeroRun x f
    (c1.count (Reg.CORE_ZEROOP x.site) 1).launch x.site x.st f1
  else
    let y := match f.mate with
      | none => x.memAcc rs ex
      | some m => x.memAcc (rs.filter (·.rd)) (ex.1 ++ m.rd, ex.2 ++ m.wr)
    if y.versionHeld sp.opc rs then y.c.launch x.site x.st { f with ph := .version }
    else
      let (c1, f1) := sp.run y f
      c1.launch x.site x.st f1

/-- The mode of the numerics watch (R219). -/
def Channel.watchMode (c : Channel) : Nat := c.fld Reg.NUM_WCTRL Fl.NUM_WCTRL_MODE

/-- Issue after decode and header wait: predicate, snapshot, validation, operation (R114, R126). -/
def Channel.issueGo (c : Channel) (sp : OpSpec) (i : Nat) (st : Strm) (w follow : IWord) (fr : Nat) : Channel :=
  let k := c.core i
  let s := k.str st
  match s.run with
  | none => c
  | some rc =>
    match k.rcOf rc with
    | none => c
    | some run =>
      let pc := s.pc
      let rs := sp.roles (c.descRaw i) w
      let x : Xc := { c := c, site := i, st := st, w := w, follow := follow, rc := rc, run := run, snap := c.snapshot i rs,
                      blk := c.blkOf i, fr := fr, pc := pc, owner := k.owner, wm := c.watchMode }
      let skipped := run.skip && !actsInSkip sp.opc
      let c0 := c.modStr i st (fun x => { x with pc := (pc + 16) % 2 ^ 48, skipHdr := false })
      let c1 := if skipped then c0 else c0.count (Reg.CORE_SISSUED i (strmNum st)) 1
      let c1 := c1.setCore i { c1.core i with ord := k.ord + 1 }
      if predOff s w || skipped then c1.launch i st { newFlight { x with snap := [] } [] [] with act := false }
      else
        let ex := sp.extra x
        if x.descBadAny rs then c.faultStop i st w pc fcDescBad
        else if x.addrBadAny rs ex then c.faultStop i st w pc fcAddrBad
        else
          match sp.bad x with
          | some code => c.faultStop i st w pc code
          | none =>
            match sp.noop x with
            | some a => (c1.count a 1).launch i st { newFlight x [] [] with act := false }
            | none =>
              let rd := rs.flatMap x.roleRd ++ ex.1
              let wr := rs.flatMap x.roleWr ++ ex.2
              let c2 := c1.modStr i st (fun y => y.window sp.opc (iAcc w) rd wr)
              let (c3, f) := sp.pair { x with c := c2 } { newFlight x rd wr with wrote := sp.writes w }
              if f.ph = .stopped then c3.launch i st f
              else if s.flights.any (flightHit f.allRd f.allWr) || sp.block x s.flights || c.memHold f.allRd f.allWr then
                c3.launch i st { f with ph := .hazard, partner := some follow }
              else Xc.start { x with c := c3 } sp rs ex f

/-- The word with this row's opcode. -/
def withOpc (opc : Nat) (w : IWord) : IWord := BitVec.ofNat 128 (setBits w.toNat 118 10 opc)

/-- Operations of a class that R101 defines; every other opcode is reserved. -/
def classOps (cls : Nat) : Nat :=
  match cls with
  | 0 => 7
  | 1 => 5
  | 2 => 3
  | 3 => 5
  | 4 => 3
  | 5 => 6
  | 6 => 3
  | 7 => 8
  | 8 => 7
  | 9 => 3
  | _ => 0

def knownOpc (n : Nat) : Bool := decide (n % 64 < classOps (n / 64))

/-- One instruction issues from a stream: fetch, decode, header wait, then the rest (R95, R101, R119, R126). Nothing happens at a
site without a core in service, in a stream without a run, or while the stream waits. -/
def Channel.issue (c : Channel) (sp : OpSpec) (i : Nat) (st : Strm) (w follow : IWord) (fr : Nat) : Channel :=
  let s := c.strm i st
  if !(c.usable i && !(c.core i).quiet && s.mayIssue) then c
  else if fetchBad i s.pc then c.faultStop i st w s.pc fcFetchBad
  else if !(headerOk w && sp.legal w && sp.auxOk (c.descRaw i) w) then c.faultStop i st w s.pc fcInstIllegal
  else if !sp.streams st then c.faultStop i st w s.pc fcInstStream
  else if iWen w && !s.skipHdr then
    if 1 ≤ c.tack i (iWtack w) ∧ !(c.core i).servedBefore st (iWtack w) (c.tack i (iWtack w)) then
      ((c.setTack i (iWtack w) (c.tack i (iWtack w) - 1)).modStr i st (·.mark (c.core i).ord true)).issueGo sp i st w follow fr
    else c.modStr i st (fun x => { x with wait := .header w follow })
  else c.issueGo sp i st w follow fr

/-- A row's instruction issues at a place; one use of the counter of free values. A word with a reserved opcode keeps it and is
illegal (R94). -/
def State.issueAt (s : State) (sp : OpSpec) (p : Place) (w follow : IWord) : State :=
  let known := knownOpc (iOpc w)
  let sp1 := if known then sp else { sp with legal := fun _ => false }
  let w1 := if known then withOpc sp.opc w else w
  { s.onChan p.ch (fun c => c.issue sp1 p.site.val p.st w1 follow s.free) with free := s.free + 1 }

/-- Runs the instruction of a stream that waited for earlier ones, once nothing blocks it (R123). -/
def Channel.settle (c : Channel) (spec : Nat → OpSpec) (i : Nat) (st : Strm) (fr : Nat) : Channel :=
  let k := c.core i
  let s := k.str st
  match s.flights.reverse with
  | [] => c
  | f :: early =>
    if f.ph = .hazard then
      match k.rcOf f.rc with
      | none => c
      | some run =>
        let sp := spec (iOpc f.w)
        let x : Xc := { c := c.modStr i st (fun y => { y with flights := early.reverse }), site := i, st := st, w := f.w,
                        follow := f.partner.getD 0, rc := f.rc, run := run, snap := f.snap, blk := c.blkOf i, fr := fr, pc := f.pc,
                        owner := k.owner, wm := f.wm }
        if early.any (flightHit f.allRd f.allWr) || sp.block x early || c.memHold f.allRd f.allWr then c
        else x.start sp (sp.roles x.desc f.w) (sp.extra x) { f with ph := .done, partner := none }
    else c

end Sys2Proof.Machine
end

