-- ==== Sys2Proof/Machine/Control.lean ====
section
/-! DEFINITION. Classes CONTROL, SYNC and DESCRIPTOR (R101, R109 to R113, R117 to R122, R125). -/

namespace Sys2Proof.Machine

open Sys2Proof

/-- Sets the program counter of the issuing stream to this instruction's address plus 16 * OFF. -/
def Xc.branch (x : Xc) : Channel :=
  x.c.modStr x.site x.st (fun s => { s with pc := unsigned 48 ((x.pc : Int) + 16 * iOff x.w) })

/-- Loop counter n of a stream set to v. -/
def Xc.setLc (x : Xc) (v : Nat) : Xc :=
  { x with c := x.c.modStr x.site x.st (fun s => { s with lc := setNth s.lc (iLc x.w) v }) }

def Xc.lc (x : Xc) : Nat := nth 0 (x.c.strm x.site x.st).lc (iLc x.w)

/-- Sets condition flag CFN. -/
def Xc.setCf (x : Xc) (v : Bool) : Channel := x.c.modStr x.site x.st (fun s => s.setFlag (iCfn x.w) v)

def specNop : OpSpec := { specBase with opc := 0x000, legal := cOk false false false }

/-- END: the stream issues nothing further; the run retires when it completes (R125, R164). -/
def specEnd : OpSpec :=
  { specBase with
    opc := 0x001
    legal := cOk false false false
    run := fun x f => (x.c.modStr x.site x.st (fun s => { s with run := none }), { f with ph := .drain }) }

def specJump : OpSpec :=
  { specBase with opc := 0x002, legal := cOk true false false, run := fun x f => (x.branch, f) }

def specLset : OpSpec :=
  { specBase with opc := 0x003, legal := cOk false true true, run := fun x f => ((x.setLc (iImm x.w)).c, f) }

def specLoop : OpSpec :=
  { specBase with
    opc := 0x004
    legal := cOk true true false
    run := fun x f =>
      let n := x.lc
      if n = 0 then (x.c, f)
      else
        let x1 := x.setLc (n - 1)
        (if n - 1 = 0 then x1.c else x1.branch, f) }

def specFset : OpSpec :=
  { specBase with opc := 0x005, legal := fOk false, run := fun x f => (x.setCf (bit (iImm x.w) 0), f) }

/-- FTEST; ZERO asks whether the descriptor has a zero extent (R97). -/
def specFtest : OpSpec :=
  { specBase with
    opc := 0x006
    legal := fOk true
    roles := fun _ w => [⟨iFdidx w, 1, iCmp w != 6, false⟩]
    bad := fun x => let m := dFmt (x.desc (iFdidx x.w)); if iCmp x.w = 6 ∨ m = 0xC ∨ m = 0xD then none else some fcDescFormat
    run := fun x f =>
      let o := x.opd (iFdidx x.w)
      let v := if iCmp x.w = 6 then (List.range (dNdim o.d)).any (fun k => dExt o.d k == 0)
               else compareBy (iCmp x.w) (x.c.ldCode o []) (iImm x.w)
      (x.setCf v, f) }

/-- TWAIT: subtracts VALUE if the count allows, else the stream waits (R119, R121). -/
def specTwait : OpSpec :=
  { specBase with
    opc := 0x040
    legal := sOk true false true
    run := fun x f =>
      let t := iTack x.w
      let n := x.c.tack x.site t
      if iValue x.w = 0 then (x.c, f)
      else if iValue x.w ≤ n ∧ !(x.c.core x.site).servedBefore x.st t n then
        ((x.c.setTack x.site t (n - iValue x.w)).modStr x.site x.st (·.mark (x.c.core x.site).ord false), f)
      else (x.c.modStr x.site x.st (fun s => { s with wait := .tack x.w }), { f with ph := .tack }) }

def specTsig : OpSpec := { specBase with opc := 0x041, legal := sOk true false true }

def specTset : OpSpec :=
  { specBase with
    opc := 0x042
    legal := sOk true false true
    noop := fun x => if (x.c.core x.site).waitsOn (iTack x.w) then some (Reg.CORE_NOOPST x.site) else none
    run := fun x f => (x.c.setTack x.site (iTack x.w) (iValue x.w), f) }

/-- RSIG: its message leaves when it completes (`Channel.finish`). -/
def specRsig : OpSpec :=
  { specBase with
    opc := 0x043
    legal := sOk true true true
    noop := fun x =>
      if (x.c.core x.site).peers.testBit (iSite x.w) && x.c.usable (iSite x.w) then none else some (Reg.CORE_NOOPST x.site) }

def specDrain : OpSpec :=
  { specBase with opc := 0x044, legal := sOk false false false, run := fun x f => (x.c, { f with ph := .drain }) }

/-- DLOAD (R97, R110). -/
def specDload : OpSpec :=
  { specBase with
    opc := 0x080
    legal := fun w => dOk w && !iSel w && !iFrom w && iWord w == 0 && decide (iDidx w + iDsrc w ≤ 511)
                      && iVal64 w % 64 == 0 && iVal64 w / 2 ^ 48 == 0
    extra := fun x => ([⟨iVal64 x.w, 64 * (iDsrc x.w + 1)⟩], [])
    run := fun x f =>
      ((List.range (iDsrc x.w + 1)).foldl (fun c n => c.setDesc x.site (iDidx x.w + n) (x.c.ldN (iVal64 x.w + 64 * n) 64)) x.c, f) }

/-- DSET (R101, R112). -/
def specDset : OpSpec :=
  { specBase with
    opc := 0x081
    legal := fun w => dOk w && !iSel w && !iFrom w && iDsrc w == 0
    run := fun x f => (x.c.setDescWord x.site (iDidx x.w) (iWord x.w) (iVal64 x.w), f) }

/-- DSHAPE (R109, R111, R117). -/
def specDshape : OpSpec :=
  { specBase with
    opc := 0x082
    legal := fun w => dOk w && iWord w == 0 && iVal64 w / 2 ^ 32 == 0
    roles := fun _ w => if iFrom w then [⟨iDsrc w, 1, true, false⟩] else []
    bad := fun x => if iFrom x.w && dFmt (x.desc (iDsrc x.w)) != 0xC then some fcDescFormat else none
    noop := fun x =>
      if (dVars (x.c.descRaw x.site (iDidx x.w))).length ≤ b2n (iSel x.w) then some (Reg.CORE_NOOPST x.site) else none
    run := fun x f =>
      let v := if iFrom x.w then x.c.ldCode (x.opd (iDsrc x.w)) [] else iImm x.w
      let d := x.c.descRaw x.site (iDidx x.w)
      let w6 := setBits (bits d 384 64) (if iSel x.w then 25 else 0) 25 (min v 0x01FF_FFFF)
      (x.c.setDescWord x.site (iDidx x.w) 6 w6, f) }

/-! ### Meanings -/

def execNop (p : Place) (w : IWord) (s : State) : Outc := .next (s.issueAt specNop p w 0)
def execJump (p : Place) (w : IWord) (s : State) : Outc := .next (s.issueAt specJump p w 0)
def execLset (p : Place) (w : IWord) (s : State) : Outc := .next (s.issueAt specLset p w 0)
def execLoop (p : Place) (w : IWord) (s : State) : Outc := .next (s.issueAt specLoop p w 0)
def execFset (p : Place) (w : IWord) (s : State) : Outc := .next (s.issueAt specFset p w 0)
def execFtest (p : Place) (w : IWord) (s : State) : Outc := .next (s.issueAt specFtest p w 0)
def execTwait (p : Place) (w : IWord) (s : State) : Outc := .next (s.issueAt specTwait p w 0)
def execTsig (p : Place) (w : IWord) (s : State) : Outc := .next (s.issueAt specTsig p w 0)
def execTset (p : Place) (w : IWord) (s : State) : Outc := .next (s.issueAt specTset p w 0)
def execRsig (p : Place) (w : IWord) (s : State) : Outc := .next (s.issueAt specRsig p w 0)
def execDrain (p : Place) (w : IWord) (s : State) : Outc := .next (s.issueAt specDrain p w 0)
def execDload (p : Place) (w : IWord) (s : State) : Outc := .next (s.issueAt specDload p w 0)
def execDset (p : Place) (w : IWord) (s : State) : Outc := .next (s.issueAt specDset p w 0)
def execDshape (p : Place) (w : IWord) (s : State) : Outc := .next (s.issueAt specDshape p w 0)

end Sys2Proof.Machine
end

