-- ==== Sys2Proof/Machine/Walk.lean ====
section
/-! DEFINITION. What the walks of whole-tensor instructions share: index order, formats, masks, the overflow record, writing D0
with its counts and histograms (R101, R115, R131, R132, R153 to R156, R208, R211, R223). -/

namespace Sys2Proof.Machine

open Sys2Proof

/-! ### Formats (R99) -/

def fmQ8 (m : Nat) : Bool := decide (4 ≤ m ∧ m ≤ 7) || m == 0xB
def fmQ6 (m : Nat) : Bool := m == 8 || m == 9
def fmQ4 (m : Nat) : Bool := m == 0xA
def fmH (m : Nat) : Bool := m == 2 || m == 3
def fmS (m : Nat) : Bool := m == 0
def fmC (m : Nat) : Bool := m == 1
def fmI (m : Nat) : Bool := m == 0xC
def fmU (m : Nat) : Bool := m == 0xD
/-- Groups that the table names together. -/
def fmQ8HSC (m : Nat) : Bool := fmQ8 m || fmH m || fmS m || fmC m
def fmHSC (m : Nat) : Bool := fmH m || fmS m || fmC m
def fmHS (m : Nat) : Bool := fmH m || fmS m
def fmSC (m : Nat) : Bool := fmS m || fmC m

/-- DESC_FORMAT where a condition on the formats fails, then SHAPE_MISMATCH where one on the shapes fails (R126). -/
def dfsm (fmt shape : Bool) : Option Nat :=
  if !fmt then some fcDescFormat else if !shape then some fcShapeMismatch else none

/-! ### Index order -/

/-- Every index list over these extents, the first position fastest. -/
def idxs : List Nat → List (List Nat)
  | [] => [[]]
  | n :: t => (idxs t).flatMap (fun r => (List.range n).map (fun i => i :: r))

/-- Run-time extents of dimensions lo up to NDIM - 1. -/
def dExts (d lo : Nat) : List Nat := (rangeFrom lo (dNdim d - lo)).map (dExt d)

/-- Whether some extent is 0. -/
def anyZero (l : List Nat) : Bool := l.any (fun n => n == 0)

/-- One element-walk unit: a chunk of n elements from lo along dimension 0, at the higher indices (R153). -/
structure Chunk where
  lo : Nat
  n : Nat
  hi : List Nat
deriving DecidableEq, Repr

/-- The chunks of at most w elements over the extents (R153). -/
def chunks (w : Nat) (exts : List Nat) : List Chunk :=
  let e0 := exts.headD 1
  (idxs (exts.drop 1)).flatMap (fun r => (List.range (ceilDiv e0 w)).map (fun k => ⟨k * w, min w (e0 - k * w), r⟩))

/-- The indices of a chunk's elements. -/
def Chunk.idx (u : Chunk) : List (List Nat) := (rangeFrom u.lo u.n).map (fun i => i :: u.hi)

/-- The largest index that a chunk touches in each dimension. -/
def Chunk.top (u : Chunk) : List Nat := (u.lo + u.n - 1) :: u.hi

/-! ### Overflow (R154 to R156) -/

/-- The content of an overflow record. -/
structure Ovf where
  opnd : Nat
  dim : Nat
  desc : Nat
  ext : Nat
  cap : Nat
  pos : Nat
deriving DecidableEq, Repr

/-- The first dimension in which an index of those from `lo` to `top` reaches the capacity, and the first index that does; dimensions
of capacity 1 are broadcast where `bc` says so (R155, R156). -/
def ovfSpan (opnd idx d : Nat) (bc : Bool) (lo top : List Nat) : Option Ovf :=
  (List.range (dNdim d)).findSome? (fun k =>
    if dCapRaw d k ≤ nth 0 top k ∧ ¬(bc ∧ dCapRaw d k = 1) then
      some ⟨opnd, k, idx, dExt d k, dCapRaw d k, max (dCapRaw d k) (nth 0 lo k)⟩
    else none)

/-- The same where the indices touched before reach up to the capacity. -/
def ovfAt (opnd idx d : Nat) (bc : Bool) (top : List Nat) : Option Ovf := ovfSpan opnd idx d bc [] top

/-- The first of several checks that fails (R155). -/
def firstOvf (l : List (Option Ovf)) : Option Ovf := l.findSome? id

/-- Captures an overflow in the core's record while it is not valid, and raises SHAPE_OVF (R154, R156, R453). -/
def Channel.overflow (c : Channel) (i : Nat) (st : Strm) (w : IWord) (pc : Nat) (o : Ovf) : Channel :=
  let c1 :=
    if c.fld (Reg.CORE_OVFSTAT i) Fl.CORE_OVFSTAT_VALID = 1 then c
    else
      (((((((c.wr (Reg.CORE_OVFSTAT i) (1 + strmNum st * 2 + o.opnd * 16 + o.dim * 128 + iOpc w * 2 ^ 16)).wr
        (Reg.CORE_OVFDESC i) o.desc).wr (Reg.CORE_OVFEXT i) o.ext).wr (Reg.CORE_OVFCAP i) o.cap).wr
        (Reg.CORE_OVFPOS i) o.pos).wr (Reg.CORE_OVFPCL i) (pc % 2 ^ 32)).wr (Reg.CORE_OVFPCH i) (pc / 2 ^ 32))
  c1.raiseInstr i st w pc fcShapeOvf

/-- The end of an instruction's walk: the fault stops it where the walk met an overflow; drains that it has started go on (R154). -/
def Xc.endWalk (x : Xc) (r : Channel × Option Ovf) (f : Flight) : Channel × Flight :=
  match r.2 with
  | none => (r.1, f)
  | some o => (r.1.overflow x.site x.st x.w x.pc o, { f with ph := .stopped })

/-- Walks units in order; each is checked against the state it meets, then acts; the first overflow ends the walk. -/
def walk {α : Type} (chk : Channel → α → Option Ovf) (act : Channel → α → Channel) : List α → Channel → Channel × Option Ovf
  | [], c => (c, none)
  | u :: t, c =>
    match chk c u with
    | some o => (c, some o)
    | none => walk chk act t (act c u)

/-! ### Validity masks (R115) -/

/-- Index of a source along the dimensions of an iteration index: dimensions of capacity 1 are broadcast (R153). -/
def bcast (d : Nat) (i : List Nat) : List Nat :=
  (List.range (dNdim d)).map (fun k => if dCapRaw d k = 1 then 0 else nth 0 i k)

/-- Whether mask m leaves valid the element at iteration index i; mask dimension k runs along dimension t + k. -/
def Channel.maskOk (c : Channel) (m : Opd) (t : Nat) (i : List Nat) : Bool :=
  let j := i.drop t
  (List.range (dNdim m.d)).all (fun k => dCapRaw m.d k == 1 || decide (nth 0 j k < dExt m.d k))
    && c.ldCode m (bcast m.d j) != 0

/-- Whether an instruction has a mask: MOD[0] is 1, and in the matrix class DM is not 0 (R115, R131). -/
def hasMask (w : IWord) : Bool := iMsk w && !(iOpc w / 64 == 3 && iDm w == 0)

/-- The mask of an instruction. -/
def Xc.mask (x : Xc) : Option Opd := if hasMask x.w then some (x.opd (iDm x.w)) else none

/-- The instruction's own validity of a row. -/
def Xc.valid (x : Xc) (c : Channel) (t : Nat) (i : List Nat) : Bool :=
  match x.mask with
  | none => true
  | some m => c.maskOk m t i

/-- The mask's capacity check: indices at or beyond the mask's extent are invalid and not read. -/
def Xc.maskOvf (x : Xc) (t : Nat) (top : List Nat) : Option Ovf :=
  match x.mask with
  | none => none
  | some m =>
    let j := top.drop t
    if (List.range (dNdim m.d)).all (fun k => dCapRaw m.d k == 1 || decide (nth 0 j k < dExt m.d k)) then ovfAt 4 (iDm x.w) m.d true j
    else none

/-- The mask, where used, must be UINT16 (R115). -/
def Xc.maskFmt (x : Xc) : Bool := !hasMask x.w || fmU (dFmt (x.desc (iDm x.w)))

/-- The mask as a named operand. -/
def maskRole (w : IWord) : List Role := if hasMask w then [⟨iDm w, 4, true, false⟩] else []

/-! ### Conversion environment and counts -/

/-- HEAD_MX, SAT8 and the stochastic key of an instruction (R205, R211). -/
def Xc.env (x : Xc) : CvtEnv :=
  let c := x.c
  { sat8 := c.fld Reg.NUM_CTRL Fl.NUM_CTRL_SAT8 = 1
    head := (c.fld Reg.NUM_CTRL Fl.NUM_CTRL_HEAD_MX : Nat)
    fp32 := iOpc x.w / 64 == 3 || iOpc x.w / 64 == 4
    key := ⟨srKey (c.rd Reg.NUM_SRSEEDL + c.rd Reg.NUM_SRSEEDH * 2 ^ 32) x.run.press (strmNum x.st) x.site,
            if x.st = .u then 0 else x.run.mb⟩ }

/-- Adds conversion counts to a core's registers (R208). -/
def Channel.cvtCount (c : Channel) (i : Nat) (n : CvtCnt) : Channel :=
  ((c.count (Reg.CORE_CVTOVF i) n.ovf).count (Reg.CORE_CVTUFL i) n.ufl).count (Reg.CORE_CVTNAN i) n.nan

/-- The bin of a value in a slot with base b (R223). -/
def histBin (b : Int) (v : Val) : Nat :=
  match v with
  | .fin _ m _ =>
    if m = 0 then 0
    else
      let e := vLog2 v
      if e < b then 1 else if b + 60 ≤ e then 62 else (e - b + 2).toNat
  | _ => 63

/-- The slots that watch writes into descriptor `desc` by core i (R223). -/
def Channel.watchSlots (c : Channel) (i desc : Nat) : List Nat :=
  if c.fld Reg.NUM_WCTRL Fl.NUM_WCTRL_MODE = 2 ∧ (c.core i).owner = some (c.fld Reg.NUM_WCTRL Fl.NUM_WCTRL_CTX) then
    (List.range 16).filter (fun s =>
      let f := c.fld (Reg.NUM_WSLOT s)
      f Fl.NUM_WSLOT_EN == 1 && (f Fl.NUM_WSLOT_SITE == 127 || f Fl.NUM_WSLOT_SITE == i) && f Fl.NUM_WSLOT_DESC == desc)
  else []

/-- Counts values written as D0 in the core's local histogram (R223, R224). -/
def Channel.histAdd (c : Channel) (i desc : Nat) (vs : List Val) : Channel :=
  (c.watchSlots i desc).foldl (fun c s =>
    let b := signed 8 (c.fld (Reg.NUM_WSLOT s) Fl.NUM_WSLOT_BASE)
    let k := c.core i
    c.setCore i { k with hist := vs.foldl (fun h v =>
      let key := s * 64 + histBin b v
      mset (fun _ => 0) h key (mget (fun _ => 0) h key + 1)) k.hist }) c

/-- An element to be written: index, value, and the bits of an FP32C source that is copied unchanged (R206). -/
structure Elem where
  i : List Nat
  v : Val
  raw : Option Nat
deriving DecidableEq, Repr

/-- Converts and writes elements into a descriptor that the instruction names; the channel and the counts (R203 to R211). -/
def Xc.convertTo (x : Xc) (c : Channel) (idx : Nat) (xs : List Elem) : Channel × CvtCnt :=
  let o := x.opdW idx
  let e := x.env
  if dFmt o.d = 1 then
    xs.foldl (fun r y =>
      match y.raw with
      | some b => (r.1.stCode o y.i b, if y.v = .nan then cntAdd r.2 ⟨0, 0, 1⟩ else r.2)
      | none => let (c', m) := r.1.stVal o e y.i y.v; (c', cntAdd r.2 m)) (c, cnt0)
  else c.stVals o e (xs.map (fun y => (y.i, y.v)))

/-- The same with the counts of R208: a drain, the mangle and CVT. -/
def Xc.store (x : Xc) (c : Channel) (idx : Nat) (xs : List Elem) : Channel :=
  let (c1, n) := x.convertTo c idx xs
  c1.cvtCount x.site n

/-- Counts values written as D0 by an instruction that issued while the watch was in its histogram mode (R219, R223). -/
def Xc.histPut (x : Xc) (c : Channel) (idx : Nat) (vs : List Val) : Channel := if x.wm = 2 then c.histAdd x.site idx vs else c

/-- The values that a converting write of D0 bins: FP32 before the conversion (R223). -/
def Elem.binned (xs : List Elem) : List Val := xs.map (fun y => f32Val (rn32 y.v))

/-- Writes elements of D0, which the watch counts (R223). -/
def Xc.put (x : Xc) (c : Channel) (idx : Nat) (xs : List Elem) : Channel := x.histPut (x.store c idx xs) idx (Elem.binned xs)

/-- The same by a unit whose conversions R208 does not count: SCATTER, the top-k unit's routes, the additions of ATTN_BWD. -/
def Xc.putUncounted (x : Xc) (c : Channel) (idx : Nat) (xs : List Elem) : Channel :=
  x.histPut (x.convertTo c idx xs).1 idx (Elem.binned xs)

/-- The raw bits of an FP32C element, for copies. -/
def Channel.ldRaw (c : Channel) (o : Opd) (i : List Nat) : Option Nat := if dFmt o.d = 1 then some (c.ldCode o i) else none

/-! ### Bobbins of other streams (R140) -/

/-- Whether another stream of the core holds or uses one of these bobbins. -/
def Channel.bobBusy (c : Channel) (i : Nat) (st : Strm) (bobs : List Nat) : Bool :=
  let k := c.core i
  k.held.any (fun h => h.2.1 != st && bobs.contains h.1)
  || [Strm.f, .b, .u].any (fun s => s != st && (k.str s).flights.any (fun g => g.ph != .bobbins && g.bobs.any (fun b => bobs.contains b)))

/-- Whether earlier instructions of the stream still use one of these bobbins. -/
def bobsInUse (fs : List Flight) (bobs : List Nat) : Bool := fs.any (fun g => g.bobs.any (fun b => bobs.contains b))

/-! ### Shape checks (R132) -/

/-- Capacity in every dimension of `a` at least that of `d`, dimensions of capacity 1 of `a` allowed where `bc`. -/
def coversCap (a d : Nat) (bc : Bool) : Bool :=
  (List.range (max (dNdim a) (dNdim d))).all (fun k => decide (dCap d k ≤ dCap a k) || bc && dCap a k == 1)

/-- A named operand read, a named operand written, both. -/
def rRd (idx opnd : Nat) : Role := ⟨idx, opnd, true, false⟩
def rWr (idx opnd : Nat) : Role := ⟨idx, opnd, false, true⟩
def rRw (idx opnd : Nat) : Role := ⟨idx, opnd, true, true⟩

end Sys2Proof.Machine
end

