-- ==== Sys2Proof/Machine/Elementwise.lean ====
section
/-! DEFINITION. Class ELEMENTWISE: EW1, EW2, EW3, CVT, PRESCAN, ROWNORM (R98, R101, R116, R131, R132, R153, R203 to R215). -/

namespace Sys2Proof.Machine

open Sys2Proof

/-- A value as the mangle's FP32C operations see it. -/
def vC (v : Val) : F32C := cOf v

/-- The FP32 value of an FP32 result. -/
def vOf (r : F32) : Val := f32Val r

/-- An operand as the mangle's FP32 lanes take it: HI + LO rounded to FP32 (R207, last row; R311, log 56). -/
def narrow (v : Val) : Val := f32Val (rn32 v)

/-- EW1's functions on a value; `c`: some operand is FP32C; `k`: the number of the free value (R101, R207). -/
def ew1Fn (fr k func : Nat) (c : Bool) (v : Val) : Val :=
  let a := narrow v
  match func with
  | 1 => vNeg a
  | 2 => vAbs a
  | 3 => vOf (fnExp fr k a)
  | 4 => vOf (fnLog fr k a)
  | 5 => vOf (fnRsqrt fr k a)
  | 6 => if c then cVal (cMul fr k (vC v) (vC v)) else vOf (rn32 (vMul a a))
  | 7 => vOf (fnRecip fr k a)
  | _ => a

/-- The larger of two values; a NaN operand gives NaN, and -0 orders below +0 (R238, log 20). -/
def vMax (a b : Val) : Val :=
  if a = .nan ∨ b = .nan then .nan
  else if vLt a b then b else if vLt b a then a
  else if vIsZero a && vSign a then b else a

/-- The smaller of two values, with the same rules. -/
def vMin (a b : Val) : Val :=
  if a = .nan ∨ b = .nan then .nan
  else if vLt a b then a else if vLt b a then b
  else if vIsZero a && vSign a then a else b

/-- EW2's functions (R101, R207, R231). -/
def ew2Fn (fr k func : Nat) (c : Bool) (v u : Val) : Val :=
  let a := narrow v
  let b := narrow u
  match func with
  | 0 => if c then cVal (cAdd (vC v) (vC u)) else vOf (rn32 (vAdd a b))
  | 1 => if c then cVal (cAdd (vC v) (vC (vNeg u))) else vOf (rn32 (vSub a b))
  | 2 => if c then cVal (cMul fr k (vC v) (vC u)) else vOf (rn32 (vMul a b))
  | 3 => vOf (vDiv32 a b)
  | 4 => vMax a b
  | _ => vMin a b

/-- Whether a value differs from 0; NaN does. -/
def vNonzero (v : Val) : Bool := !vIsZero v

/-- The operation of EW1, EW2, EW3 or CVT at iteration index i, given D1's element; result value and, for an FP32C
element that CVT copies unchanged (R206), its bits. -/
def Xc.ewElem (x : Xc) (c : Channel) (k : Nat) (i : List Nat) (v1 : Val) (raw1 : Option Nat) (c1 : Bool) : Val × Option Nat :=
  let w := x.w
  let src (n : Nat) : Val := let o := x.opd n; c.ldVal o (bcast o.d i)
  let isC (n : Nat) : Bool := fmC (dFmt (x.desc n))
  let fn := iFunc w % 64
  let r : Val × Option Nat :=
    match iOpc w with
    | 0x140 => (ew1Fn x.fr k fn c1 v1, none)
    | 0x141 =>
      if bit (iFunc w) 6 then (ew2Fn x.fr k fn c1 v1 (f32Val (iImm w)), none)
      else (ew2Fn x.fr k fn (c1 || isC (iD2 w)) v1 (src (iD2 w)), none)
    | 0x142 =>
      if fn = 1 then (narrow (src (if vNonzero v1 then iD2 w else iD3 w)), none)
      else (vOf (rn32 (vAdd (vMul (narrow v1) (narrow (src (iD2 w)))) (narrow (src (iD3 w))))), none)
    | _ => (v1, raw1)
  if iEpi w = 0 then r else (vOf (epilogue x.fr (k + 1) (iEpi w) (iImm w) (rn32 r.1)), none)

/-- A chunk of an elementwise instruction: every valid row's elements computed from memory, then written (R153). -/
def Xc.ewChunk (x : Xc) (c : Channel) (u : Chunk) : Channel :=
  let o1 := x.opd (iD1 x.w)
  if x.valid c 1 u.top then
    x.put c (iD0 x.w) (u.idx.map (fun i =>
      let (v, raw) := x.ewElem c (2 * o1.bitAddr i) i (c.ldVal o1 i) (c.ldRaw o1 i) (fmC (dFmt o1.d))
      ⟨i, v, raw⟩))
  else c

/-- Whether EW2 takes IMM in place of D2. -/
def ewImm (w : IWord) : Bool := iOpc w == 0x141 && bit (iFunc w) 6

/-- The sources beyond D1 that the instruction uses. -/
def ewSrcs (w : IWord) : List (Nat × Nat) :=
  match iOpc w with
  | 0x141 => if ewImm w then [] else [(2, iD2 w)]
  | 0x142 => [(2, iD2 w), (3, iD3 w)]
  | 0x145 => [(2, iD2 w), (3, iD3 w)]
  | _ => []

/-- The capacity checks of one chunk, in the order of R155. -/
def Xc.ewChk (x : Xc) (_ : Channel) (u : Chunk) : Option Ovf :=
  firstOvf ([ovfAt 1 (iD1 x.w) (x.desc (iD1 x.w)) false u.top]
    ++ (ewSrcs x.w).map (fun s => ovfAt s.1 s.2 (x.desc s.2) true u.top)
    ++ [x.maskOvf 1 u.top, ovfAt 0 (iD0 x.w) (x.desc (iD0 x.w)) false u.top])

/-- R132 for the elementwise class. -/
def Xc.ewShape (x : Xc) : Bool :=
  let d1 := x.desc (iD1 x.w)
  let d0 := x.desc (iD0 x.w)
  dNdim d0 == dNdim d1 && coversCap d0 d1 false
  && (ewSrcs x.w).all (fun s => coversCap (x.desc s.2) d1 true && (s.1 != 2 || dNdim (x.desc s.2) == 2 || dNdim (x.desc s.2) == dNdim d1))

/-- Extents of the iteration space that D1 drives (R131). -/
def Xc.d1Exts (x : Xc) : List Nat := dExts (x.desc (iD1 x.w)) 0

/-- What EW1, EW2, EW3 and CVT share. -/
def specEw (opc : Nat) (u : TUse) (func : IWord → Bool) (fmt : Nat → Bool) (sel : Bool) : OpSpec :=
  { specBase with
    opc := opc
    legal := fun w => tOk u w && func w
    roles := fun _ w => [rRd (iD1 w) 1] ++ (ewSrcs w).map (fun s => rRd s.2 s.1) ++ maskRole w ++ [rWr (iD0 w) 0]
    bad := fun x =>
      let f1 := dFmt (x.desc (iD1 x.w))
      dfsm ((fmt f1 || sel && iFunc x.w == 1 && fmI f1) && (ewSrcs x.w).all (fun s => fmt (dFmt (x.desc s.2)))
            && fmt (dFmt (x.desc (iD0 x.w))) && x.maskFmt) x.ewShape
    zero := fun x => anyZero x.d1Exts
    writes := fun _ => true
    run := fun x f => x.endWalk (walk x.ewChk x.ewChunk (chunks 128 x.d1Exts) x.c) f }

def specEw1 : OpSpec :=
  specEw 0x140 ⟨true, true, false, false, true, false, true, 0x7F, 0, false⟩ (fun w => decide (iFunc w ≤ 7)) fmQ8HSC false
def specEw2 : OpSpec :=
  specEw 0x141 ⟨true, true, true, false, true, false, true, 0x7F, immAll, false⟩ (fun w => decide (iFunc w % 64 ≤ 5)) fmQ8HSC false
def specEw3 : OpSpec :=
  specEw 0x142 ⟨true, true, true, true, true, false, true, 0x7F, 0, false⟩ (fun w => decide (iFunc w ≤ 1)) fmQ8HSC true
def specCvt : OpSpec :=
  specEw 0x143 ⟨true, true, false, false, true, false, false, 0, 0, false⟩ (fun _ => true) (fun _ => true) false

/-! ### PRESCAN (R215) -/

/-- The smallest FP32 value at or above a finite non-negative value. -/
def roundUp32 (v : Val) : F32 :=
  let r := rn32 v
  if vLt (f32Val r) v then r + 1 else r

/-- The scale code that PRESCAN writes for a set of values: 0xFF where one is not finite. -/
def psCode (d : Nat) (head : Int) (vs : List Val) : Nat :=
  if vs.any (fun v => !vFinite v) then 0xFF else scaleCode (vs.foldl amaxStep vZero) (fmtEmax (dFmt d)) head

/-- One chunk of PRESCAN: its block scales for an MX target, the count of non-finite values, the running amax. -/
def Xc.psChunk (x : Xc) (r : Channel × Val) (u : Chunk) : Channel × Val :=
  let o1 := x.opd (iD1 x.w)
  let o0 := x.opdW (iD0 x.w)
  let vs := u.idx.map (fun i => (i, x.c.ldVal o1 i))
  let c1 := r.1.count (Reg.CORE_PSNONFIN x.site) (vs.filter (fun v => !vFinite v.2)).length
  let c2 :=
    if dSmode o0.d = 2 then
      (blockGroups vs).foldl (fun c g =>
        match g with
        | [] => c
        | (i, _) :: _ => c.stByte (o0.scaleAddr i) (BitVec.ofNat 8 (psCode o0.d x.env.head (g.map (·.2)))) (dOffl o0.d)) c1
    else c1
  (c2, vs.foldl (fun a v => amaxStep a v.2) r.2)

/-- Walks the chunks of PRESCAN to the first overflow. -/
def Xc.psWalk (x : Xc) : List Chunk → Channel × Val → (Channel × Val) × Option Ovf
  | [], r => (r, none)
  | u :: t, r =>
    match x.ewChk r.1 u with
    | some o => (r, some o)
    | none => x.psWalk t (x.psChunk r u)

/-- Whether PRESCAN writes a tensor scale image. -/
def psTensor (x : Xc) : Bool := dSmode (x.desc (iD0 x.w)) == 1

def specPrescan : OpSpec :=
  { specBase with
    opc := 0x144
    legal := tOk ⟨true, true, false, false, false, false, false, 0, 0, false⟩
    auxOk := fun t w => dSmode (t (iD0 w)) != 1 || decide (iD0 w ≤ 510)
    roles := fun t w => [rRd (iD1 w) 1] ++
      (if dSmode (t (iD0 w)) == 1 then [rRd (iD0 w) 0, rWr (iD0 w + 1) 6] else [rWr (iD0 w) 0])
    bad := fun x =>
      let d0 := x.desc (iD0 x.w)
      let d1 := x.desc (iD1 x.w)
      let m := dFmt d0
      let a := x.desc (iD0 x.w + 1)
      dfsm (fmHSC (dFmt d1) && (fmQ8 m || fmQ6 m || fmQ4 m) && dSmode d0 != 0 && (!psTensor x || fmI (dFmt a)))
           (x.ewShape && (!psTensor x || decide (16 ≤ dCap a 0)))
    zero := fun x => anyZero x.d1Exts
    writes := fun _ => true
    run := fun x f =>
      let ((c1, amax), o) := x.psWalk (chunks 128 x.d1Exts) (x.c, vZero)
      match o with
      | some e => x.endWalk (c1, some e) f
      | none =>
        let c2 := c1.wr (Reg.CORE_PSAMAX x.site) (roundUp32 amax)
        if psTensor x then
          let d0 := x.desc (iD0 x.w)
          let s := scaleCode amax (fmtEmax (dFmt d0)) (x.c.fld Reg.NUM_CTRL Fl.NUM_CTRL_HEAD_T : Nat)
          let img := setBits d0 498 8 s
          let a := x.opdW (iD0 x.w + 1)
          ((List.range 16).foldl (fun c j => c.stCode a [j] (bits img (32 * j) 32)) c2, f)
        else (c2, f) }

/-! ### ROWNORM (R101, R153; log 21) -/

/-- The lane sum of a row: lane l adds terms l, l + 128, ... and the lanes combine pairwise, as R239 sums along dimension 0. -/
def pairTree : List F32C → List F32C
  | a :: b :: t => cAdd a b :: pairTree t
  | l => l

/-- Seven levels of pairs over 128 lanes. -/
def treeSum (lanes : List F32C) : F32C :=
  ((List.range 7).foldl (fun l _ => pairTree l) lanes).headD czero

/-- The lanes after the terms have been dealt out in order. -/
def laneAdd (lanes : List F32C) (k : Nat) (t : F32C) : List F32C :=
  setNth lanes (k % 128) (cAdd (nth czero lanes (k % 128)) t)

def zeroLanes : List F32C := List.replicate 128 czero

/-- The FP32C sum of a row's terms. -/
def rowSum (vs : List Val) : F32C :=
  treeSum ((vs.foldl (fun (r : List F32C × Nat) v => (laneAdd r.1 r.2 (cTerm v), r.2 + 1)) (zeroLanes, 0)).1)

/-- One row: statistics, then normalised elements. -/
def Xc.normRow (x : Xc) (c : Channel) (r : List Nat) : Channel :=
  let o1 := x.opd (iD1 x.w)
  let n := dExt o1.d 0
  if x.valid c 1 (0 :: r) then
    let is := (List.range n).map (fun i => i :: r)
    let vs := is.map (fun i => c.ldVal o1 i)
    let cnt : Val := vInt (n : Int)
    let mean := if iFunc x.w = 0 then f32Val (vDiv32 (cVal (rowSum vs)) cnt) else vZero
    let ds := vs.map (fun v => if iFunc x.w = 0 then f32Val (rn32 (vSub v mean)) else v)
    let var := f32Val (vDiv32 (cVal (rowSum (ds.map (fun v => vMul v v)))) cnt)
    let k := 2 * o1.bitAddr (0 :: r)
    let s := f32Val (fnRsqrt x.fr k (f32Val (rn32 (vAdd var (f32Val (iImm x.w))))))
    x.put c (iD0 x.w) ((is.zip ds).map (fun e =>
      let g := x.opd (iD2 x.w)
      let b := x.opd (iD3 x.w)
      let y := f32Val (rn32 (vMul e.2 s))
      ⟨e.1, vOf (rn32 (vAdd (vMul y (c.ldVal g (bcast g.d e.1))) (c.ldVal b (bcast b.d e.1)))), none⟩))
  else c

/-- The capacity check of a row, chunk by chunk. -/
def Xc.rowChk (x : Xc) (c : Channel) (r : List Nat) : Option Ovf :=
  firstOvf ((chunks 128 [dExt (x.desc (iD1 x.w)) 0]).map (fun u => x.ewChk c { u with hi := r }))

def specRownorm : OpSpec :=
  { specEw 0x145 ⟨true, true, true, true, true, false, false, 0x7F, immAll, false⟩ (fun w => decide (iFunc w ≤ 1)) fmHSC false with
    streams := fun s => s != .u
    bad := fun x =>
      dfsm (fmHSC (dFmt (x.desc (iD1 x.w))) && fmHSC (dFmt (x.desc (iD0 x.w))) && fmS (dFmt (x.desc (iD2 x.w)))
            && fmS (dFmt (x.desc (iD3 x.w))) && x.maskFmt) x.ewShape
    run := fun x f => x.endWalk (walk x.rowChk x.normRow (idxs (x.d1Exts.drop 1)) x.c) f }

/-! ### Meanings -/

def execEw1 (p : Place) (w : IWord) (s : State) : Outc := .next (s.issueAt specEw1 p w 0)
def execEw2 (p : Place) (w : IWord) (s : State) : Outc := .next (s.issueAt specEw2 p w 0)
def execEw3 (p : Place) (w : IWord) (s : State) : Outc := .next (s.issueAt specEw3 p w 0)
def execCvt (p : Place) (w : IWord) (s : State) : Outc := .next (s.issueAt specCvt p w 0)
def execPrescan (p : Place) (w : IWord) (s : State) : Outc := .next (s.issueAt specPrescan p w 0)
def execRownorm (p : Place) (w : IWord) (s : State) : Outc := .next (s.issueAt specRownorm p w 0)

end Sys2Proof.Machine
end

