-- ==== Sys2Proof/Machine/Reduction.lean ====
section
/-! DEFINITION. Class REDUCE: REDUCE, TOPK and ROUTE (R116, R131, R230 to R247). -/

namespace Sys2Proof.Machine

open Sys2Proof

/-! ### REDUCE (R237 to R239) -/

def redDim (w : IWord) (k : Nat) : Bool := bit (iFunc w % 32) k
def redOp (w : IWord) : Nat := iFunc w / 32

/-- The term of one element (R238): for a sum its value, for a sum of squares its square. An FP32C value that is not finite is squared as it
reads (R202). -/
def redTerm (op : Nat) (fp32c : Bool) (code : Nat) (v : Val) : F32C :=
  if op = 3 then
    if fp32c && vFinite v then
      let p := cOfBits code
      let h := f32Val p.hi
      cOf (vAdd (vMul h h) (f32Val (rn32 (vScale (vMul h (f32Val p.lo)) 1))))
    else cOf (vMul v v)
  else cTerm v

/-- One FP32C lane addition; counts an element that becomes non-finite (R231, R232). -/
def accAdd (a t : F32C) (n : Nat) : F32C × Nat :=
  let r := cAdd a t
  (r, n + b2n (f32Finite a.hi && !f32Finite r.hi))

/-- Lanes, running total and count of R232 while an output's terms are summed. -/
structure RedAcc where
  lanes : List F32C
  total : F32C
  inf : Nat
  num : Nat
deriving DecidableEq, Repr

def redAcc0 : RedAcc := ⟨zeroLanes, czero, 0, 0⟩

/-- Dimension 0 reduced: term number `num` into lane num % 128; after 2^23 terms the tree's sum joins the total (R239). -/
def redAllLanes (a : RedAcc) (t : Option F32C) : RedAcc :=
  let a1 := if a.num ≠ 0 ∧ a.num % 2 ^ 23 = 0 then { a with total := cAdd a.total (treeSum a.lanes), lanes := zeroLanes } else a
  match t with
  | none => { a1 with num := a1.num + 1 }
  | some y =>
    let l := a1.num % 128
    let (r, n) := accAdd (nth czero a1.lanes l) y a1.inf
    { a1 with lanes := setNth a1.lanes l r, inf := n, num := a1.num + 1 }

/-- Dimension 0 kept: one lane, segments of 2^16 terms (R239). -/
def redOneLane (a : RedAcc) (t : Option F32C) : RedAcc :=
  let l0 := a.lanes.headD czero
  let a1 := if a.num ≠ 0 ∧ a.num % 2 ^ 16 = 0 then { a with total := cAdd a.total l0, lanes := [czero] } else { a with lanes := [l0] }
  match t with
  | none => { a1 with num := a1.num + 1 }
  | some y =>
    let (r, n) := accAdd (a1.lanes.headD czero) y a1.inf
    { a1 with lanes := [r], inf := n, num := a1.num + 1 }

/-- The indices that one output reduces over, lowest reduced dimension fastest. -/
def redIdxs (d : Nat) (w : IWord) (keep : List Nat) : List (List Nat) :=
  idxs ((List.range (dNdim d)).map (fun k => if redDim w k then dExt d k else 1)) |>.map (fun i =>
    (List.range (dNdim d)).map (fun k => if redDim w k then nth 0 i k else nth 0 keep k))

/-- The kept index lists, reduced positions 0. -/
def redKeeps (d : Nat) (w : IWord) : List (List Nat) :=
  idxs ((List.range (dNdim d)).map (fun k => if redDim w k then 1 else dExt d k))

/-- One output: its value, the lanes of its last segment, the additions counted by R232. -/
def Xc.redOut (x : Xc) (c : Channel) (keep : List Nat) : Val × RedAcc :=
  let o := x.opd (iD1 x.w)
  let is := redIdxs o.d x.w keep
  let op := redOp x.w
  if op = 1 ∨ op = 2 then
    let vs := (is.filter (x.valid c 1)).map (fun i => c.ldVal o i)
    (vs.foldl (if op = 1 then vMax else vMin) (.inf (op == 1)), redAcc0)
  else
    let ts := is.map (fun i => if x.valid c 1 i then some (redTerm op (fmC (dFmt o.d)) (c.ldCode o i) (c.ldVal o i)) else none)
    let a := ts.foldl (if redDim x.w 0 then redAllLanes else redOneLane) redAcc0
    (cVal (cAdd a.total (if redDim x.w 0 then treeSum a.lanes else a.lanes.headD czero)), a)

/-- The capacity check of one output. -/
def Xc.redChk (x : Xc) (_ : Channel) (keep : List Nat) : Option Ovf :=
  let d := x.desc (iD1 x.w)
  let top := (List.range (dNdim d)).map (fun k => if redDim x.w k then dExt d k - 1 else nth 0 keep k)
  firstOvf [ovfAt 1 (iD1 x.w) d false top, x.maskOvf 1 top, ovfAt 0 (iD0 x.w) (x.desc (iD0 x.w)) false keep]

/-- Writes the lane sums that REDUCE leaves in BOB (R237). -/
def Xc.redBob (x : Xc) (c : Channel) (lanes : List F32C) : Channel :=
  (lanes.zip (List.range 128)).foldl (fun c l => c.bobSet x.site (iBob x.w) (l.2 / 64) (l.2 % 64) l.1) (c.bobClear x.site (iBob x.w))

/-- One output written; the lanes kept for BOB: with dimension 0 kept, lane l belongs to output l of the group of 128. An output of an
invalid row is neither written nor left in BOB (R115). DESIGN CHOICE (log 166): max and min of FP32C into FP32C write the exact pair. -/
def Xc.redStep (x : Xc) (c : Channel) (keep : List Nat) : Channel :=
  let (v, a) := x.redOut c keep
  let d := x.desc (iD1 x.w)
  let rowKept := (List.range (dNdim d)).all (fun k => k == 0 || !redDim x.w k)
  let c1 := c.count (Reg.CORE_ACCINF x.site) a.inf
  let c2 := x.put c1 (iD0 x.w) [⟨keep, v, none⟩]
  if rowKept && !x.valid c 1 keep then c1
  else if redOp x.w = 1 ∨ redOp x.w = 2 then c2
  else if redDim x.w 0 then x.redBob c2 a.lanes
  else
    let l := keep.headD 0 % 128
    let c3 := if l = 0 then c2.bobClear x.site (iBob x.w) else c2
    c3.bobSet x.site (iBob x.w) (l / 64) (l % 64) (a.lanes.headD czero)

/-- The identity of a reduction (R116). -/
def redIdentity (op : Nat) : Val :=
  match op with
  | 1 => .inf true
  | 2 => .inf false
  | _ => vZero

def redCapProduct (d : Nat) (w : IWord) : Nat :=
  (List.range (dNdim d)).foldl (fun p k => if redDim w k then p * dCapRaw d k else p) 1

def specReduce : OpSpec :=
  { specBase with
    opc := 0x180
    legal := fun w => tOk ⟨true, true, false, false, true, true, false, 0x7F, 0, false⟩ w && iFunc w % 32 != 0
    roles := fun _ w => [rRd (iD1 w) 1] ++ maskRole w ++ [rWr (iD0 w) 0]
    bad := fun x =>
      let d1 := x.desc (iD1 x.w)
      if iFunc x.w % 32 / 2 ^ dNdim d1 ≠ 0 then some fcInstIllegal
      else dfsm (fmQ8HSC (dFmt d1) && fmSC (dFmt (x.desc (iD0 x.w))) && x.maskFmt)
                (coversCap (x.desc (iD0 x.w)) d1 false && decide (redCapProduct d1 x.w ≤ 2 ^ 32))
    zero := fun x => anyZero x.d1Exts
    zeroRun := fun x f =>
      let ks := redKeeps (x.desc (iD1 x.w)) x.w
      (x.put x.c (iD0 x.w) (ks.map (fun k => ⟨k, redIdentity (redOp x.w), none⟩)), { f with wrote := true })
    block := fun x fs => bobsInUse fs [iBob x.w]
    writes := fun _ => true
    run := fun x f =>
      let g := { f with bobs := [iBob x.w] }
      if x.c.bobBusy x.site x.st [iBob x.w] then (x.c, { g with ph := .bobbins })
      else x.endWalk (walk x.redChk x.redStep (redKeeps (x.desc (iD1 x.w)) x.w) (x.c.bobClear x.site (iBob x.w))) { g with ph := .done } }

/-! ### The top-k unit (R241 to R243) -/

/-- Whether candidate a ranks before candidate b: larger value first, then lower position. -/
def ranksBefore (a b : Nat × Val) : Bool := vLt b.2 a.2 || !vLt a.2 b.2 && decide (a.1 < b.1)

def rankInsert (a : Nat × Val) : List (Nat × Val) → List (Nat × Val)
  | [] => [a]
  | b :: t => if ranksBefore a b then a :: b :: t else b :: rankInsert a t

/-- The candidates in rank order; NaN is never selected (R242). -/
def ranked (vs : List (Nat × Val)) : List (Nat × Val) :=
  (vs.filter (fun v => v.2 != .nan)).foldr rankInsert []

/-- Writes an INT32 element. -/
def Xc.putInt (x : Xc) (c : Channel) (idx : Nat) (i : List Nat) (v : Int) : Channel := c.stCode (x.opdW idx) i (unsigned 32 v)

/-- One row of TOPK. -/
def Xc.topkRow (x : Xc) (c : Channel) (r : List Nat) : Channel :=
  let o := x.opd (iD1 x.w)
  let k := iImm x.w
  let cs := ((List.range (dExt o.d 0)).filter (fun i => x.valid c 0 (i :: r))).map (fun i => (i, c.ldVal o (i :: r)))
  let sel := (ranked cs).take k
  let n := sel.length
  let c1 := c.count (Reg.CORE_TOPKNAN x.site) (cs.filter (fun v => v.2 == .nan)).length
  let c2 := if iD0 x.w = 0 then c1 else x.put c1 (iD0 x.w) ((sel.zip (List.range n)).map (fun e => ⟨e.2 :: r, e.1.2, none⟩))
  let ps : List Int := sel.map (fun e => (e.1 : Int)) ++ List.replicate (k - n) (-1)
  let c3 := (ps.zip (List.range k)).foldl (fun c (e : Int × Nat) => x.putInt c (iD2 x.w) (e.2 :: r) e.1) c2
  let c4 := if iD3 x.w = 0 then c3 else x.putInt c3 (iD3 x.w) (0 :: r) (n : Int)
  if n < k then c4.count (Reg.CORE_TOPKSHORT x.site) 1 else c4

def Xc.topkChk (x : Xc) (_ : Channel) (r : List Nat) : Option Ovf :=
  let d := x.desc (iD1 x.w)
  let top := (dExt d 0 - 1) :: r
  firstOvf [ovfAt 1 (iD1 x.w) d false top, x.maskOvf 0 top]

/-- Dimension 0 of at least n, the other dimensions covering d's. -/
def rowsCover (a d n : Nat) : Bool :=
  decide (n ≤ dCap a 0) && (rangeFrom 1 4).all (fun k => decide (dCap d k ≤ dCap a k))

def specTopk : OpSpec :=
  { specBase with
    opc := 0x181
    streams := fun s => s != .u
    legal := fun w => tOk ⟨true, true, true, true, true, false, false, 0, immAll, false⟩ w && decide (1 ≤ iImm w) && decide (iImm w ≤ 4096)
    roles := fun _ w => [rRd (iD1 w) 1] ++ maskRole w ++ (if iD0 w = 0 then [] else [rWr (iD0 w) 0]) ++ [rWr (iD2 w) 2]
                        ++ (if iD3 w = 0 then [] else [rWr (iD3 w) 3])
    bad := fun x =>
      let d1 := x.desc (iD1 x.w)
      dfsm (fmHS (dFmt d1) && (iD0 x.w == 0 || fmHS (dFmt (x.desc (iD0 x.w)))) && fmI (dFmt (x.desc (iD2 x.w)))
            && (iD3 x.w == 0 || fmI (dFmt (x.desc (iD3 x.w)))) && x.maskFmt)
           ((iD0 x.w == 0 || coversCap (x.desc (iD0 x.w)) d1 false) && rowsCover (x.desc (iD2 x.w)) d1 (iImm x.w)
            && (iD3 x.w == 0 || rowsCover (x.desc (iD3 x.w)) d1 1))
    zero := fun x => anyZero x.d1Exts
    zeroRun := fun x f =>
      let rows := idxs (x.d1Exts.drop 1)
      if iD3 x.w = 0 then (x.c, f)
      else (rows.foldl (fun c r => x.putInt c (iD3 x.w) (0 :: r) 0) x.c, { f with wrote := true })
    writes := fun _ => true
    run := fun x f => x.endWalk (walk x.topkChk x.topkRow (idxs (x.d1Exts.drop 1)) x.c) f }

/-! ### ROUTE (R245 to R247) -/

def rtCap (w : IWord) : Nat := iImm w % 2 ^ 16
def rtK (w : IWord) : Nat := iImm w / 2 ^ 16 % 256
def rtGate (w : IWord) : Bool := bit (iImm w) 24

/-- One selection: token, expert, gate. -/
structure RtSel where
  tok : Nat
  exp : Nat
  gate : Val
deriving DecidableEq, Repr

/-- A token's selections in rank order with their gates (R246 phase 1). -/
def Xc.rtToken (x : Xc) (c : Channel) (b : List Nat) (t : Nat) : List RtSel :=
  let o := x.opd (iD1 x.w)
  let vs := (List.range (dExt o.d 0)).map (fun e => (e, c.ldVal o (e :: t :: b)))
  let sel := (ranked vs).take (rtK x.w)
  let pool := if rtGate x.w then vs else sel
  let mx := pool.foldl (fun m v => vMax m v.2) (.inf true)
  let key (e : Nat) : Nat := 2 * o.bitAddr (e :: t :: b)
  let ex (v : Nat × Val) : Val := f32Val (fnExp x.fr (key v.1) (f32Val (rn32 (vSub v.2 mx))))
  let sum := cVal (pool.foldl (fun s v => cAdd s (cTerm (ex v))) czero)
  sel.map (fun v => ⟨t, v.1, f32Val (vDiv32 (ex v) sum)⟩)

/-- Assignment state: per expert the tokens and gates taken so far, the selections that overflowed it. -/
structure RtAcc where
  slots : List (Nat × List (Nat × Val))
  nOver : List (Nat × Nat)
  asgn : List Nat
deriving DecidableEq, Repr

/-- One selection takes the lowest free slot of its expert, or overflows (R246 phase 2). -/
def rtAssign (cap : Nat) (a : RtAcc) (s : RtSel) : RtAcc :=
  let l := mget (fun _ => []) a.slots s.exp
  if l.length < cap then { a with slots := mset (fun _ => []) a.slots s.exp (l ++ [(s.tok, s.gate)]), asgn := s.tok :: a.asgn }
  else { a with nOver := mset (fun _ => 0) a.nOver s.exp (mget (fun _ => 0) a.nOver s.exp + 1) }

/-- Writes one batch's results (R246 phase 3). -/
def Xc.rtWrite (x : Xc) (c : Channel) (b : List Nat) (ne : Nat) (a : RtAcc) : Channel :=
  (List.range ne).foldl (fun c e =>
    let l := mget (fun _ => []) a.slots e
    let c1 := (List.range (rtCap x.w)).foldl (fun c s =>
      match l[s]? with
      | some (t, g) => x.store (x.putInt c (iD0 x.w) (s :: e :: b) (t : Int)) (iD2 x.w) [⟨s :: e :: b, g, none⟩]
      | none => x.store (x.putInt c (iD0 x.w) (s :: e :: b) (-1)) (iD2 x.w) [⟨s :: e :: b, vZero, none⟩]) c
    let c2 := x.histPut c1 (iD0 x.w) ((List.range (rtCap x.w)).map (fun s => vInt ((l[s]?).elim (-1) (fun y => (y.1 : Int)))))
    let c3 := x.putInt c2 (iD3 x.w) (e :: 0 :: b) (l.length : Int)
    x.putInt c3 (iD3 x.w) ((ne + e) :: 0 :: b) (mget (fun _ => 0) a.nOver e : Nat)) c

/-- One batch of ROUTE; the top-k unit counts the NaN candidates that it passes over (R242, R246). -/
def Xc.rtBatch (x : Xc) (c : Channel) (b : List Nat) : Channel :=
  let d := x.desc (iD1 x.w)
  let toks := (List.range (dExt d 1)).filter (fun t => x.valid c 1 (0 :: t :: b))
  let sels := toks.map (fun t => x.rtToken c b t)
  let order := (List.range (rtK x.w)).flatMap (fun r => sels.filterMap (fun l => l[r]?))
  let a := order.foldl (rtAssign (rtCap x.w)) ⟨[], [], []⟩
  let res := (sels.filter (fun l => !l.isEmpty && l.all (fun s => !a.asgn.contains s.tok))).length
  let nans := toks.foldl (fun n t => n + ((List.range (dExt d 0)).filter (fun e => c.ldVal (x.opd (iD1 x.w)) (e :: t :: b) == .nan)).length) 0
  let c1 := (x.rtWrite c b (dExt d 0) a).count (Reg.CORE_TOPKNAN x.site) nans
  ((c1.count (Reg.CORE_ROUTEASGN x.site) a.asgn.length).count (Reg.CORE_ROUTEOVF x.site) (order.length - a.asgn.length)).count
    (Reg.CORE_ROUTERES x.site) res

def Xc.rtChk (x : Xc) (_ : Channel) (b : List Nat) : Option Ovf :=
  let d := x.desc (iD1 x.w)
  let top := (dExt d 0 - 1) :: (dExt d 1 - 1) :: b
  firstOvf [ovfAt 1 (iD1 x.w) d false top, x.maskOvf 1 top]

def specRoute : OpSpec :=
  { specBase with
    opc := 0x182
    streams := fun s => s != .u
    legal := fun w => tOk ⟨true, true, true, true, true, false, false, 0, immAll, false⟩ w && decide (1 ≤ rtCap w)
                      && decide (1 ≤ rtK w) && decide (rtK w ≤ 8) && decide (iImm w < 2 ^ 25)
    roles := fun _ w => [rRd (iD1 w) 1] ++ maskRole w ++ [rWr (iD0 w) 0, rWr (iD2 w) 2, rWr (iD3 w) 3]
    bad := fun x =>
      let d1 := x.desc (iD1 x.w)
      let d0 := x.desc (iD0 x.w)
      let d2 := x.desc (iD2 x.w)
      let d3 := x.desc (iD3 x.w)
      let batch (a : Nat) : Bool := [2, 3, 4].all (fun k => decide (dCap d1 k ≤ dCap a k))
      let shape (a : Nat) : Bool := decide (rtCap x.w ≤ dCap a 0) && decide (dCap d1 0 ≤ dCap a 1) && batch a
      if dCap d1 0 < rtK x.w then some fcInstIllegal
      else dfsm (fmHS (dFmt d1) && fmI (dFmt d0) && fmHS (dFmt d2) && fmI (dFmt d3) && x.maskFmt)
                (decide (dCap d1 0 ≤ 4096) && shape d0 && dNdim d2 == dNdim d0 && (List.range 5).all (fun k => dCap d2 k == dCap d0 k) && decide (2 * dCap d1 0 ≤ dCap d3 0) && batch d3)
    zero := fun x => anyZero x.d1Exts
    zeroRun := fun x f =>
      let d := x.desc (iD1 x.w)
      ((idxs (x.d1Exts.drop 2)).foldl (fun c b =>
        (List.range (2 * dExt d 0)).foldl (fun c e => x.putInt c (iD3 x.w) (e :: 0 :: b) 0) c) x.c, { f with wrote := true })
    writes := fun _ => true
    run := fun x f => x.endWalk (walk x.rtChk x.rtBatch (idxs (x.d1Exts.drop 2)) x.c) f }

/-! ### Meanings -/

def execReduce (p : Place) (w : IWord) (s : State) : Outc := .next (s.issueAt specReduce p w 0)
def execTopk (p : Place) (w : IWord) (s : State) : Outc := .next (s.issueAt specTopk p w 0)
def execRoute (p : Place) (w : IWord) (s : State) : Outc := .next (s.issueAt specRoute p w 0)

end Sys2Proof.Machine
end

