-- ==== Sys2Proof/Machine/Move.lean ====
section
/-! DEFINITION. Class MOVE but SEND and RECV: COPY, GATHER, SCATTER, BSWAP, OFFLOAD, PREFETCH, and the half tables
(R101, R131, R146, R153, R235, R262 to R265, R395). -/

namespace Sys2Proof.Machine

open Sys2Proof

/-- Elements of a 128-byte line (R153). -/
def lineElems (d : Nat) : Nat := max 1 (1024 / dBits d)

/-- Copies one element with its bits, and the block scale where the format is MX. -/
def Channel.copyCode (c : Channel) (src dst : Opd) (i j : List Nat) : Channel :=
  let c1 := c.stCode dst j (c.ldCode src i)
  if dSmode dst.d = 2 ∧ dSmode src.d = 2 then c1.stByte (dst.scaleAddr j) (c.ldByte (src.scaleAddr i)) (dOffl dst.d) else c1

/-- Moves elements from a source to D0: bits unchanged where the formats agree, else by conversion (R203, R223). -/
def Xc.moveTo (x : Xc) (c : Channel) (src : Opd) (idx : Nat) (ps : List (List Nat × List Nat)) : Channel :=
  let dst := x.opdW idx
  if dFmt src.d = dFmt dst.d then
    let c1 := ps.foldl (fun c p => c.copyCode src dst p.1 p.2) c
    x.histPut c1 idx (ps.map (fun p => c1.ldVal dst p.2))
  else x.putUncounted c idx (ps.map (fun p => ⟨p.2, c.ldVal src p.1, none⟩))

/-- One line of COPY or OFFLOAD. -/
def Xc.copyLine (x : Xc) (c : Channel) (u : Chunk) : Channel :=
  if x.valid c 1 u.top then x.moveTo c (x.opd (iD1 x.w)) (iD0 x.w) (u.idx.map (fun i => (i, i))) else c

def Xc.lines (x : Xc) : List Chunk := chunks (lineElems (x.desc (iD1 x.w))) x.d1Exts

def specCopy : OpSpec :=
  { specBase with
    opc := 0x1C0
    legal := tOk ⟨true, true, false, false, true, false, false, 0, 0, false⟩
    roles := fun _ w => [rRd (iD1 w) 1] ++ maskRole w ++ [rWr (iD0 w) 0]
    bad := fun x => dfsm (dFmt (x.desc (iD0 x.w)) == dFmt (x.desc (iD1 x.w)) && x.maskFmt) (coversCap (x.desc (iD0 x.w)) (x.desc (iD1 x.w)) false)
    zero := fun x => anyZero x.d1Exts
    writes := fun _ => true
    run := fun x f => x.endWalk (walk x.ewChk x.copyLine x.lines x.c) f }

/-- OFFLOAD: a copy whose D0 lies in LPDDR5X or flash (R395). -/
def specOffload : OpSpec :=
  { specCopy with
    opc := 0x1C6
    streams := fun s => s == .f
    legal := tOk ⟨true, true, false, false, false, false, false, 0, 0, false⟩
    bad := fun x =>
      match x.c.row (x.opdW (iD0 x.w)).span.lo with
      | .lp _ => specCopy.bad x
      | .flash _ => specCopy.bad x
      | _ => some fcAddrBad }

/-- PREFETCH: its walk is checked, and nothing is written (R101). -/
def specPrefetch : OpSpec :=
  { specBase with
    opc := 0x1C7
    legal := tOk ⟨false, true, false, false, false, false, false, 0, 0, false⟩
    roles := fun _ w => [rRd (iD1 w) 1]
    zero := fun x => anyZero x.d1Exts
    run := fun x f =>
      x.endWalk (walk (fun _ u => ovfAt 1 (iD1 x.w) (x.desc (iD1 x.w)) false u.top) (fun c _ => c) x.lines x.c) f }

/-! ### GATHER and SCATTER -/

/-- A signed index entry as CORE_OVFEXT shows it. -/
def entryBits (e : Int) : Nat := unsigned 32 e

/-- An index entry out of range (R146, R235); -1 is an empty entry. -/
def entryOvf (idx : Nat) (e : Int) (ext pos : Nat) : Option Ovf :=
  if e = -1 ∨ (0 ≤ e ∧ e < (ext : Int)) then none else some ⟨5, 5, idx, entryBits e, ext, pos⟩

/-- The last dimension of a descriptor and an index list with position i there. -/
def dOuter (d : Nat) : Nat := dNdim d - 1
def outerIdx (inner : List Nat) (i : Nat) : List Nat := inner ++ [i]

/-- One unit of GATHER or SCATTER: n index entries from i, and the elements along D1's inner dimensions that it moves for each. -/
structure MoveUnit where
  i : Nat
  n : Nat
  u : Chunk
deriving DecidableEq, Repr

/-- The inner index lists, the last and the first of them, and whether the unit is the first of its row. -/
def MoveUnit.inner (m : MoveUnit) : List (List Nat) := if m.u.n = 0 then [[]] else m.u.idx
def MoveUnit.top (m : MoveUnit) : List Nat := if m.u.n = 0 then [] else m.u.top
def MoveUnit.low (m : MoveUnit) : List Nat := if m.u.n = 0 then [] else m.u.lo :: m.u.hi
def MoveUnit.first (m : MoveUnit) : Bool := m.u.lo == 0 && m.u.hi.all (fun k => k == 0)

/-- Elements of a unit: a 128-byte line of D1, in whole blocks where D0 is MX (R153, R205; log 167). -/
def moveElems (d1 d0 : Nat) : Nat := if dSmode d0 = 2 then max 32 (lineElems d1 / 32 * 32) else lineElems d1

/-- The units of `rows` index entries, the entries outermost. -/
def moveUnits (d1 d0 rows : Nat) : List MoveUnit :=
  let w := moveElems d1 d0
  if dOuter d1 = 0 then (List.range (ceilDiv rows w)).map (fun k => ⟨k * w, min w (rows - k * w), ⟨0, 0, []⟩⟩)
  else (List.range rows).flatMap (fun i => (chunks w ((List.range (dOuter d1)).map (dExt d1))).map (fun u => ⟨i, 1, u⟩))

/-- The index entries of a unit. -/
def MoveUnit.entries (m : MoveUnit) : List Nat := rangeFrom m.i m.n

def Xc.entry (x : Xc) (c : Channel) (i : Nat) : Int := c.ldInt (x.opd (iD2 x.w)) [i]

/-- The check of a tensor's row r over a unit's elements. -/
def Xc.rowOvfAt (x : Xc) (opnd idx : Nat) (m : MoveUnit) (r : Nat) : Option Ovf :=
  ovfSpan opnd idx (x.desc idx) false (outerIdx m.low r) (outerIdx m.top r)

/-- The mask's check of row r. -/
def Xc.rowMaskOvf (x : Xc) (m : MoveUnit) (r : Nat) : Option Ovf := x.maskOvf 1 (outerIdx m.top r)

/-- The checks of one entry of GATHER: the index element, the entry, D1's row that it names, the mask, D0's row (R146, R154, R155). -/
def Xc.gatherChk (x : Xc) (c : Channel) (m : MoveUnit) : Option Ovf :=
  let d1 := x.desc (iD1 x.w)
  m.entries.findSome? (fun i =>
    let e := x.entry c i
    firstOvf ([ovfAt 2 (iD2 x.w) (x.desc (iD2 x.w)) false [i]]
      ++ if (ovfAt 2 (iD2 x.w) (x.desc (iD2 x.w)) false [i]).isSome ∨ e = -1 then []
         else
           match entryOvf (iD2 x.w) e (dExt d1 (dOuter d1)) i with
           | some o => [some o]
           | none => [x.rowOvfAt 1 (iD1 x.w) m e.toNat, x.rowMaskOvf m e.toNat, x.rowOvfAt 0 (iD0 x.w) m i]))

/-- Counts the -1 entries of a unit, once for each row (R146, R235). -/
def Xc.countEmpty (x : Xc) (c : Channel) (m : MoveUnit) : Channel :=
  if m.first then c.count (Reg.CORE_IDXINV x.site) (m.entries.filter (fun i => x.entry c i == -1)).length else c

/-- One unit of GATHER; an entry of -1 leaves D0's row and is counted (R146). -/
def Xc.gatherUnit (x : Xc) (c : Channel) (m : MoveUnit) : Channel :=
  let ps := m.entries.flatMap (fun i =>
    let e := x.entry c i
    if e = -1 then []
    else (m.inner.filter (fun q => x.valid c 1 (outerIdx q e.toNat))).map (fun q => (outerIdx q e.toNat, outerIdx q i)))
  x.moveTo (x.countEmpty c m) (x.opd (iD1 x.w)) (iD0 x.w) ps

def specGather : OpSpec :=
  { specBase with
    opc := 0x1C1
    legal := tOk ⟨true, true, true, false, true, false, false, 0, 0, false⟩
    roles := fun _ w => [rRd (iD1 w) 1, rRd (iD2 w) 2] ++ maskRole w ++ [rWr (iD0 w) 0]
    bad := fun x =>
      let d0 := x.desc (iD0 x.w)
      dfsm (fmI (dFmt (x.desc (iD2 x.w))) && x.maskFmt) (decide (dCap (x.desc (iD2 x.w)) 0 ≤ dCap d0 (dOuter d0)))
    zero := fun x => dExt (x.desc (iD2 x.w)) 0 == 0 || anyZero (((x.d1Exts).reverse.drop 1))
    writes := fun _ => true
    run := fun x f =>
      x.endWalk (walk x.gatherChk x.gatherUnit (moveUnits (x.desc (iD1 x.w)) (x.desc (iD0 x.w)) (dExt (x.desc (iD2 x.w)) 0)) x.c) f }

/-- The checks of a unit of SCATTER, entry by entry. -/
def Xc.scatterChk (x : Xc) (c : Channel) (m : MoveUnit) : Option Ovf :=
  let d0 := x.desc (iD0 x.w)
  m.entries.findSome? (fun i =>
    let e := x.entry c i
    match firstOvf [x.rowOvfAt 1 (iD1 x.w) m i, ovfAt 2 (iD2 x.w) (x.desc (iD2 x.w)) false [i]] with
    | some o => some o
    | none =>
      if e = -1 then none
      else firstOvf [x.rowMaskOvf m i, entryOvf (iD2 x.w) e (dExt d0 (dOuter d0)) i, if 0 ≤ e then x.rowOvfAt 0 (iD0 x.w) m e.toNat else none])

/-- One unit of SCATTER: written, or added in FP32C where FUNC[0] is 1, in the order of its entries (R235). -/
def Xc.scatterUnit (x : Xc) (c : Channel) (m : MoveUnit) : Channel :=
  let o1 := x.opd (iD1 x.w)
  let o0 := x.opdW (iD0 x.w)
  let c1 := x.countEmpty c m
  let rows := (m.entries.filter (fun i => x.entry c i != -1)).map (fun i => (i, m.inner.filter (fun q => x.valid c 1 (outerIdx q i))))
  if bit (iFunc x.w) 0 then
    rows.foldl (fun c r =>
      x.putUncounted c (iD0 x.w) (r.2.map (fun q =>
        let j := outerIdx q (x.entry c r.1).toNat
        ⟨j, cVal (cAdd (cTerm (c.ldVal o0 j)) (cTerm (c.ldVal o1 (outerIdx q r.1)))), none⟩))) c1
  else x.moveTo c1 o1 (iD0 x.w) (rows.flatMap (fun r => r.2.map (fun q => (outerIdx q r.1, outerIdx q (x.entry c r.1).toNat))))

def specScatter : OpSpec :=
  { specBase with
    opc := 0x1C2
    legal := tOk ⟨true, true, true, false, true, false, false, 1, 0, false⟩
    roles := fun _ w => [rRd (iD1 w) 1, rRd (iD2 w) 2] ++ maskRole w ++ [⟨iD0 w, 0, bit (iFunc w) 0, true⟩]
    bad := fun x =>
      let d1 := x.desc (iD1 x.w)
      dfsm (fmI (dFmt (x.desc (iD2 x.w))) && x.maskFmt && (!bit (iFunc x.w) 0 || fmSC (dFmt (x.desc (iD0 x.w)))))
           (decide (dCap d1 (dOuter d1) ≤ dCap (x.desc (iD2 x.w)) 0))
    zero := fun x => anyZero x.d1Exts
    writes := fun _ => true
    run := fun x f =>
      let d1 := x.desc (iD1 x.w)
      x.endWalk (walk x.scatterChk x.scatterUnit (moveUnits d1 (x.desc (iD0 x.w)) (dExt d1 (dOuter d1))) x.c) f }

/-! ### Half tables and BSWAP (R262 to R264) -/

/-- DF and DD of half-table entry n. -/
def Channel.halfDF (c : Channel) (i n : Nat) : Nat := c.fld (Reg.CORE_HALF_CFG i n) Fl.CORE_HALF_CFG_DF
def Channel.halfDD (c : Channel) (i n : Nat) : Nat := c.fld (Reg.CORE_HALF_CFG i n) Fl.CORE_HALF_CFG_DD

/-- The entries that stand: valid, and naming no descriptor of a lower entry that stands (R262). -/
def Channel.halfLive (c : Channel) (i : Nat) : List Nat :=
  (List.range 16).foldl (fun l n =>
    let ds := [c.halfDF i n, c.halfDD i n]
    if c.fld (Reg.CORE_HALF_CFG i n) Fl.CORE_HALF_CFG_VALID = 1 ∧ l.all (fun m => !ds.contains (c.halfDF i m) && !ds.contains (c.halfDD i m))
    then l ++ [n] else l) []

/-- The standing entry that names descriptor d. -/
def Channel.halfOf (c : Channel) (i d : Nat) : Option Nat :=
  (c.halfLive i).find? (fun n => c.halfDF i n == d || c.halfDD i n == d)

/-- Address of half k of entry n: HBASE + k * SPAN * 64. -/
def Channel.halfAddr (c : Channel) (i n k : Nat) : Nat :=
  (c.fld (Reg.CORE_HALF_BASEL i n) Fl.CORE_HALF_BASEL_ADDR * 64 + c.fld (Reg.CORE_HALF_BASEH i n) Fl.CORE_HALF_BASEH_ADDR * 2 ^ 32
    + k * c.rd (Reg.CORE_HALF_SPAN i n) * 64) % 2 ^ 48

/-- Writes BASE of a descriptor. -/
def Channel.setBase (c : Channel) (i d a : Nat) : Channel :=
  c.setDescWord i d 0 (setBits (bits (c.descRaw i d) 0 64) 0 48 a)

/-- Sets SIDE of entry n and both BASE fields (R263, R264). -/
def Channel.setSide (c : Channel) (i n side : Nat) : Channel :=
  let c1 := c.setFld (Reg.CORE_HALF_CFG i n) Fl.CORE_HALF_CFG_SIDE side
  let c2 := c1.setBase i (c.halfDF i n) (c.halfAddr i n side)
  if c.halfDD i n = c.halfDF i n then c2 else c2.setBase i (c.halfDD i n) (c.halfAddr i n (1 - side))

def specBswap : OpSpec :=
  { specBase with
    opc := 0x1C5
    legal := tOk ⟨true, false, false, false, false, false, false, 0, 0, false⟩
    roles := fun _ w => [⟨iD0 w, 0, false, false⟩]
    noop := fun x => if (x.c.halfOf x.site (iD0 x.w)).isSome then none else some (Reg.CORE_NOOPST x.site)
    block := fun x fs =>
      match x.c.halfOf x.site (iD0 x.w) with
      | some n => fs.any (fun g => g.snap.any (fun e => e.1 == x.c.halfDF x.site n || e.1 == x.c.halfDD x.site n))
      | none => false
    run := fun x f =>
      match x.c.halfOf x.site (iD0 x.w) with
      | some n =>
        ((x.c.setSide x.site n (1 - x.c.fld (Reg.CORE_HALF_CFG x.site n) Fl.CORE_HALF_CFG_SIDE)).count (Reg.CORE_BSWAPS x.site) 1, f)
      | none => (x.c, f) }

/-! ### Meanings -/

def execCopy (p : Place) (w : IWord) (s : State) : Outc := .next (s.issueAt specCopy p w 0)
def execGather (p : Place) (w : IWord) (s : State) : Outc := .next (s.issueAt specGather p w 0)
def execScatter (p : Place) (w : IWord) (s : State) : Outc := .next (s.issueAt specScatter p w 0)
def execBswap (p : Place) (w : IWord) (s : State) : Outc := .next (s.issueAt specBswap p w 0)
def execOffload (p : Place) (w : IWord) (s : State) : Outc := .next (s.issueAt specOffload p w 0)
def execPrefetch (p : Place) (w : IWord) (s : State) : Outc := .next (s.issueAt specPrefetch p w 0)

end Sys2Proof.Machine
end

