-- ==== Sys2Proof/Machine/Queues.lean ====
section
/-! DEFINITION. Queues between cores: SEND, RECV, credits, spilling into the darning ring (R177 to R191, R194, R273, R274). -/

namespace Sys2Proof.Machine

open Sys2Proof

/-! ### The darning region (R185) -/

def Channel.darnBase (c : Channel) (i : Nat) : Nat := c.fld (Reg.CORE_DARN i) Fl.CORE_DARN_BASE
def Channel.darnQsz (c : Channel) (i : Nat) : Nat := c.fld (Reg.CORE_DARN i) Fl.CORE_DARN_QSZ

/-- Lines of each queue's ring; 0 where spilling is disabled. -/
def Channel.ringLines (c : Channel) (i : Nat) : Nat :=
  if (c.darnBase i + 8 * c.darnQsz i) * 4096 ≤ 0x20_0000 then c.darnQsz i * 32 else 0

/-- Where place k of queue q's ring lies. -/
def Channel.ringAddr (c : Channel) (i q k : Nat) : Nat := spadBase i + (c.darnBase i + q * c.darnQsz i) * 4096 + k * 128

/-- The 128 bytes of a line, least significant first. -/
def lineBytes (l : QLine) : List Byte := leBytes 128 l.data.toNat

/-! ### Credits and spilling (R179, R187, R188) -/

/-- A credit goes back to the recorded producer. -/
def Channel.giveCredit (c : Channel) (i q prod : Nat) : Channel := { c with qcreds := c.qcreds ++ [⟨i, prod, q⟩] }

/-- The credits that R188 lets a spilling queue return: how many, of at most h held, with `free` ring places. -/
def spillReturns (free : Nat) : Nat → Nat
  | 0 => 0
  | h + 1 => if 64 - h ≤ free then 1 + spillReturns free h else 0

/-- Returns what R188 allows while queue q spills. -/
def Channel.spillCredits (c : Channel) (i q : Nat) : Channel :=
  let y := (c.core i).queue q
  match y.psite with
  | some p =>
    if y.spill then
      let n := spillReturns (c.ringLines i - y.ring.length) y.h
      (List.range n).foldl (fun c _ => c.giveCredit i q p) (c.setCore i ((c.core i).setQueue q { y with h := y.h - n }))
    else c
  | none => c

/-- Queue q starts to spill, unless spilling is disabled (R187). -/
def Channel.startSpill (c : Channel) (i q : Nat) : Channel :=
  if c.ringLines i = 0 then c
  else (c.setCore i ((c.core i).setQueue q { (c.core i).queue q with spill := true })).spillCredits i q

/-- The queue on which a stream waits at RECV, if that queue holds no line (R184). -/
def Core.recvWait (k : Core) (st : Strm) : Option Nat :=
  match (k.str st).flights.find? (fun f => f.ph == .recv) with
  | some f =>
    let q := bits (iImm f.w) 8 3
    if (k.queue q).fifo.isEmpty then some q else none
  | none => none

/-- Starts spilling where R187 case 1 says so. -/
def Channel.spillCheck (c : Channel) (i : Nat) : Channel :=
  (List.range 8).foldl (fun c q =>
    let k := c.core i
    let waits (st : Strm) : Bool := match k.recvWait st with | some r => r != q | none => false
    if (k.queue q).fifo.length = 64 ∧ !(k.queue q).spill ∧ (waits .f || waits .b) then c.startSpill i q else c) c

/-- Takes the line at a queue's head: its credit, the ring's head into the FIFO, the end of spilling (R179, R187, R188). -/
def Channel.qPop (c : Channel) (i q : Nat) : Option (QLine × Channel) :=
  let y := (c.core i).queue q
  match y.fifo with
  | [] => none
  | l :: t =>
    let y1 : Queue :=
      match y.ring with
      | [] => { y with fifo := t }
      | hd :: rs =>
        { y with fifo := t ++ [⟨hd, BitVec.ofNat 1024 (c.ldN (c.ringAddr i q y.head) 128)⟩], ring := rs, head := (y.head + 1) % c.ringLines i }
    if y.spill then
      if y1.fifo.isEmpty ∧ y1.ring.isEmpty then
        let c1 := c.setCore i ((c.core i).setQueue q { y1 with spill := false, h := 0 })
        some (l, match y.psite with
          | some p => (List.range y1.h).foldl (fun c _ => c.giveCredit i q p) c1
          | none => c1)
      else some (l, (c.setCore i ((c.core i).setQueue q y1)).spillCredits i q)
    else
      let c1 := c.setCore i ((c.core i).setQueue q { y1 with h := y1.h - 1 })
      some (l, match y.psite with
        | some p => c1.giveCredit i q p
        | none => c1)

/-! ### SEND (R180, R183, R273) -/

/-- KIND of a frame header. -/
def kindCode (k : RunKind) : Nat :=
  match k with
  | .f => 0
  | .b => 1
  | .e => 2
  | .u => 0

/-- A frame header line (R180). -/
def headerLine (kind config mb press rows lastf src rowbytes vmask : Nat) : QLine :=
  ⟨true, BitVec.ofNat 1024 (kind + config * 2 ^ 8 + mb * 2 ^ 16 + press * 2 ^ 32 + rows * 2 ^ 64 + lastf * 2 ^ 72 + src * 2 ^ 80
    + rowbytes * 2 ^ 96 + vmask * 2 ^ 128)⟩

/-- Element bytes, scale bytes and ROWBYTES of a row along dimension 0 (R273). -/
def rowElemBytes (d : Nat) : Nat := (dExt d 0 * dBits d + 7) / 8
def rowScales (d : Nat) : Nat := if dSmode d = 2 then ceilDiv (dExt d 0) 32 else 0
def rowBytes (d : Nat) : Nat := roundUp (rowElemBytes d + rowScales d) 4

/-- The bytes of the row at outer indices r, as a number. -/
def Channel.packRow (c : Channel) (o : Opd) (r : List Nat) : Nat :=
  let n := dExt o.d 0
  let el := (List.range n).foldl (fun x i => x + c.ldCode o (i :: r) <<< (i * dBits o.d)) 0
  (List.range (rowScales o.d)).foldl (fun x j => x + (c.ldByte (o.scaleAddr (32 * j :: r))).toNat <<< (8 * (rowElemBytes o.d + j))) el

/-- Cuts a number of n bytes into 128-byte data lines. -/
def dataLines (x n : Nat) : List QLine :=
  (List.range (ceilDiv n 128)).map (fun j => ⟨false, BitVec.ofNat 1024 (x >>> (1024 * j))⟩)

/-- The header of this run's frames. -/
def Xc.header (x : Xc) (kind rows lastf rowbytes vmask : Nat) : QLine :=
  headerLine kind x.run.config (x.run.mb % 4096) x.run.press rows lastf x.site rowbytes vmask

/-- The lines of one frame: rows t0 to t0 + n - 1 of the token dimension at outer indices r. -/
def Xc.frame (x : Xc) (c : Channel) (t0 n : Nat) (r : List Nat) (last : Bool) : List QLine :=
  let o := x.opd (iD1 x.w)
  let rb := rowBytes o.d
  let ok (k : Nat) : Bool := x.valid c 1 (0 :: (t0 + k) :: r)
  let vmask := (List.range n).foldl (fun m k => m + b2n (ok k) * 2 ^ k) 0
  let dat := (List.range n).foldl (fun y k => if ok k then y + c.packRow o ((t0 + k) :: r) <<< (8 * rb * k) else y) 0
  x.header (kindCode x.run.kind) n (b2n last) rb vmask :: dataLines dat (n * rb)

/-- The frames of a SEND: start, rows, outer indices. -/
def sendFrames (d : Nat) : List (Nat × Nat × List Nat) :=
  let m := dExt d 1
  (idxs (dExts d 2)).flatMap (fun r => (List.range (ceilDiv m 64)).map (fun k => (k * 64, min 64 (m - k * 64), r)))

/-- The frames up to the first that meets an overflow. -/
def Xc.sendLines (x : Xc) : List (Nat × Nat × List Nat) → List QLine × Option Ovf
  | [] => ([], none)
  | (t0, n, r) :: t =>
    let d := x.desc (iD1 x.w)
    let top := (dExt d 0 - 1) :: (t0 + n - 1) :: r
    match firstOvf [ovfAt 1 (iD1 x.w) d false top, x.maskOvf 1 top] with
    | some o => ([], some o)
    | none =>
      let (ls, o) := x.sendLines t
      (x.frame x.c t0 n r t.isEmpty ++ ls, o)

/-- Site and queue of a SEND. -/
def sendSite (w : IWord) : Nat := bits (iImm w) 0 7
def immQueue (w : IWord) : Nat := bits (iImm w) 8 3

/-- A core's credit pool for a pair, allocated at the first use, or in place of one whose credits are all home (R179). -/
def poolFor (ps : List Pool) (site q : Nat) : Option (List Pool) :=
  if ps.any (fun p => p.site == site && p.queue == q) then some ps
  else if ps.length < 32 then some (ps ++ [⟨site, q, 64⟩])
  else
    match ps.find? (fun p => p.credits == 64) with
    | some old => some (eraseFirst old ps ++ [⟨site, q, 64⟩])
    | none => none

/-- Sends lines while the pool has credits: lines left, pools, lines sent. -/
def sendGo (src site q ord : Nat) : List QLine → List Pool → List QFlight → List QLine × List Pool × List QFlight
  | [], ps, out => ([], ps, out)
  | l :: t, ps, out =>
    match poolFor ps site q with
    | none => (l :: t, ps, out)
    | some ps1 =>
      if ps1.any (fun p => p.site == site && p.queue == q && p.credits != 0) then
        sendGo src site q ord t (ps1.map (fun p => if p.site == site && p.queue == q then { p with credits := p.credits - 1 } else p))
          (out ++ [⟨src, site, q, ord, l⟩])
      else (l :: t, ps1, out)

/-- Lets one SEND flight send what its credits allow. -/
def Channel.sendFlight (c : Channel) (i : Nat) (f : Flight) : Channel × Flight :=
  let (ls, ps, out) := sendGo i (sendSite f.w) (immQueue f.w) f.ord f.lines (c.core i).pools []
  ({ c.setCore i { c.core i with pools := ps } with qlines := c.qlines ++ out },
   { f with lines := ls, ph := if ls.isEmpty then .done else .send })

/-- Lets the SENDs of a stream send, in order. -/
def Channel.sendStream (i : Nat) : List Flight → Channel → List Flight × Channel
  | [], c => ([], c)
  | f :: t, c =>
    if f.ph = .send then
      let (c1, f1) := c.sendFlight i f
      if f1.ph = .done then let (t1, c2) := Channel.sendStream i t c1; (f1 :: t1, c2) else (f1 :: t, c1)
    else let (t1, c1) := Channel.sendStream i t c; (f :: t1, c1)

def Channel.pumpSends (c : Channel) (i : Nat) : Channel :=
  [Strm.f, .b].foldl (fun c st =>
    let (fs, c1) := Channel.sendStream i (c.strm i st).flights c
    c1.modStr i st (fun s => { s with flights := fs })) c

def specSend : OpSpec :=
  { specBase with
    opc := 0x1C3
    streams := fun s => s != .u
    legal := fun w => tOk ⟨false, true, false, false, true, false, false, 0, 0x77F, false⟩ w && decide (sendSite w ≤ 99)
    roles := fun _ w => [rRd (iD1 w) 1] ++ maskRole w
    bad := fun x =>
      if (x.c.core (sendSite x.w)).owner ≠ x.owner then some fcAddrBad else dfsm x.maskFmt true
    writes := fun _ => true
    zero := fun x => anyZero x.d1Exts && !x.run.skip
    zeroRun := fun x f =>
      let g := { f with lines := [x.header (kindCode x.run.kind) 0 1 (rowBytes (x.desc (iD1 x.w))) 0], wrote := true, ph := .send }
      if (x.c.strm x.site x.st).flights.any (fun h => h.ph == .send) then (x.c, g) else x.c.sendFlight x.site g
    run := fun x f =>
      let (ls, o) := if x.run.skip then ([x.header 3 0 1 0 0], none) else x.sendLines (sendFrames (x.desc (iD1 x.w)))
      let g := { f with lines := ls, ph := .send }
      let (c1, g1) := if (x.c.strm x.site x.st).flights.any (fun h => h.ph == .send) then (x.c, g) else x.c.sendFlight x.site g
      x.endWalk (c1, o) g1 }

/-! ### RECV (R182, R183, R274) -/

/-- Fields of a header line. -/
def hKind (d : Nat) : Nat := bits d 0 8
def hConfig (d : Nat) : Nat := bits d 8 8
def hMb (d : Nat) : Nat := bits d 16 12
def hPress (d : Nat) : Nat := bits d 32 32
def hRows (d : Nat) : Nat := bits d 64 8
def hLastf (d : Nat) : Bool := bit d 72
def hRowbytes (d : Nat) : Nat := bits d 96 32
def hVmask (d : Nat) : Nat := bits d 128 64

/-- Data lines after a header. -/
def hLines (d : Nat) : Nat := ceilDiv (hRows d * hRowbytes d) 128

/-- The index list of row position k over the capacities of dimensions 1 and up, or none past them (R182). -/
def rowIdx : List Nat → Nat → Option (List Nat)
  | [], k => if k = 0 then some [] else none
  | n :: t, k => if n = 0 then none else (rowIdx t (k / n)).map (fun r => k % n :: r)

/-- Writes one row's bytes to D0. -/
def Channel.unpackRow (c : Channel) (o : Opd) (r : List Nat) (x : Nat) : Channel :=
  let c1 := (List.range (dExt o.d 0)).foldl (fun c i => c.stCode o (i :: r) (bits x (i * dBits o.d) (dBits o.d))) c
  (List.range (rowScales o.d)).foldl (fun c j =>
    c.stByte (o.scaleAddr (32 * j :: r)) (BitVec.ofNat 8 (x >>> (8 * (rowElemBytes o.d + j)))) (dOffl o.d)) c1

/-- The overflow of a row position past D0's capacity. -/
def rowOvf (idx d : Nat) : Ovf :=
  let k := dOuter d
  ⟨0, k, idx, dExt d k, dCapRaw d k, dCapRaw d k⟩

/-- Writes the rows of a whole frame from row position k0 on, each checked against D0's capacities first (R154, R182). -/
def Xc.frameRows (x : Xc) (fr : Frame) (k0 : Nat) : List Nat → Channel → Channel × Option Ovf
  | [], c => (c, none)
  | j :: t, c =>
    let o := x.opdW (iD0 x.w)
    let caps := (rangeFrom 1 (dNdim o.d - 1)).map (fun k => dCapRaw o.d k)
    match rowIdx caps (k0 + j) with
    | none => (c, some (rowOvf (iD0 x.w) o.d))
    | some r =>
      if fr.vmask.testBit j then
        match ovfAt 0 (iD0 x.w) o.d false ((dExt o.d 0 - 1) :: r) with
        | some e => (c, some e)
        | none =>
          let c2 := c.unpackRow o r (leNat ((fr.buf.drop (j * fr.rowbytes)).take fr.rowbytes))
          x.frameRows fr k0 t (x.histPut c2 (iD0 x.w) ((List.range (dExt o.d 0)).map (fun i => c2.ldVal o (i :: r))))
      else x.frameRows fr k0 t c

/-- What one line does to a RECV. -/
inductive RecvRes where
  | go (c : Channel) (f : Flight)
  | stop (c : Channel) (f : Flight) (code : Nat)

/-- Changes the run context of a flight. -/
def Channel.modRun (c : Channel) (i : Nat) (r : Rc) (g : RunInfo → RunInfo) : Channel :=
  let k := c.core i
  c.setCore i (k.setRc r ((k.rcOf r).map g))

/-- The end of a frame: its rows are written; the last frame ends the RECV. -/
def Xc.endFrame (x : Xc) (c : Channel) (f : Flight) (fr : Frame) : RecvRes :=
  let (c1, o) := x.frameRows fr f.row (List.range fr.rows) c
  match o with
  | some e => let (c2, f2) := x.endWalk (c1, some e) f; .stop c2 f2 0
  | none => .go c1 { f with frame := none, row := f.row + fr.rows, ph := if fr.lastf then .done else .recv }

/-- A header line (R182, R183, R274); a RECV's `ml` is empty until it has taken its first header. -/
def Xc.recvHeader (x : Xc) (c : Channel) (f : Flight) (d : Nat) : RecvRes :=
  let k := hKind d
  let e : Bool := x.run.kind = .e
  let skips : Bool := e && k == 3
  if !(skips || (k == kindCode x.run.kind && !x.run.skip)) || hMb d ≠ x.run.mb % 4096 then .stop c f fcFrameSeq
  else if !e && hPress d ≠ (match x.owner with | some o => c.press o | none => 0) then .stop c f fcFrameSeq
  else
    let c1 := if e && x.run.unset then c.modRun x.site x.rc (fun r => { r with press := hPress d, unset := false }) else c
    if skips then .go (c1.modRun x.site x.rc (fun r => { r with skip := true })) { f with ph := .done }
    else if f.ml.isEmpty && hRowbytes d ≠ rowBytes (x.desc (iD0 x.w)) then .stop c1 f fcShapeMismatch
    else
      let fr : Frame := ⟨hRows d, hRowbytes d, hVmask d, hLastf d, hLines d, []⟩
      let f1 := { f with ml := [(0, 0)] }
      if fr.need = 0 then x.endFrame c1 f1 fr else .go c1 { f1 with frame := some fr }

/-- One line reaches a RECV. -/
def Xc.recvLine (x : Xc) (c : Channel) (f : Flight) (l : QLine) : RecvRes :=
  match f.frame with
  | none => if l.hdr then x.recvHeader c f l.data.toNat else .go c f
  | some fr =>
    let fr1 := { fr with need := fr.need - 1, buf := fr.buf ++ lineBytes l }
    if fr1.need = 0 then x.endFrame c f fr1 else .go c { f with frame := some fr1 }

/-- The context in which a flight's later steps run. -/
def Channel.flightXc (c : Channel) (i : Nat) (st : Strm) (f : Flight) (fr : Nat) : Xc :=
  let k := c.core i
  { c := c, site := i, st := st, w := f.w, follow := f.partner.getD 0, rc := f.rc,
    run := (k.rcOf f.rc).getD ⟨.f, 0, 0, 0, false, false, 0⟩, snap := f.snap, blk := c.blkOf i, fr := fr, pc := f.pc, owner := k.owner, wm := f.wm }

/-- Feeds a RECV from its queue until it ends or the queue is empty. -/
def Channel.recvGo (i : Nat) (st : Strm) : Nat → Channel → Flight → Channel × Flight
  | 0, c, f => (c, f)
  | n + 1, c, f =>
    if f.ph ≠ .recv then (c, f)
    else
      match c.qPop i (immQueue f.w) with
      | none => (c, f)
      | some (l, c1) =>
        match (c1.flightXc i st f 0).recvLine c1 f l with
        | .go c2 f2 => Channel.recvGo i st n c2 f2
        | .stop c2 f2 code =>
          if code = 0 then (c2, f2) else (c2.raiseInstr i st f.w f.pc code, { f2 with ph := .stopped })

/-- The most lines a RECV can take at once: what its queue holds. -/
def Channel.queueLines (c : Channel) (i q : Nat) : Nat := let y := (c.core i).queue q; y.fifo.length + y.ring.length

/-- Feeds the RECVs of a stream in order; a later RECV of a queue waits for an earlier one. -/
def Channel.recvStream (i : Nat) (st : Strm) : List Nat → List Flight → Channel → List Flight × Channel
  | _, [], c => ([], c)
  | busy, f :: t, c =>
    let q := immQueue f.w
    if f.ph = .recv ∧ !busy.contains q then
      let (c1, f1) := Channel.recvGo i st (c.queueLines i q) c f
      let (t1, c2) := Channel.recvStream i st (if f1.ph = .recv then q :: busy else busy) t c1
      (f1 :: t1, c2)
    else let (t1, c1) := Channel.recvStream i st busy t c; (f :: t1, c1)

/-- Lets the RECVs of a core take what their queues hold, then lets queues start to spill. -/
def Channel.pumpRecvs (c : Channel) (i : Nat) : Channel :=
  ([Strm.f, .b].foldl (fun c st =>
    let (fs, c1) := Channel.recvStream i st [] (c.strm i st).flights c
    c1.modStr i st (fun s => { s with flights := fs, wait := if fs.any (fun f => f.ph == .stopped) then .fault else s.wait })) c).spillCheck i

def specRecv : OpSpec :=
  { specBase with
    opc := 0x1C4
    streams := fun s => s != .u
    legal := tOk ⟨true, false, false, false, false, false, false, 0, 0x700, false⟩
    roles := fun _ w => [rWr (iD0 w) 0]
    writes := fun _ => true
    run := fun x f =>
      let g := { f with ph := .recv }
      if (x.c.strm x.site x.st).flights.any (fun h => h.ph == .recv && immQueue h.w == immQueue x.w) then (x.c, g)
      else
        let (c1, f1) := Channel.recvGo x.site x.st (x.c.queueLines x.site (immQueue x.w)) x.c g
        (c1, f1) }

/-! ### Rows -/

/-- Discards a line: its credit goes back (R179, R181, R194). -/
def Channel.dropLine (c : Channel) (i q src reg : Nat) : Channel := (c.count reg 1).giveCredit i q src

/-- Stores an accepted line in the FIFO or the ring (R187, R188). -/
def Channel.storeLine (c : Channel) (i q : Nat) (l : QLine) : Channel :=
  let y := (c.core i).queue q
  let y1 := { y with h := y.h + 1 }
  if y.spill ∧ (y.fifo.length = 64 ∨ !y.ring.isEmpty) then
    if y.ring.length < c.ringLines i then
      let c1 := c.st (c.ringAddr i q ((y.head + y.ring.length) % c.ringLines i)) false (lineBytes l)
      let c2 := c1.setCore i ((c1.core i).setQueue q { y1 with ring := y.ring ++ [l.hdr] })
      let c3 := c2.count (Reg.CORE_DARNSPILL i) 1
      (if y.ring.length + 1 = c.ringLines i then c3.count (Reg.CORE_DARNFULL i) 1 else c3).spillCredits i q
    else c
  else if y.fifo.length < 64 then
    (c.setCore i ((c.core i).setQueue q { y1 with fifo := y.fifo ++ [l] })).spillCredits i q
  else c

/-- A line at its consumer: discarded for its site or epoch, or stored (R181, R194). DESIGN CHOICE (log 161): the site is looked at first, so
that a frame of an old epoch from a site other than the recorded one counts in CORE_TOKDROP. -/
def Channel.takeLine (c : Channel) (i q src : Nat) (l : QLine) : Channel :=
  let k := c.core i
  let y := k.queue q
  let d := l.data.toNat
  let other : Bool := match y.psite with | some p => p != src | none => false
  if other then c.dropLine i q src (Reg.CORE_TOKDROP i)
  else if l.hdr then
    if (match k.owner with | some x => hConfig d != c.config x | none => true) then
      (c.setCore i (k.setQueue q { y with drop := hLines d })).dropLine i q src (Reg.CORE_EPFLUSH i)
    else
      (c.setCore i (k.setQueue q { y with drop := 0, psite := some src })).storeLine i q l
  else if 0 < y.drop then
    (c.setCore i (k.setQueue q { y with drop := y.drop - 1 })).dropLine i q src (Reg.CORE_EPFLUSH i)
  else if y.psite.isNone then c.dropLine i q src (Reg.CORE_TOKDROP i)
  else c.storeLine i q l

/-- QUEUE_LINE_ARRIVE: the oldest line from this producer to this queue arrives (R48, R178, R181, R187, R194). -/
def execQueueLineArrive (ch : Chan) (site : Site) (q : Fin 8) (src : Site) (line : QLine) (s : State) : Outc :=
  .next (s.onChan ch (fun c =>
    match c.qlines.find? (fun e => e.src == src.val && e.dst == site.val && e.q == q.val) with
    | none => c
    | some e =>
      if e.line = line then
        let c1 := { c with qlines := eraseFirst e c.qlines }
        if c1.enabled site.val && c1.fenced site.val then c1.count Reg.MESH_FENCEDROP 1
        else if !c1.usable site.val then c1
        else ((c1.takeLine site.val q.val src.val line).pumpRecvs site.val)
      else c))

/-- CREDIT_RETURN: a credit that is on its way reaches its producer, which sends on (R179). -/
def execCreditReturn (ch : Chan) (site : Site) (cons : Site) (q : Fin 8) (s : State) : Outc :=
  .next (s.onChan ch (fun c =>
    let e : QCredit := ⟨cons.val, site.val, q.val⟩
    if e ∈ c.qcreds then
      let c1 := { c with qcreds := eraseFirst e c.qcreds }
      let k := c1.core site.val
      (c1.setCore site.val { k with pools := k.pools.map (fun p =>
        if p.site == cons.val && p.queue == q.val then { p with credits := min 64 (p.credits + 1) } else p) }).pumpSends site.val
    else c))

/-- QUEUE_STARVED: the detector makes a full queue of an owned core spill (R190, R191). -/
def execQueueStarved (ch : Chan) (site : Site) (q : Fin 8) (s : State) : Outc :=
  .next (s.onChan ch (fun c =>
    let k := c.core site.val
    let y := k.queue q.val
    if k.owner.isSome && c.fld Reg.SPAT_DLCFG Fl.SPAT_DLCFG_QWIN != 0 && y.fifo.length == 64 && !y.spill && c.ringLines site.val != 0 then
      (c.startSpill site.val q.val).count Reg.SPAT_DLSPILL 1
    else c))

def execSend (p : Place) (w : IWord) (s : State) : Outc := .next (s.issueAt specSend p w 0)

/-- RECV; taking lines may let queues of its core start to spill. -/
def execRecv (p : Place) (w : IWord) (s : State) : Outc :=
  .next ((s.issueAt specRecv p w 0).onChan p.ch (fun c => c.spillCheck p.site.val))

end Sys2Proof.Machine
end

