-- ==== Sys2Proof/Machine/Array.lean ====
section
/-! DEFINITION. The PE array: tokens, schedule entries, one beat, one slab (R157 to R173, R230 to R232). -/

namespace Sys2Proof.Machine

open Sys2Proof

/-! ### Slabs -/

/-- How the operands of a slab are packed and scaled: class (1 Q4, 2 Q8 or Q6, 3 H, 4 S), 2:4 form, formats, scale modes and
tensor scales of A and B, bobbin, run context bit. -/
structure SlabCfg where
  cls : Nat
  s24 : Bool
  fa : Nat
  fb : Nat
  ma : Nat
  mb : Nat
  ta : Nat
  tb : Nat
  bob : Nat
  rsel : Nat
deriving DecidableEq, Repr

/-- One operand element on its way into a token: code, scale byte, 2:4 position. -/
structure Feed where
  code : Nat
  sc : Nat
  pos : Nat
deriving DecidableEq, Repr

/-- The class of a format (R129). -/
def fmtClass (m : Nat) : Nat := if fmQ4 m then 1 else if fmQ8 m || fmQ6 m then 2 else if fmH m then 3 else 4

/-- Elements of depth that one token of A, and of B, carries (R158, R159). -/
def SlabCfg.depA (g : SlabCfg) : Nat := if g.cls = 1 then 2 else 1
def SlabCfg.depB (g : SlabCfg) : Nat := if g.s24 then (if g.cls = 1 then 4 else 2) else if g.cls = 1 then 2 else 1

/-- Logical depth of one beat (R158). -/
def SlabCfg.perBeat (g : SlabCfg) : Nat := (if g.cls = 1 then 2 else 1) * (if g.s24 then 2 else 1)

/-! ### Payloads (R159) -/

/-- Bit position of element (i, d) of an A token. -/
def SlabCfg.placeA (g : SlabCfg) (i d : Nat) : Nat :=
  let w := fmtBits g.fa
  if g.cls = 1 then 8 * i + 4 * d else if g.cls = 4 then 128 * (i / 4) + w * (i % 4) else w * i

/-- Bit position of element (i, d) of a B token. -/
def SlabCfg.placeB (g : SlabCfg) (i d : Nat) : Nat :=
  let w := fmtBits g.fb
  if g.s24 then (if g.cls = 1 then 32 * d + 4 * i else max 64 (8 * w) * d + w * i)
  else if g.cls = 1 then 8 * i + 4 * d else if g.cls = 4 then 128 * (i / 4) + w * (i % 4) else w * i

/-- Bit position of a kept value's metadata. -/
def SlabCfg.placeM (g : SlabCfg) (i d : Nat) : Nat := if g.cls = 1 then 64 + 4 * i + 2 * d else 64 + 2 * i

/-- The TAG of R163. -/
def SlabCfg.tag (g : SlabCfg) (first last : Bool) : Nat := g.rsel + 2 * b2n first + 4 * b2n last + 16 * g.bob

/-- A token from 8 lanes of `dep` elements each. -/
def mkTok (place : Nat → Nat → Nat) (posAt : Option (Nat → Nat → Nat)) (w dep tag vmask : Nat) (el : Nat → Nat → Feed) : Tok :=
  let ps := (List.range 8).flatMap (fun i => (List.range dep).map (fun d => (i, d)))
  { pay := ps.foldl (fun x p =>
      let e := el p.1 p.2
      x + (e.code % 2 ^ w) <<< place p.1 p.2 + (match posAt with | some f => (e.pos % 4) <<< f p.1 p.2 | none => 0)) 0
    vmask := vmask
    tag := tag
    sc := ps.foldl (fun x p => x + ((el p.1 p.2).sc % 256) <<< (8 * (p.1 * 4 + p.2))) 0 }

/-- The exact value of an operand element in a token, its scale applied (R160). -/
def tokVal (fmt mode ts : Nat) (t : Tok) (place i d : Nat) : Val :=
  let v := decElem fmt (bits t.pay place (fmtBits fmt))
  if mode = 2 then withScale v (bits t.sc (8 * (i * 4 + d)) 8)
  else if mode = 1 then withScale v ts
  else v

def SlabCfg.aVal (g : SlabCfg) (t : Tok) (i d : Nat) : Val := tokVal g.fa g.ma g.ta t (g.placeA i d) i d
def SlabCfg.bVal (g : SlabCfg) (t : Tok) (i d : Nat) : Val := tokVal g.fb g.mb g.tb t (g.placeB i d) i d

def Tok.null (t : Tok) : Bool := bit t.tag 3

/-- Whether the product of row i and column j counts (R161). -/
def prodOn (a b : Tok) (i j : Nat) : Bool := a.vmask.testBit i && b.vmask.testBit j && !a.null && !b.null

/-- The exact sum of one beat's products for an element of a dense slab (R160). -/
def SlabCfg.denseTerm (g : SlabCfg) (a b : Tok) (i j : Nat) : Val :=
  (List.range g.depA).foldl (fun s d => vAdd s (vMul (g.aVal a i d) (g.bVal b j d))) vZero

/-- The logical B row `pos` of a collected group (R143, R159). -/
def SlabCfg.groupVal (g : SlabCfg) (grp : List Tok) (j pos : Nat) : Val :=
  if g.cls = 1 then g.bVal (nth nullTok grp 0) j pos else g.bVal (nth nullTok grp (pos / 2)) j (pos % 2)

/-- The exact sum of one beat's products for an element of a 2:4 slab. -/
def SlabCfg.s24Term (g : SlabCfg) (a : Tok) (grp : List Tok) (i j : Nat) : Val :=
  (List.range g.depA).foldl (fun s d => vAdd s (vMul (g.aVal a i d) (g.groupVal grp j (bits a.pay (g.placeM i d) 2)))) vZero

/-! ### One beat (R168 to R170) -/

/-- A schedule entry's field. -/
def entOut (e k : Nat) : Nat := bits e (3 * k) 3
def entOp (e : Nat) : Nat := bits e 24 2

/-- The token that a source code names. -/
def PE.src (p : PE) (code : Nat) : Tok :=
  match code with
  | 1 => p.inN
  | 2 => p.inS
  | 3 => p.inE
  | 4 => p.inW
  | 5 => p.pt0
  | 6 => p.pt1
  | _ => nullTok

/-- One product sum bound for a bobbin element. -/
structure Contrib where
  bob : Nat
  i : Nat
  k : Nat
  t : Val
deriving DecidableEq, Repr

/-- What PE (r, q) adds to the bobbin store in a beat. -/
def SlabCfg.products (g : SlabCfg) (p : PE) (e r q : Nat) : List Contrib :=
  let a := p.src (entOut e 6)
  let b := if entOp e = 2 then p.latch else p.src (entOut e 7)
  if entOp e = 0 ∨ a.null then []
  else
    (List.range 8).flatMap (fun i => (List.range 8).filterMap (fun j =>
      if g.s24 then
        match p.group with
        | [] => none
        | h :: _ => if prodOn a h i j then some ⟨bits a.tag 4 4, 8 * r + i, 8 * q + j, g.s24Term a p.group i j⟩ else none
      else if prodOn a b i j then some ⟨bits a.tag 4 4, 8 * r + i, 8 * q + j, g.denseTerm a b i j⟩ else none))

/-- Tokens of a link in a beat (R158): class S sends two, which a `Tok` holds side by side. -/
def SlabCfg.perLink (g : SlabCfg) : Nat := if g.cls = 4 then 2 else 1

/-- Tokens in the input registers that no field of the entry names (R170). -/
def SlabCfg.drops (g : SlabCfg) (p : PE) (e : Nat) : Nat :=
  g.perLink * ([(1, p.inN), (2, p.inS), (3, p.inE), (4, p.inW)].filter (fun x =>
    !x.2.null && !(List.range 8).any (fun k => entOut e k == x.1))).length

/-- The registers that a PE loads at the end of a beat, its inputs apart. DESIGN CHOICE (log 163): a token with NULL set leaves the B latch as
it is (R169). -/
def SlabCfg.after (g : SlabCfg) (p : PE) (e : Nat) : PE :=
  let b := p.src (entOut e 7)
  let load (code : Nat) (old : Tok) : Tok := if code = 0 then old else p.src code
  let coll := if g.s24 ∧ entOp e ≠ 0 ∧ !b.null then p.coll ++ [b] else p.coll
  let full := g.s24 && decide (coll.length = (if g.cls = 1 then 1 else 2))
  { p with
    pt0 := load (entOut e 4) p.pt0
    pt1 := load (entOut e 5) p.pt1
    latch := if b.null then p.latch else b
    coll := if full then [] else coll
    group := if full then coll else p.group }

/-- One beat of the whole array: entries, 64 PEs with the feed lanes at their edges; new PEs, contributions, drops. -/
def SlabCfg.beat (g : SlabCfg) (ent : Nat → Nat) (pes : List PE) (fa fb : Nat → Tok) : List PE × List Contrib × Nat :=
  let cur := (List.range 64).map (fun n =>
    let p := nth PE.reset pes n
    { p with
      inW := if n % 8 = 0 then fa (n / 8) else p.inW
      inN := if n / 8 = 0 then fb (n % 8) else p.inN
      inE := if n % 8 = 7 then nullTok else p.inE
      inS := if n / 8 = 7 then nullTok else p.inS })
  let at_ (n : Nat) : PE := nth PE.reset cur n
  let sent (n k : Nat) : Tok := (at_ n).src (entOut (ent n) k)
  let new := (List.range 64).map (fun n =>
    { g.after (at_ n) (ent n) with
      inN := if n / 8 = 0 then nullTok else sent (n - 8) 1
      inS := if n / 8 = 7 then nullTok else sent (n + 8) 0
      inE := if n % 8 = 7 then nullTok else sent (n + 1) 3
      inW := if n % 8 = 0 then nullTok else sent (n - 1) 2 })
  (new, (List.range 64).flatMap (fun n => g.products (at_ n) (ent n) (n / 8) (n % 8)),
   (List.range 64).foldl (fun x n => x + g.drops (at_ n) (ent n)) 0)

/-- Runs n beats from beat b. -/
def SlabCfg.beats (g : SlabCfg) (ent : Nat → Nat → Nat) (period : Nat) (fa fb : Nat → Nat → Tok) :
    Nat → Nat → List PE → List PE × List Contrib × Nat
  | 0, _, pes => (pes, [], 0)
  | n + 1, b, pes =>
    let (p1, c1, d1) := g.beat (ent (b % period)) pes (fa b) (fb b)
    let (p2, c2, d2) := g.beats ent period fa fb n (b + 1) p1
    (p2, c1 ++ c2, d1 + d2)

/-! ### One slab (R173) -/

/-- What stands for no element. -/
def feed0 : Feed := ⟨0, 0x7F, 0⟩

/-- The operands of a slab: element (row or column, depth) and which rows and columns are valid. -/
structure SlabIn where
  depth : Nat
  a : Nat → Nat → Feed
  b : Nat → Nat → Feed
  va : Nat → Bool
  vb : Nat → Bool

/-- Validity bits of 8 rows or columns from n. -/
def mask8 (v : Nat → Bool) (n : Nat) : Nat := (List.range 8).foldl (fun x i => x + b2n (v (n + i)) * 2 ^ i) 0

/-- Beats that carry A tokens, and B tokens, of a slab. -/
def SlabCfg.stepsA (g : SlabCfg) (s : SlabIn) : Nat := ceilDiv (if g.s24 then s.depth / 2 else s.depth) g.depA
def SlabCfg.stepsB (g : SlabCfg) (s : SlabIn) : Nat := ceilDiv s.depth g.depB

/-- Beats by which the A feed trails the B feed: a group's B tokens come first (R159). -/
def SlabCfg.skew (g : SlabCfg) : Nat := if g.s24 then (if g.cls = 1 then 1 else 2) else 0

/-- The A token of step k on lane r. -/
def SlabCfg.tokA (g : SlabCfg) (s : SlabIn) (k r : Nat) : Tok :=
  if g.stepsA s ≤ k then nullTok
  else mkTok g.placeA (if g.s24 then some g.placeM else none) (fmtBits g.fa) g.depA (g.tag (k == 0) (k + 1 == g.stepsA s))
    (mask8 s.va (8 * r)) (fun i d => s.a (8 * r + i) (k * g.depA + d))

/-- The B token of step k on lane q. -/
def SlabCfg.tokB (g : SlabCfg) (s : SlabIn) (k q : Nat) : Tok :=
  if g.stepsB s ≤ k then nullTok
  else mkTok g.placeB none (fmtBits g.fb) g.depB (g.tag (k == 0) (k + 1 == g.stepsB s))
    (mask8 s.vb (8 * q)) (fun i d => s.b (8 * q + i) (k * g.depB + d))

/-- Adds one beat sum into a bobbin element (R230 to R233). -/
def Channel.bobAdd (c : Channel) (i : Nat) (t : Contrib) : Channel :=
  let x := c.bobGet i t.bob t.i t.k
  let y := cAdd x (cTerm t.t)
  (c.bobSet i t.bob t.i t.k y).count (Reg.CORE_ACCINF i) (b2n (f32Finite x.hi && !f32Finite y.hi))

/-- SEC-DED findings on the elements of a bobbin that a port reads (R228): corrected ones are counted, an uncorrectable one faults. -/
def Channel.bobEcc (c : Channel) (i bob : Nat) (ecc : List (Nat × Ecc)) : Channel :=
  ecc.foldl (fun c e =>
    match e.2 with
    | .clean => c
    | .single => c.count (Reg.CORE_BOBCORR i) 1
    | .double => c.raise (mkFault i fcBobUncorr (c.core i).owner (bob + e.1 * 16) 0)) c

/-- Schedule entry of PE n at position pos. -/
def Core.entry (k : Core) (pos n : Nat) : Nat := mget (fun _ => 0) k.sched (n * 1024 + pos)

/-- One slab enters at POS 0, flows through and leaves the array empty: feed beats and the tail that carries its last tokens out,
both rounded up to whole periods (R166, R172, R173). -/
def Channel.slab (c : Channel) (i : Nat) (g : SlabCfg) (s : SlabIn) : Channel :=
  let k := c.core i
  let period := max 1 k.period
  let n := roundUp (max (g.stepsA s + g.skew) (g.stepsB s) + 16) period
  let fa (b r : Nat) : Tok := if b < r + g.skew then nullTok else g.tokA s (b - r - g.skew) r
  let fb (b q : Nat) : Tok := if b < q then nullTok else g.tokB s (b - q) q
  let pes0 := (List.range 64).map (fun m => mget (fun _ => PE.reset) k.arr.pes m)
  let (pes, cs, dr) := g.beats k.entry period fa fb n 0 pes0
  let arr : Arr := { k.arr with pes := (pes.zip (List.range 64)).foldl (fun l p => mset (fun _ => PE.reset) l p.2 p.1) k.arr.pes }
  let c1 := cs.foldl (fun c t => c.bobAdd i t) (c.setCore i { k with arr := arr })
  (c1.count (Reg.CORE_TOKDROP i) dr).count (Reg.CORE_SLABS i) 1

/-- The slabs of a product over k elements of depth, 128 at a time, into the configuration's bobbin (R128, R148, R157). -/
def Channel.tile (c : Channel) (i : Nat) (g : SlabCfg) (k : Nat) (a b : Nat → Nat → Feed) (va vb : Nat → Bool) : Channel :=
  (List.range (ceilDiv k 128)).foldl (fun c n =>
    let k0 := n * 128
    c.slab i g
      { depth := min 128 (roundUp (k - k0) 32)
        a := fun r kk => if k0 + kk < k ∧ va r then a r (k0 + kk) else feed0
        b := fun j kk => if k0 + kk < k ∧ vb j then b j (k0 + kk) else feed0
        va := va
        vb := vb }) c

end Sys2Proof.Machine
end

