-- ==== Sys2Proof/Machine/Bucket.lean ====
section
/-! DEFINITION. Contributions to gradient buckets: the bucket table, BKADD, BKCLOSE (R376 to R379). -/

namespace Sys2Proof.Machine

open Sys2Proof

/-- The fields of a bucket-table entry. -/
structure BEntry where
  acc : Nat
  out : Nat
  len : Nat
  wfmt : Nat
  ofmt : Nat
  contrib : Nat
  flags : Nat
  osite : Nat
  otack : Nat
  post : Nat
  rsv : Nat
deriving DecidableEq, Repr

def Channel.bktAddr (c : Channel) (x b : Nat) : Nat :=
  c.fld (Reg.TAT_BTBASEL x) Fl.TAT_BTBASEL_ADDR * 64 + c.fld (Reg.TAT_BTBASEH x) Fl.TAT_BTBASEH_ADDR * 2 ^ 32 + b * 64

/-- Entry b of context x, read from memory (R376). -/
def Channel.bEntry (c : Channel) (x b : Nat) : BEntry :=
  let a := c.bktAddr x b
  { acc := c.ldN a 8, out := c.ldN (a + 8) 8, len := c.ldN (a + 0x10) 4, wfmt := c.ldN (a + 0x14) 1, ofmt := c.ldN (a + 0x15) 1,
    contrib := c.ldN (a + 0x16) 1, flags := c.ldN (a + 0x17) 1, osite := c.ldN (a + 0x18) 1, otack := c.ldN (a + 0x19) 1,
    post := c.ldN (a + 0x1C) 4, rsv := c.ldN (a + 0x1A) 2 + c.ldN (a + 0x36) 10 }

def BEntry.valid (e : BEntry) : Bool := bit e.flags 0

/-- Wire bytes of an element. -/
def wireBytes (wfmt : Nat) : Nat :=
  match wfmt with
  | 0 => 8
  | 1 => 4
  | 2 => 2
  | _ => 1

/-- Whether n bytes at a lie in the tier row or the LPDDR5X row. -/
def Channel.inTierLp (c : Channel) (a n : Nat) : Bool :=
  match c.row a, c.row (a + n - 1) with
  | .tier _, .tier _ => true
  | .lp _, .lp _ => true
  | _, _ => false

/-- The rules of R376's table. -/
def Channel.entryOk (c : Channel) (e : BEntry) : Bool :=
  e.acc % 64 == 0 && e.out % 64 == 0 && decide (1 ≤ e.len) && decide (e.len ≤ 2 ^ 24) && decide (e.wfmt ≤ 3) && decide (e.ofmt ≤ 2)
  && decide (e.len * wireBytes e.wfmt ≤ 2 ^ 24) && (e.wfmt != 3 || e.len % 32 == 0) && decide (e.contrib ≤ 100) && decide (e.flags < 32)
  && decide (e.osite ≤ 99) && decide (e.otack ≤ 63) && e.rsv == 0 && c.inTierLp e.acc (8 * e.len)
  && c.inTierLp e.out (fmtBits e.ofmt / 8 * e.len)

def bktKey (x b : Nat) : Nat := x * 4096 + b
def Channel.bkt (c : Channel) (x b : Nat) : Bkt := mget (fun _ => Bkt.reset) c.bkts (bktKey x b)
def Channel.setBkt (c : Channel) (x b : Nat) (k : Bkt) : Channel := { c with bkts := mset (fun _ => Bkt.reset) c.bkts (bktKey x b) k }

/-- Buckets in states 1 to 5 over all contexts (R379). -/
def Channel.inflight (c : Channel) : Nat := (c.bkts.filter (fun e => decide (1 ≤ e.2.st) && decide (e.2.st ≤ 5))).length

/-- Entries of a bucket table; values above 4,096 act as 4,096 (R376, TAT_BTCFGx). -/
def Channel.nbkt (c : Channel) (x : Nat) : Nat := min 4096 (c.fld (Reg.TAT_BTCFG x) Fl.TAT_BTCFG_NBKT)
def Channel.lgen (c : Channel) (x : Nat) : Nat := c.fld (Reg.TAT_BTCFG x) Fl.TAT_BTCFG_LGEN

/-- Raises a fault of the tatting engine (R453, R521). -/
def Channel.tatFault (c : Channel) (x code arg0 : Nat) : Channel := c.raise (mkFault 106 code (some x) arg0 (c.press x))

/-- Sets to +0 the n bytes from a, which lie in the tier or in LPDDR5X: open read merges of their lines close, corrections of their words are
dropped (R57, R282). -/
def Channel.zeroMem (c : Channel) (a n : Nat) : Channel :=
  let meets (lo len : Nat) : Bool := decide (lo < a + n) && decide (a < lo + len)
  let d := (c.merges.filter (fun m => meets (sliceBase m.slice + 128 * m.line) 128)).foldl (fun c m => c.mergeShut m.slice m.line) c
  { d with mem := mclear d.mem a (a + n), corr := d.corr.filter (fun w => !meets w 64) }

/-- What becomes of a contribution: ignored, waiting, failed with its fault raised, or accepted. -/
inductive BkJoin where
  | stale (c : Channel)
  | wait
  | fail (c : Channel)
  | ok (c : Channel)

/-- A core's BKADD or BKCLOSE reaches the engine (R377 to R379). -/
def Channel.bkJoin (c : Channel) (x site tag : Nat) : BkJoin :=
  let b := tag % 4096
  let e := c.bEntry x b
  let k := c.bkt x b
  if tag / 4096 ≠ c.lgen x then .stale (c.count Reg.TAT_STALE 1)
  else if !e.valid then .fail (c.tatFault x fcTatEntry tag)
  else if k.st = 0 ∨ k.st = 6 then
    if 64 ≤ c.inflight then .wait
    else if !c.entryOk e then .fail (c.tatFault x fcTatEntry b)
    else if e.contrib = 0 then .fail (c.tatFault x fcTatContrib tag)
    else .ok ((c.zeroMem e.acc (8 * e.len)).setBkt x b ⟨1, c.press x, [site], [], []⟩)
  else if k.ep ≠ c.press x then .wait
  else if k.contrib.contains site then .ok c
  else if k.st ≠ 1 ∨ e.contrib ≤ k.contrib.length then .fail (c.tatFault x fcTatContrib tag)
  else .ok (c.setBkt x b { k with contrib := k.contrib ++ [site] })

/-- Adds a value into element n of an FP32C buffer (R231, R377). -/
def Channel.accAdd (c : Channel) (acc n : Nat) (v : Val) : Channel :=
  let a := acc + 8 * n
  c.st a false (leBytes 8 (cBits (cAdd (cOfBits (c.ldN a 8)) (cTerm v))))

/-- lin of R377 over the capacities. -/
def linIdx (d : Nat) (i : List Nat) : Nat :=
  ((List.range (dNdim d)).foldl (fun (r : Nat × Nat) k => (r.1 + r.2 * nth 0 i k, r.2 * dCapRaw d k)) (0, 1)).1

def capProduct (d : Nat) : Nat := (List.range (dNdim d)).foldl (fun p k => p * dCapRaw d k) 1

/-- Bucket number, tag and offset of BKADD and BKCLOSE. -/
def bkTag (w : IWord) : Nat := iImm w % 2 ^ 16
def bkNum (w : IWord) : Nat := iImm w % 4096
def bkOff (w : IWord) : Nat := iImm w / 2 ^ 16 * 256

/-- The overflow of a bucket number (R377). -/
def Xc.bkOvf (x : Xc) : Option Ovf :=
  let n := x.c.nbkt (x.owner.getD 0)
  if n ≤ bkNum x.w then some ⟨6, 5, 0, bkNum x.w, n, bkNum x.w⟩ else none

/-- Notes a value written into a block of a bucket (R382). -/
def Channel.noteMax (c : Channel) (x b blk : Nat) (v : Val) : Channel :=
  let k := c.bkt x b
  let old := mget (fun _ => vZero) k.amax blk
  let new := if !vFinite v then Val.nan else if !vFinite old then old else amaxStep old v
  c.setBkt x b { k with amax := mset (fun _ => vZero) k.amax blk new }

/-- Adds elements of D1, given with their indices, into the bucket. -/
def Xc.bkPut (x : Xc) (c : Channel) (es : List (List Nat × Val)) : Channel :=
  let e := c.bEntry (x.owner.getD 0) (bkNum x.w)
  let d := x.desc (iD1 x.w)
  es.foldl (fun c p =>
    let n := bkOff x.w + linIdx d p.1
    let c1 := c.accAdd e.acc n p.2
    if e.wfmt = 3 then c1.noteMax (x.owner.getD 0) (bkNum x.w) (n / 32) (cVal (cOfBits (c1.ldN (e.acc + 8 * n) 8))) else c1) c

def Xc.bkChunk (x : Xc) (c : Channel) (u : Chunk) : Channel :=
  let o := x.opd (iD1 x.w)
  if x.valid c 1 u.top then x.bkPut c (u.idx.map (fun i => (i, c.ldVal o i))) else c

/-- A contribution with what it adds. -/
def Xc.bkRun (x : Xc) (f : Flight) (add : Channel → Channel × Option Ovf) : Channel × Flight :=
  match x.bkOvf with
  | some o => x.endWalk (x.c, some o) f
  | none =>
    match x.c.bkJoin (x.owner.getD 0) x.site (bkTag x.w) with
    | .stale c => (c, f)
    | .wait => (x.c, { f with ph := .slot })
    | .fail c => (c, f)
    | .ok c => x.endWalk (add c) f

/-- Whether this core has closed the bucket in this step (R117). -/
def Xc.bkClosed (x : Xc) : Option Nat :=
  if (x.c.core x.site).closed.contains (bkNum x.w) then some (Reg.CORE_NOOPST x.site) else none

def specBkadd : OpSpec :=
  { specBase with
    opc := 0x240
    streams := fun s => s == .b
    legal := tOk ⟨false, true, false, false, true, false, false, 0, immAll, false⟩
    roles := fun _ w => [rRd (iD1 w) 1] ++ maskRole w
    bad := fun x =>
      let o := x.owner.getD 0
      let e := x.c.bEntry o (bkNum x.w)
      let live := decide (bkNum x.w < x.c.nbkt o) && bkTag x.w / 4096 == x.c.lgen o && e.valid
      dfsm (fmHSC (dFmt (x.desc (iD1 x.w))) && x.maskFmt) (!live || decide (bkOff x.w + capProduct (x.desc (iD1 x.w)) ≤ e.len))
    noop := fun x => x.bkClosed
    zero := fun x => anyZero x.d1Exts
    zeroRun := fun x f => x.bkRun f (fun c => (c, none))
    writes := fun _ => true
    run := fun x f =>
      x.bkRun f (walk (fun _ u => firstOvf [ovfAt 1 (iD1 x.w) (x.desc (iD1 x.w)) false u.top, x.maskOvf 1 u.top]) x.bkChunk (chunks 128 x.d1Exts)) }

/-- BKCLOSE: the bucket is CLOSED when CONTRIB contributors have closed it (R378). -/
def specBkclose : OpSpec :=
  { specBase with
    opc := 0x241
    streams := fun s => s == .b
    legal := tOk ⟨false, false, false, false, false, false, false, 0, 0xFFFF, false⟩
    noop := fun x => x.bkClosed
    run := fun x f =>
      x.bkRun f (fun c =>
        let o := x.owner.getD 0
        let b := bkNum x.w
        let k := c.bkt o b
        let cl := k.closed ++ [x.site]
        let c1 := c.setBkt o b { k with closed := cl, st := if cl.length = (c.bEntry o b).contrib then 2 else k.st }
        (c1.setCore x.site { c1.core x.site with closed := b :: (c1.core x.site).closed }, none)) }

def execBkadd (p : Place) (w : IWord) (s : State) : Outc := .next (s.issueAt specBkadd p w 0)
def execBkclose (p : Place) (w : IWord) (s : State) : Outc := .next (s.issueAt specBkclose p w 0)

end Sys2Proof.Machine
end

