-- ==== Sys2Proof/Machine/Matrix.lean ====
section
/-! DEFINITION. Class MATRIX: issue, the walk, drains, pairs, the agreement watch (R128 to R146, R154, R155, R221, R222,
R225 to R234, R268 to R272). -/

namespace Sys2Proof.Machine

open Sys2Proof

/-! ### Iteration space (R130, R131, R142 to R145) -/

def isBsp (w : IWord) : Bool := iOpc w == 0x0C2
def isS24 (w : IWord) : Bool := iOpc w == 0x0C1
def isConv (w : IWord) : Bool := iOpc w == 0x0C3
def isGath (w : IWord) : Bool := iOpc w == 0x0C4
def trA (w : IWord) : Bool := bit (iFunc w) 0
def trB (w : IWord) : Bool := bit (iFunc w) 1
def keepBob (w : IWord) : Bool := bit (iFunc w) 2
def convK (w : IWord) : Nat := iImm w % 256
def convDil (w : IWord) : Nat := iImm w / 256 % 256

/-- Whether D3 names a bias (R131). -/
def hasBias (w : IWord) : Bool := !isGath w && iD3 w != 0

/-- Block edge E (R144). -/
def Xc.edge (x : Xc) : Nat := 2 ^ (dSpblk (x.desc (iD1 x.w)) + 3)

/-- The index tensor that SPIDX of D1 names. -/
def Xc.idx1 (x : Xc) : Nat := dSpidx (x.desc (iD1 x.w))

/-- Extents M, N and K, K steps per group, group shape, number of group rows and columns, batch index lists. -/
structure MM where
  m : Nat
  n : Nat
  k : Nat
  nks : Nat
  gm : Nat
  gn : Nat
  mts : Nat
  nts : Nat
  bat : List (List Nat)
deriving DecidableEq, Repr

/-- Slabs per slot of a block-sparse walk (R145). -/
def Xc.subs (x : Xc) : Nat := max 1 (x.edge / 128)

/-- The iteration space, from extents (`dExt`) or capacities (`dCap`). DESIGN CHOICE (log 157): MATMUL_BSP with FUNC[1] takes K from D2's
dimension 1, as the table says, while it walks D2's rows along dimension 0. -/
def Xc.mm (x : Xc) (ex : Nat → Nat → Nat) : MM :=
  let w := x.w
  let d1 := x.desc (iD1 w)
  let d2 := x.desc (iD2 w)
  let n := ex d2 (b2n (trB w))
  let m :=
    if isGath w then ex (x.desc (iD3 w)) 0
    else if isBsp w then ex (x.desc x.idx1) 1 * x.edge
    else if isConv w then ex d1 1 - (convK w - 1) * convDil w
    else ex d1 (1 - b2n (trA w))
  let k :=
    if isBsp w then ex d2 1
    else if isS24 w then 2 * ex d1 0
    else if isConv w then ex d1 0
    else ex d1 (b2n (trA w))
  let nks :=
    if isBsp w then dCapRaw (x.desc x.idx1) 0 * x.subs
    else if isConv w then convK w * ceilDiv k 128
    else ceilDiv k 128
  let g := iNbob w + 1
  let gn := max 1 (min g (ceilDiv (dCap d2 (b2n (trB w))) 64))
  let gm := if isBsp w then 1 else g / gn
  let bat := if isBsp w then idxs [ex d1 4] else idxs [ex d1 2, ex d1 3, ex d1 4]
  let rt := max 1 (x.edge / 64)
  { m := m, n := n, k := k, nks := nks, gm := gm, gn := gn,
    mts := if isBsp w then ex (x.desc x.idx1) 1 * rt else ceilDiv m (64 * gm), nts := ceilDiv n (64 * gn), bat := bat }

/-- First row of bobbin row gi of group row mt, and the row at which its tile ends. -/
def Xc.tileRow (x : Xc) (q : MM) (mt gi : Nat) : Nat :=
  if isBsp x.w then
    let rt := max 1 (x.edge / 64)
    mt / rt * x.edge + mt % rt * 64
  else 64 * (mt * q.gm + gi)

/-- The rows of a tile that starts at row r0 end here. -/
def Xc.rowEnd (x : Xc) (q : MM) (r0 : Nat) : Nat :=
  let e := if isBsp x.w then (r0 / x.edge + 1) * x.edge else q.m
  min (r0 + 64) (min e q.m)

/-- The live bobbins of a group, gi outer, gj inner (R134, R136). -/
def Xc.live (x : Xc) (q : MM) (mt nt : Nat) : List (Nat × Nat) :=
  (List.range q.gm).flatMap (fun gi => (List.range q.gn).filterMap (fun gj =>
    if x.tileRow q mt gi < q.m ∧ 64 * (nt * q.gn + gj) < q.n then some (gi, gj) else none))

/-! ### One slab's place in the walk -/

/-- A slab: batch indices, tile's first row and column, K step, depth, first K element of the step, tap or slot, block column. -/
structure SlabAt where
  bat : List Nat
  r0 : Nat
  c0 : Nat
  ks : Nat
  k0 : Nat
  depth : Nat
  tap : Nat
  blk : Int
deriving DecidableEq, Repr

/-- The slot entry that a block-sparse slab reads; slots at or beyond the run-time extent are empty (R144). -/
def Xc.bspEntry (x : Xc) (c : Channel) (r s : Nat) (bat : List Nat) : Int :=
  let o := x.opd x.idx1
  if s < dExt o.d 0 then c.ldInt o (s :: r :: bat) else -1

def Xc.slabAt (x : Xc) (c : Channel) (q : MM) (bat : List Nat) (r0 c0 ks : Nat) : SlabAt :=
  let w := x.w
  if isBsp w then
    let s := ks / x.subs
    let k0 := ks % x.subs * 128
    { bat := bat, r0 := r0, c0 := c0, ks := ks, k0 := k0, depth := max 32 (min x.edge 128), tap := s,
      blk := x.bspEntry c (r0 / x.edge) s bat }
  else
    let per := max 1 (ceilDiv q.k 128)
    let k0 := ks % per * 128
    { bat := bat, r0 := r0, c0 := c0, ks := ks, k0 := k0, depth := min 128 (roundUp (q.k - k0) 32), tap := ks / per, blk := 0 }

/-- The D1 row of iteration row m: the index entry of GATHERMM, else m itself. -/
def Xc.gRow (x : Xc) (c : Channel) (m : Nat) : Int := if isGath x.w then c.ldInt (x.opd (iD3 x.w)) [m] else (m : Int)

/-- Whether iteration row m is valid: inside its tile, not masked, with an entry (R115, R134, R146). -/
def Xc.rowValid (x : Xc) (c : Channel) (q : MM) (a : SlabAt) (m : Nat) : Bool :=
  decide (m < x.rowEnd q a.r0) && x.valid c 0 (m :: a.bat) && decide (0 ≤ x.gRow c m) && decide (0 ≤ a.blk)

/-- The K positions of a step that hold elements: E columns of a block, or K. -/
def Xc.kEnd (x : Xc) (q : MM) : Nat := if isBsp x.w then x.edge else q.k

/-- Index of D1's element at iteration row m and depth kk of the step; for 2:4, kk counts kept values. -/
def Xc.idxA (x : Xc) (c : Channel) (a : SlabAt) (m kk : Nat) : List Nat :=
  let w := x.w
  if isBsp w then (a.k0 + kk) :: (m % x.edge) :: a.tap :: (m / x.edge) :: a.bat
  else if isConv w then (a.k0 + kk) :: (m + a.tap * convDil w) :: a.bat
  else if isS24 w then (a.k0 / 2 + kk) :: m :: a.bat
  else
    let r := (x.gRow c m).toNat
    if trA w then r :: (a.k0 + kk) :: a.bat else (a.k0 + kk) :: r :: a.bat

/-- The D2 row that depth kk of the step multiplies. -/
def Xc.kRow (x : Xc) (a : SlabAt) (kk : Nat) : Nat :=
  if isBsp x.w then a.blk.toNat * x.edge + a.k0 + kk else a.k0 + kk

/-- Index of D2's element at depth kk and iteration column n. -/
def Xc.idxB (x : Xc) (a : SlabAt) (kk n : Nat) : List Nat :=
  let k := x.kRow a kk
  let d := x.desc (iD2 x.w)
  let b := if isBsp x.w then 0 :: 0 :: a.bat else if isConv x.w then a.tap :: a.bat.drop 1 else a.bat
  let i := if trB x.w then k :: n :: b else n :: k :: b
  (List.range (dNdim d)).map (fun j => if 2 ≤ j ∧ dCapRaw d j = 1 then 0 else nth 0 i j)

/-- A scale byte of an MX operand, 0x7F otherwise. -/
def Channel.scaleOf (c : Channel) (o : Opd) (i : List Nat) : Nat := if dSmode o.d = 2 then (c.ldByte (o.scaleAddr i)).toNat else 0x7F

/-- The 2:4 position of kept value kk of the step at row m (R143). -/
def Xc.s24Pos (x : Xc) (c : Channel) (a : SlabAt) (m kk : Nat) : Nat :=
  let g := a.k0 / 4 + kk / 2
  let e := c.ldCode (x.opd x.idx1) (g / 4 :: m :: a.bat)
  bits e (4 * (g % 4) + 2 * (kk % 2)) 2

/-- The slab's operands (R129, R134, R143, R145). -/
def Xc.slabIn (x : Xc) (c : Channel) (q : MM) (a : SlabAt) : SlabIn :=
  let o1 := x.opd (iD1 x.w)
  let o2 := x.opd (iD2 x.w)
  let lim := if isS24 x.w then ceilDiv (q.k - a.k0) 2 else x.kEnd q - a.k0
  { depth := a.depth
    a := fun r kk =>
      let m := a.r0 + r
      if kk < lim ∧ x.rowValid c q a m then
        let i := x.idxA c a m kk
        ⟨c.ldCode o1 i, c.scaleOf o1 i, if isS24 x.w then x.s24Pos c a m kk else 0⟩
      else ⟨0, 0x7F, 0⟩
    b := fun j kk =>
      let n := a.c0 + j
      if a.k0 + kk < x.kEnd q ∧ x.kRow a kk < q.k ∧ n < q.n ∧ 0 ≤ a.blk then
        let i := x.idxB a kk n
        ⟨c.ldCode o2 i, c.scaleOf o2 i, 0⟩
      else ⟨0, 0x7F, 0⟩
    va := fun r => x.rowValid c q a (a.r0 + r)
    vb := fun j => decide (a.c0 + j < q.n) }

/-- How the slab's operands are packed (R129, R158 to R165). -/
def Xc.slabCfg (x : Xc) (bob : Nat) : SlabCfg :=
  let d1 := x.desc (iD1 x.w)
  let d2 := x.desc (iD2 x.w)
  { cls := max (fmtClass (dFmt d1)) (fmtClass (dFmt d2)), s24 := isS24 x.w, fa := dFmt d1, fb := dFmt d2, ma := dSmode d1,
    mb := dSmode d2, ta := dTscale d1, tb := dTscale d2, bob := bob, rsel := if x.rc = .r1 then 1 else 0 }

/-! ### Checks before a slab (R146, R154, R155) -/

/-- The check of a block-sparse slab's index entry, which the pilot thread reads before the block's slabs (R145, R146). -/
def Xc.bspChk (x : Xc) (q : MM) (a : SlabAt) : Option Ovf :=
  let ix := x.desc x.idx1
  firstOvf [ovfAt 5 x.idx1 ix false (a.tap :: (a.r0 / x.edge) :: a.bat),
    entryOvf x.idx1 a.blk (ceilDiv q.k x.edge) (a.tap + dCapRaw ix 0 * (a.r0 / x.edge + dCap ix 1 * nth 0 a.bat 0))]

/-- Index of D0's element. -/
def Xc.idxD (x : Xc) (bat : List Nat) (m n : Nat) : List Nat := if isBsp x.w then n :: m :: 0 :: 0 :: bat else n :: m :: bat

/-- The checks of what a bobbin's drain reads and writes: bias, mask, D0 (R137, R154). -/
def Xc.drainChk (x : Xc) (bat : List Nat) (mTop nTop : Nat) : List (Option Ovf) :=
  let w := x.w
  [if hasBias w ∧ !keepBob w then ovfAt 3 (iD3 w) (x.desc (iD3 w)) false [nTop] else none, x.maskOvf 0 (mTop :: bat),
   if keepBob w then none else ovfAt 0 (iD0 w) (x.desc (iD0 w)) false (x.idxD bat mTop nTop)]

/-- The largest index that a slab touches in each dimension of each operand, in the order of R155; a block-sparse entry comes before the
slabs of its block. -/
def Xc.slabChk (x : Xc) (c : Channel) (q : MM) (a : SlabAt) : Option Ovf :=
  let w := x.w
  let mTop := x.rowEnd q a.r0 - 1
  let nTop := min q.n (a.c0 + 64) - 1
  let kTop := min (x.kEnd q) (a.k0 + a.depth) - a.k0 - 1
  let rows := rangeFrom a.r0 (x.rowEnd q a.r0 - a.r0)
  let d1 := x.desc (iD1 w)
  let rowDim := if trA w then 0 else 1
  let entry (m : Nat) : Option Ovf := entryOvf (iD3 w) (x.gRow c m) (dExt d1 rowDim) m
  let named := rows.filter (fun m => decide (0 ≤ x.gRow c m) && (entry m).isNone)
  let d1Chk : List (Option Ovf) :=
    if isGath w then named.map (fun m => ovfSpan 1 (iD1 w) d1 false (x.idxA c a m 0) (x.idxA c a m kTop))
    else if isBsp w ∧ a.blk < 0 then []
    else [ovfAt 1 (iD1 w) d1 false (x.idxA c a mTop (if isS24 w then kTop / 2 else kTop))]
  let d2Chk : Option Ovf :=
    if isBsp w ∧ (a.blk < 0 ∨ q.k ≤ x.kRow a 0) then none
    else ovfSpan 2 (iD2 w) (x.desc (iD2 w)) false (x.idxB a 0 a.c0) (x.idxB a (min kTop (q.k - 1 - x.kRow a 0)) nTop)
  let metaChk := if isS24 w then ovfAt 5 x.idx1 (x.desc x.idx1) false ((a.k0 + kTop) / 16 :: mTop :: a.bat) else none
  let dr := x.drainChk a.bat mTop nTop
  firstOvf ([if isBsp w then x.bspChk q a else none] ++ d1Chk ++ [d2Chk, nth none dr 0,
    if isGath w then ovfAt 3 (iD3 w) (x.desc (iD3 w)) false [mTop] else none, nth none dr 1, metaChk,
    if isGath w then rows.findSome? entry else none, nth none dr 2])

/-! ### The watch's sampling (R221) -/

/-- Counts an eligible bobbin and selects its check; the watch was in its agreement mode when the instruction issued, and is (R219).
DESIGN CHOICE (log 164): a bobbin cleared in another mode does not count among the eligible ones. -/
def Xc.sample (x : Xc) (c : Channel) (q : MM) (f : Flight) (bob : Nat) (b : Nat) (a : SlabAt) : Channel :=
  let mode := c.fld Reg.NUM_WCTRL Fl.NUM_WCTRL_MODE
  if x.wm = 1 ∧ mode = 1 ∧ x.owner = some (c.fld Reg.NUM_WCTRL Fl.NUM_WCTRL_CTX) ∧ !iAcc x.w then
    let k := c.core x.site
    let r := srBits ((c.rd Reg.NUM_SRSEEDL + c.rd Reg.NUM_SRSEEDH * 2 ^ 32) ^^^ (x.site <<< 56)) k.elig
    let rate := c.fld Reg.NUM_WCTRL Fl.NUM_WCTRL_RATE
    let c1 := c.setCore x.site { k with elig := (k.elig + 1) % 2 ^ 64 }
    if r / 2 ^ (32 - rate) ≠ 0 then c1
    else
      let i := r % 64
      let j := r / 64 % 64
      if k.check.isSome ∨ q.n ≤ a.c0 + j ∨ !x.rowValid c q { a with blk := 0 } (a.r0 + i) then c1.count Reg.NUM_ASKIP 1
      else c1.setCore x.site { c1.core x.site with check := some ⟨x.st, f.ord, bob, i, j, b, a.r0 + i, a.c0 + j, iOpc x.w, none⟩ }
  else c

/-- The exact dot product of an output element and the sum of its products' magnitudes (R222); none where an operand is not
finite. -/
def Xc.exactDot (x : Xc) (c : Channel) (q : MM) (bat : List Nat) (row col : Nat) : Option (Val × Val) :=
  let o1 := x.opd (iD1 x.w)
  let o2 := x.opd (iD2 x.w)
  let steps := if q.k = 0 then 0 else q.nks
  let r0 := if isBsp x.w then row / x.edge * x.edge + row % x.edge / 64 * 64 else row / 64 * 64
  (List.range steps).foldl (fun acc ks =>
    let a := x.slabAt c q bat r0 (col / 64 * 64) ks
    let n := if isS24 x.w then min (a.depth / 2) (ceilDiv (q.k - a.k0) 2) else min a.depth (x.kEnd q - a.k0)
    if a.blk < 0 then acc
    else
      (List.range n).foldl (fun acc kk =>
        let kb := if isS24 x.w then kk / 2 * 4 + x.s24Pos c a row kk else kk
        let va := c.ldVal o1 (x.idxA c a row kk)
        let vb := if x.kRow a kb < q.k then c.ldVal o2 (x.idxB a kb col) else vZero
        match acc with
        | none => none
        | some (s, t) =>
          if vFinite va && vFinite vb then
            let p := vMul va vb
            some (vAdd s p, vAdd t (vAbs p))
          else none) acc) (some (vZero, vZero))

/-- floor(256 * d) for d = |V - X| / (2^-24 * T), saturated to 32 bits; whether d exceeds THRESH / 256 (R222). -/
def watchD (v s t : Val) (thresh : Nat) : Nat × Bool :=
  let e := vAbs (vSub v s)
  match e, t with
  | .fin _ m a, .fin _ n b =>
    if n = 0 then (if m = 0 then (0, false) else (2 ^ 32 - 1, true))
    else
      -- e / (2^-24 t) * 2^8 = m * 2^(a + 32) / (n * 2^b)
      let sh := a + 32 - b
      let num := if 0 ≤ sh then m * 2 ^ sh.toNat else m
      let den := if 0 ≤ sh then n else n * 2 ^ (-sh).toNat
      (min (num / den) (2 ^ 32 - 1), decide (thresh * den < num))
  | _, _ => (2 ^ 32 - 1, true)

/-- The check unit takes the bobbin element's value once the element has taken its last slab (R222). -/
def Xc.takeCheck (x : Xc) (c : Channel) (q : MM) (f : Flight) (d : Drain) : Channel :=
  let k := c.core x.site
  match k.check with
  | none => c
  | some e =>
    if e.ord = f.ord ∧ e.bob = d.bob ∧ e.b = d.b ∧ e.row = d.row + e.i ∧ e.col = d.col + e.j ∧ e.ready.isNone then
      let v := cVal (c.bobGet x.site e.bob e.i e.j)
      match x.exactDot c q (nth [] q.bat e.b) e.row e.col with
      | some (s, t) =>
        if vFinite v then
          let (dd, dis) := watchD v s t (c.fld Reg.NUM_WCTRL Fl.NUM_WCTRL_THRESH)
          c.setCore x.site { k with check := some { e with ready := some (dis, dd) } }
        else (c.setCore x.site { k with check := none }).count Reg.NUM_ASKIP 1
      | none => (c.setCore x.site { k with check := none }).count Reg.NUM_ASKIP 1
    else c

/-! ### Issue -/

/-- The opcodes that may take rows on the fused path (R270). -/
def fuseSpec (opc : Nat) : Option OpSpec :=
  match opc with
  | 0x140 => some specEw1
  | 0x141 => some specEw2
  | 0x142 => some specEw3
  | 0x143 => some specCvt
  | 0x240 => some specBkadd
  | _ => none

/-- A descriptor with its format replaced by FP32C: the consumer of a pair ignores its D1's own format (R271). -/
def asPassed (d : Nat) : Nat := setBits d 56 4 1

/-- Whether the following word pairs with this instruction (R270). -/
def Xc.pairs (x : Xc) (q : MM) (t : Nat → Nat) : Bool :=
  let v := x.follow
  let d := t (iD1 v)
  match fuseSpec (iOpc v) with
  | none => false
  | some sp =>
    headerOk v && sp.legal v && sp.streams x.st && !iPen v && !iWen v && iD1 v == iD0 x.w && !fetchBad x.site (x.pc + 16)
    && dExt d 0 == q.n && dExt d 1 == q.m
    && (rangeFrom 2 3).all (fun k => dExt d k == (if isBsp x.w ∧ k ≠ 4 then 1 else dExt (x.desc (iD1 x.w)) k))

/-- The consumer's view of a pair: its word, snapshot, address. -/
def Xc.mateXc (x : Xc) (sp : OpSpec) : Xc :=
  let v := x.follow
  { x with w := v, snap := x.c.snapshot x.site (sp.roles (x.c.descRaw x.site) v), pc := (x.pc + 16) % 2 ^ 48 }

/-- The fault that the consumer of a pair raises at issue, if one. -/
def Xc.mateFault (x : Xc) (sp : OpSpec) : Option Nat :=
  let y := x.mateXc sp
  let rs := sp.roles (x.c.descRaw x.site) x.follow
  if y.descBadAny rs then some fcDescBad
  else if y.addrBadAny rs ([], []) then some fcAddrBad
  else sp.bad { y with snap := y.snap.map (fun e => if e.1 = iD1 x.follow then (e.1, asPassed e.2) else e) }

/-- The instruction paired with a producer as it enters the stream: spans without D1's, which it never reads; a no-op of R117 takes no rows. -/
def Xc.mateOf (y : Xc) (sp : OpSpec) (rs : List Role) : Mate :=
  { w := y.w, snap := y.snap, rd := (rs.filter (fun r => r.idx != iD1 y.w)).flatMap y.roleRd, wr := rs.flatMap y.roleWr, act := (sp.noop y).isNone }

/-- Issues the consumer with its producer, in the producer's issue cycle (R256, R270). -/
def Xc.pairUp (x : Xc) (f : Flight) : Channel × Flight :=
  if !iFuse x.w then (x.c, f)
  else if !x.pairs (x.mm dExt) (x.c.descRaw x.site) then (x.c.count (Reg.CORE_FUSEMISS x.site) 1, f)
  else
    match fuseSpec (iOpc x.follow) with
    | none => (x.c, f)
    | some sp =>
      let y := x.mateXc sp
      match x.mateFault sp with
      | some code => (x.c.raiseInstr x.site x.st y.w y.pc code, { f with ph := .stopped })
      | none =>
        let m := y.mateOf sp (sp.roles (x.c.descRaw x.site) y.w)
        match if m.act ∧ iOpc y.w = 0x240 then y.bkOvf else none with
        | some o => (x.c.overflow x.site x.st y.w y.pc o, { f with ph := .stopped })
        | none =>
          let c1 := ((x.c.count (Reg.CORE_FUSED x.site) 1).count (Reg.CORE_SISSUED x.site (strmNum x.st)) 1).modStr x.site x.st
            (fun s => Stream.window { s with pc := (s.pc + 16) % 2 ^ 48 } (iOpc y.w) (iAcc y.w) m.rd m.wr)
          let c2 := match sp.noop y with
            | some a => c1.count a 1
            | none => c1.count (Reg.CORE_ZEROOP x.site) (b2n (sp.zero y))
          (c2.setCore x.site { c2.core x.site with ord := (c2.core x.site).ord + 1 }, { f with mate := some m })

/-- A BKADD that is paired joins its bucket before the pair starts: it may wait for a place, and a stale or refused one takes no rows
(R377 to R379). -/
def Xc.mateJoin (x : Xc) (f : Flight) : Channel × Flight :=
  match f.mate with
  | none => (x.c, f)
  | some m =>
    if m.act ∧ iOpc m.w = 0x240 then
      match x.c.bkJoin (x.owner.getD 0) x.site (bkTag m.w) with
      | .stale c => (c, { f with mate := some { m with act := false } })
      | .fail c => (c, { f with mate := some { m with act := false } })
      | .wait => (x.c, { f with ph := .slot })
      | .ok c => (c, f)
    else (x.c, f)

/-- The bobbins of the instruction's range (R130). -/
def bobRange (w : IWord) : List Nat := rangeFrom (iBob w) (iNbob w + 1)

/-- The drains of a walk with no slabs: every live bobbin of every group (R116). -/
def Xc.emptyDrains (x : Xc) (q : MM) : List Drain :=
  (List.range q.bat.length).flatMap (fun b => (List.range q.mts).flatMap (fun mt => (List.range q.nts).flatMap (fun nt =>
    (x.live q mt nt).map (fun g => ⟨iBob x.w + g.1 * q.gn + g.2, b, x.tileRow q mt g.1, 64 * (nt * q.gn + g.2)⟩))))

/-- Holds bobbins for the stream (R140). -/
def Channel.holdBobs (c : Channel) (i : Nat) (st : Strm) (r : Rc) (bobs : List Nat) : Channel :=
  let k := c.core i
  c.setCore i { k with held := k.held.filter (fun h => !bobs.contains h.1) ++ bobs.map (fun b => (b, st, r)) }

/-- The bobbins of the one group that an instruction with FUNC[2] leaves. -/
def Xc.groupBobs (x : Xc) (q : MM) : List Nat := (x.live q 0 0).map (fun g => iBob x.w + g.1 * q.gn + g.2)

/-- Clears a live bobbin at the start of its group, where ACC is 0, and offers it to the watch (R136, R221). -/
def Xc.openBob (x : Xc) (c : Channel) (q : MM) (f : Flight) (d : Drain) : Channel :=
  if iAcc x.w then c else x.sample (c.bobClear x.site d.bob) q f d.bob d.b ⟨nth [] q.bat d.b, d.row, d.col, 0, 0, 0, 0, 0⟩

/-- What a live bobbin's walk with no slabs is checked against (R116, R154). -/
def Xc.emptyChk (x : Xc) (q : MM) (d : Drain) : Option Ovf :=
  firstOvf (x.drainChk (nth [] q.bat d.b) (x.rowEnd q d.row - 1) (min q.n (d.col + 64) - 1))

/-- The walk with no slabs: live bobbins cleared, then drained or held, up to the first that meets an overflow (R116). -/
def Xc.emptyStart (x : Xc) (c : Channel) (q : MM) (f : Flight) : Channel × Flight :=
  let ds := x.emptyDrains q
  let good := ds.takeWhile (fun d => (x.emptyChk q d).isNone)
  let c1 := good.foldl (fun c d => x.takeCheck (x.openBob c q f d) q f d) c
  let f1 := { f with wrote := true, cur := ⟨q.bat.length, 0, 0, 0, 0, 0⟩ }
  let c2 := if keepBob x.w then c1.holdBobs x.site x.st x.rc (x.groupBobs q) else c1
  x.endWalk (c2, ds.findSome? (x.emptyChk q)) (if keepBob x.w then { f1 with ph := .done } else { f1 with ph := .walk, drains := good })

/-- Starts the walk, or its drains where the summed extent is 0; waits for bobbins of other streams first (R116, R140). -/
def Xc.mmStart (x : Xc) (c : Channel) (f : Flight) : Channel × Flight :=
  let q := x.mm dExt
  let f1 := { f with bobs := bobRange x.w }
  if c.bobBusy x.site x.st f1.bobs then (c, { f1 with ph := .bobbins })
  else if q.m = 0 ∨ q.n = 0 ∨ q.bat.isEmpty then (c, { f1 with ph := .done, bobs := [] })
  else if q.k = 0 ∨ q.nks = 0 then x.emptyStart c q f1
  else (c, { f1 with ph := .walk, wrote := true, cur := ⟨0, 0, 0, 0, 0, 0⟩ })

/-- The pair's bucket, where it adds into one, then the start of the walk. -/
def Xc.mmIssue (x : Xc) (f : Flight) : Channel × Flight :=
  let (c1, f1) := x.mateJoin f
  if f1.ph = .slot then (c1, f1) else x.mmStart c1 f1

/-- Formats of a multiplied operand. -/
def fmMul (m : Nat) : Bool := fmQ8 m || fmQ6 m || fmQ4 m || fmHS m

/-- R132 for the matrix class. DESIGN CHOICE (log 156): MATMUL_S24 with FUNC[1] is checked against D2's dimension 0, which holds K there. -/
def Xc.mmShape (x : Xc) : Bool :=
  let w := x.w
  let q := x.mm dCap
  let d0 := x.desc (iD0 w)
  let d1 := x.desc (iD1 w)
  let d2 := x.desc (iD2 w)
  let k2 := dCap d2 (1 - b2n (trB w))
  let bats := if isBsp w then [4] else [2, 3, 4]
  (keepBob w || dNdim d0 == dNdim d1 && decide (q.m ≤ dCap d0 1) && decide (q.n ≤ dCap d0 0) && bats.all (fun k => decide (dCap d1 k ≤ dCap d0 k)))
  && (dNdim d2 == 2 || dNdim d2 == dNdim d1)
  && (isBsp w || decide (q.k ≤ k2))
  && bats.all (fun k => decide (dCap d1 k ≤ dCap d2 k) || dCap d2 k == 1)
  && (!hasBias w || decide (q.n ≤ dCap (x.desc (iD3 w)) 0))
  && (!isConv w || decide (convK w ≤ dCap d2 2) && iFunc w == 0)
  && (!isS24 w || dSpmode d1 == 1 && !trA w)
  && (!isBsp w || dSpmode d1 == 2 && !trA w)
  && (!(iAcc w || keepBob w) || decide (q.mts * q.nts * q.bat.length ≤ 1))

/-- The five matrix opcodes. -/
def specMatrix (opc imm : Nat) : OpSpec :=
  { specBase with
    opc := opc
    streams := fun s => s != .u
    legal := fun w => tOk ⟨true, true, true, true, true, true, true, if opc = 0x0C3 then 127 else 7, imm, true⟩ w && !(iFuse w && keepBob w)
                      && (opc != 0x0C3 || decide (1 ≤ convK w) && decide (1 ≤ convDil w))
    roles := fun t w =>
      [rRd (iD1 w) 1, rRd (iD2 w) 2] ++ (if isGath w || hasBias w then [rRd (iD3 w) 3] else []) ++ maskRole w
      ++ (if isS24 w || isBsp w then [rRd (dSpidx (t (iD1 w))) 5] else []) ++ (if keepBob w then [] else [rWr (iD0 w) 0])
    bad := fun x =>
      let w := x.w
      let m (n : Nat) : Nat := dFmt (x.desc n)
      let fmt := fmMul (m (iD1 w)) && fmMul (m (iD2 w)) && (!isS24 w || fmQ8 (m (iD1 w)) || fmQ4 (m (iD1 w)))
        && (!hasBias w || fmS (m (iD3 w))) && (!isGath w || fmI (m (iD3 w))) && (keepBob w || fmQ8HSC (m (iD0 w)))
        && (!isBsp w || dSpmode (x.desc (iD1 w)) != 2 || fmI (m x.idx1)) && (!isS24 w || dSpmode (x.desc (iD1 w)) != 1 || fmU (m x.idx1))
        && x.maskFmt
      dfsm fmt x.mmShape
    zero := fun x => let q := x.mm dExt; q.m == 0 || q.n == 0 || q.bat.isEmpty || q.k == 0 || q.nks == 0
    zeroRun := fun x f => x.mmIssue f
    pair := fun x f => x.pairUp f
    block := fun x fs => bobsInUse fs (bobRange x.w)
    writes := fun _ => true
    run := fun x f => x.mmIssue f }

def specMatmul : OpSpec := specMatrix 0x0C0 0
def specMatmulS24 : OpSpec := specMatrix 0x0C1 0
def specMatmulBsp : OpSpec := specMatrix 0x0C2 0
def specConv1 : OpSpec := specMatrix 0x0C3 0xFFFF
def specGathermm : OpSpec := specMatrix 0x0C4 0

/-! ### SLAB_ENTER for a matrix instruction (R136, R145) -/

/-- The cursor after a slab. -/
def nextCursor (q : MM) (lives : Nat) (u : Cursor) : Cursor :=
  if u.li + 1 < lives then { u with li := u.li + 1 }
  else if u.ks + 1 < q.nks then { u with ks := u.ks + 1, li := 0 }
  else if u.nt + 1 < q.nts then { u with nt := u.nt + 1, ks := 0, li := 0 }
  else if u.mt + 1 < q.mts then { u with mt := u.mt + 1, nt := 0, ks := 0, li := 0 }
  else ⟨u.b + 1, 0, 0, 0, 0, 0⟩

/-- What a step of a walk comes to: nothing ready, or a new channel and flight. -/
abbrev StepRes := Option (Channel × Flight)

/-- Counts the empty slots and -1 entries that a slab is the first to meet; an entry beyond the run-time extent is one of them (R144 to R146).
DESIGN CHOICE (log 158): a row of GATHERMM counts once, in its first column group; a slot counts at each walk of it. -/
def Xc.slabCounts (x : Xc) (c : Channel) (q : MM) (u : Cursor) (a : SlabAt) : Channel :=
  if isBsp x.w ∧ u.li = 0 ∧ a.ks % x.subs = 0 ∧ a.blk = -1 then (c.count (Reg.CORE_SLOTEMPTY x.site) 1).count (Reg.CORE_IDXINV x.site) 1
  else if isGath x.w ∧ a.ks = 0 ∧ a.c0 = 0 then
    c.count (Reg.CORE_IDXINV x.site) ((rangeFrom a.r0 (x.rowEnd q a.r0 - a.r0)).filter (fun m => x.gRow c m == -1)).length
  else c

/-- The next slab of a matrix instruction, if its bobbin is free; `ecc`: what the PE ports find in the bobbin's elements (R228). -/
def Xc.mmStep (x : Xc) (c : Channel) (f : Flight) (ecc : List (Nat × Ecc)) : StepRes :=
  let q := x.mm dExt
  let u := f.cur
  if q.bat.length ≤ u.b then none
  else
    let lv := x.live q u.mt u.nt
    let g := nth (0, 0) lv u.li
    let bob := iBob x.w + g.1 * q.gn + g.2
    if u.ks = 0 ∧ f.drains.any (fun d => d.bob == bob) then none
    else
      let a := x.slabAt c q (nth [] q.bat u.b) (x.tileRow q u.mt g.1) (64 * (u.nt * q.gn + g.2)) u.ks
      let d : Drain := ⟨bob, u.b, a.r0, a.c0⟩
      let c1 := if u.ks = 0 then x.openBob c q f d else c
      match x.slabChk c1 q a with
      | some o => some (x.endWalk (c1, some o) f)
      | none =>
        let c2 := ((x.slabCounts c1 q u a).bobEcc x.site bob ecc).slab x.site (x.slabCfg bob) (x.slabIn c1 q a)
        let u1 := nextCursor q lv.length u
        let last := u.ks + 1 == q.nks
        let c3 := if last then x.takeCheck c2 q f d else c2
        let f1 := { f with cur := u1, drains := if last && !keepBob x.w then f.drains ++ [d] else f.drains }
        if q.bat.length ≤ u1.b ∧ keepBob x.w then some (c3.holdBobs x.site x.st x.rc (x.groupBobs q), { f1 with ph := .done })
        else some (c3, f1)

/-! ### BOBBIN_DRAIN for a matrix instruction (R137 to R139, R221, R222, R271) -/

/-- One drained element after bias and epilogue: an FP32C value (R137, R271). -/
def Xc.drainElem (x : Xc) (c : Channel) (v : F32C) (n k : Nat) : F32C :=
  let b := if hasBias x.w then cAdd v (cTerm (c.ldVal (x.opd (iD3 x.w)) [n])) else v
  if iEpi x.w = 0 then b else ⟨epilogue x.fr k (iEpi x.w) (iImm x.w) (cRound b), 0⟩

/-- The view of a pair's consumer while rows are passed to it. -/
def Xc.consumer (x : Xc) (g : Flight) : Xc := { x with w := g.w, snap := g.snap, pc := g.pc }

/-- Hands one passed row to the consumer (R271). -/
def Xc.pass (y : Xc) (c : Channel) (es : List (List Nat × F32C)) (k : Nat) : Channel :=
  match es with
  | [] => c
  | (i0, _) :: _ =>
    if y.valid c 1 i0 then
      if iOpc y.w = 0x240 then y.bkPut c (es.map (fun e => (e.1, cVal e.2)))
      else y.put c (iD0 y.w) ((es.zip (List.range es.length)).map (fun e =>
        let (v, raw) := y.ewElem c (k + 4 * e.2) e.1.1 (cVal e.1.2) (some (cBits e.1.2)) true
        ⟨e.1.1, v, raw⟩))
    else c

/-- The capacity checks of what the consumer touches for a passed row (R154, R271): its other sources, its mask, its D0. -/
def Xc.passChk (y : Xc) (top : List Nat) : Option Ovf :=
  firstOvf ((ewSrcs y.w).map (fun s => ovfAt s.1 s.2 (y.desc s.2) true top)
    ++ [y.maskOvf 1 top, if iOpc y.w = 0x240 then none else ovfAt 0 (iD0 y.w) (y.desc (iD0 y.w)) false top])

/-- A row that a drain takes from its bobbin. -/
def Xc.rowOut (x : Xc) (c : Channel) (q : MM) (d : Drain) (m : Nat) : List (List Nat × F32C) :=
  (rangeFrom d.col (min q.n (d.col + 64) - d.col)).map (fun n =>
    (x.idxD (nth [] q.bat d.b) m n,
     x.drainElem c (c.bobGet x.site d.bob (m - d.row) (n - d.col)) n (1024 * (m - d.row) + 8 * (n - d.col))))

/-- Whether a drain writes or passes row m: it is valid, and its consumer, where it has one, takes rows. -/
def Xc.rowGoes (x : Xc) (c : Channel) (q : MM) (g : Option Flight) (d : Drain) (m : Nat) : Bool :=
  x.rowValid c q ⟨nth [] q.bat d.b, d.row, d.col, 0, 0, 0, 0, 0⟩ m && (g.map (·.act)).getD true

/-- The consumer's check of row m. -/
def Xc.rowChkOut (x : Xc) (q : MM) (g : Option Flight) (d : Drain) (c : Channel) (m : Nat) : Option Ovf :=
  match g with
  | some h => if x.rowGoes c q g d m then (x.consumer h).passChk (x.idxD (nth [] q.bat d.b) m (min q.n (d.col + 64) - 1)) else none
  | none => none

/-- Drains row m: to D0, or to the consumer `g` (R137, R271). -/
def Xc.drainRow (x : Xc) (q : MM) (g : Option Flight) (d : Drain) (c : Channel) (m : Nat) : Channel :=
  if x.rowGoes c q g d m then
    match g with
    | none => x.put c (iD0 x.w) ((x.rowOut c q d m).map (fun e => ⟨e.1, cVal e.2, some (cBits e.2)⟩))
    | some h => (x.consumer h).pass c (x.rowOut c q d m) (1024 * (m - d.row) + 2)
  else c

/-- Drains one bobbin, row by row, up to a row that its consumer cannot take. -/
def Xc.drainBob (x : Xc) (c : Channel) (q : MM) (g : Option Flight) (d : Drain) : Channel × Option Ovf :=
  walk (x.rowChkOut q g d) (x.drainRow q g d) (rangeFrom d.row (x.rowEnd q d.row - d.row)) c

/-- The end of a stream's hold on a bobbin (R140). -/
def Channel.unhold (c : Channel) (i : Nat) (st : Strm) (bob : Nat) : Channel :=
  let k := c.core i
  c.setCore i { k with held := k.held.filter (fun h => !(h.1 == bob && h.2.1 == st)) }

/-- The instruction that takes an instruction's drained rows, given the next one of the stream (R270). -/
def Flight.takes (f : Flight) (g : Option Flight) : Option Flight :=
  if f.mate.isSome then g.filter (fun g => g.ph == .fused || g.ph == .stopped) else none

/-- The phase of an instruction that has made a drain, `ended` where nothing is left of it. -/
def Flight.drained (f : Flight) (ended : Bool) : Phase := if f.ph = .stopped then .stopped else if ended then .done else .walk

/-- Drains the oldest waiting bobbin of a matrix instruction; an overflow of its consumer stops both (R271). -/
def Xc.mmDrain (x : Xc) (c : Channel) (f : Flight) (g : Option Flight) (ecc : List (Nat × Ecc)) : StepRes :=
  match f.drains with
  | [] => none
  | d :: t =>
    let q := x.mm dExt
    let (c1, o) := x.drainBob (c.bobEcc x.site d.bob ecc) q g d
    let f1 := { f with drains := t, ph := f.drained (t.isEmpty && decide (q.bat.length ≤ f.cur.b)) }
    match o, g with
    | some e, some h => some ((x.consumer h).endWalk (c1, some e) { f1 with drains := [] })
    | _, _ => some (c1.unhold x.site x.st d.bob, f1)

/-! ### Meanings -/

/-- An error in the core's own structures that an instruction or a slab meets (R454): counted, or CORE_LOGIC. -/
def Channel.coreErr (c : Channel) (i : Nat) (e : CoreErr) : Channel :=
  match e with
  | .clean => c
  | .single => c.count Reg.FLT_CORECORR 1
  | .double which entry => c.raise (mkFault i fcCoreLogic (c.core i).owner which.val entry.toNat)

/-- Issue of a matrix instruction; a double error in the descriptor table stops it before it acts (R454). -/
def State.issueMatrix (s : State) (sp : OpSpec) (p : Place) (w follow : IWord) (err : CoreErr) : State :=
  if (s.chan p.ch).usable p.site.val then
    let s1 := s.onChan p.ch (fun c => c.coreErr p.site.val err)
    match err with
    | .double _ _ => s1.onChan p.ch (fun c => c.modStr p.site.val p.st (fun x => { x with wait := .fault }))
    | _ => s1.issueAt sp p w follow
  else s

def execMatmul (p : Place) (w follow : IWord) (err : CoreErr) (s : State) : Outc := .next (s.issueMatrix specMatmul p w follow err)
def execMatmulS24 (p : Place) (w follow : IWord) (err : CoreErr) (s : State) : Outc := .next (s.issueMatrix specMatmulS24 p w follow err)
def execMatmulBsp (p : Place) (w follow : IWord) (err : CoreErr) (s : State) : Outc := .next (s.issueMatrix specMatmulBsp p w follow err)
def execConv1 (p : Place) (w follow : IWord) (err : CoreErr) (s : State) : Outc := .next (s.issueMatrix specConv1 p w follow err)
def execGathermm (p : Place) (w follow : IWord) (err : CoreErr) (s : State) : Outc := .next (s.issueMatrix specGathermm p w follow err)

end Sys2Proof.Machine
end

