-- ==== Sys2Proof/Machine/Attention.lean ====
section
/-! DEFINITION. Class ATTENTION: ATTN, ATTN_SEL, ATTN_BWD (R131, R132, R146 to R152, R207, R235). One step of the walk is one
slot; the products of its score and output tiles go through the PE array. -/

namespace Sys2Proof.Machine

open Sys2Proof

/-! ### Operands -/

def isBwd (w : IWord) : Bool := iOpc w == 0x102
def causal (w : IWord) : Bool := bit (iFunc w) 0

/-- Descriptors of Q, K, V. -/
def aQ (w : IWord) : Nat := iD1 w
def aK (w : IWord) : Nat := if isBwd w then iD1 w + 1 else iD2 w
def aV (w : IWord) : Nat := if isBwd w then iD1 w + 2 else iD3 w

/-- Whether slots come from an index tensor. -/
def selects (w : IWord) : Bool := iOpc w == 0x101 || isBwd w && bit (iFunc w) 2

/-- Statistics written by the forward instruction (FUNC[1]). -/
def wantStats (w : IWord) : Bool := !isBwd w && bit (iFunc w) 1

/-- Extents Lq, d, Lk, dv and the batch index lists. -/
structure AT where
  lq : Nat
  d : Nat
  lk : Nat
  dv : Nat
  bat : List (List Nat)
deriving DecidableEq, Repr

def Xc.at (x : Xc) (ex : Nat → Nat → Nat) : AT :=
  let q := x.desc (aQ x.w)
  { lq := ex q 1, d := ex q 0, lk := ex (x.desc (aK x.w)) 1, dv := ex (x.desc (aV x.w)) 0, bat := idxs [ex q 2, ex q 3, ex q 4] }

/-- The index tensor of the key descriptor. -/
def Xc.idxK (x : Xc) : Nat := dSpidx (x.desc (aK x.w))

/-! ### Slots (R148 to R150) -/

/-- Whether query i may see key j (R149). -/
def sees (w : IWord) (t : AT) (i j : Nat) : Bool := decide (j < t.lk) && (!causal w || decide (j + t.lq ≤ i + t.lk))

/-- Number of slots of query block qb: every listed slot, or the key blocks not wholly masked. -/
def Xc.slotCount (x : Xc) (t : AT) (qb : Nat) : Nat :=
  if selects x.w then dCapRaw (x.desc x.idxK) 0
  else
    let top := min (qb * 64 + 64) t.lq - 1
    ((List.range (ceilDiv t.lk 64)).filter (fun kb => sees x.w t top (kb * 64))).length

/-- Key block of a slot, -1 for an empty one. -/
def Xc.slotBlock (x : Xc) (c : Channel) (qb s : Nat) (bat : List Nat) : Int :=
  if selects x.w then
    let o := x.opd x.idxK
    if s < dExt o.d 0 then c.ldInt o (s :: qb :: bat) else -1
  else (s : Int)

/-! ### Tiles through the array -/

/-- Elements of a tensor along rows (dimension 1) and depth (dimension 0), at batch indices, as feeds. -/
def Channel.feedOf (c : Channel) (o : Opd) (i : List Nat) : Feed := ⟨c.ldCode o (bcast o.d i), c.scaleOf o (bcast o.d i), 0⟩

/-- A slab of class and formats of two operands. -/
def Xc.attCfg (x : Xc) (fa fb ma mb ta tb bob : Nat) : SlabCfg :=
  ⟨max (fmtClass fa) (fmtClass fb), false, fa, fb, ma, mb, ta, tb, bob, if x.rc = .r1 then 1 else 0⟩

/-- Whether row r of query block qb takes part: inside Lq, and not masked (R115, R134, R161). -/
def Xc.qOk (x : Xc) (c : Channel) (t : AT) (qb : Nat) (bat : List Nat) (r : Nat) : Bool :=
  decide (r < 64) && decide (qb * 64 + r < t.lq) && x.valid c 0 ((qb * 64 + r) :: bat)

/-- The product of a query tensor's rows with a key tensor's rows over n elements of depth, formed in bobbin `bob` (R148, R157). -/
def Xc.rowsTile (x : Xc) (c : Channel) (t : AT) (qb kb n : Nat) (bat : List Nat) (oq ok : Opd) (bob : Nat) : Channel :=
  (c.bobClear x.site bob).tile x.site
    (x.attCfg (dFmt oq.d) (dFmt ok.d) (dSmode oq.d) (dSmode ok.d) (dTscale oq.d) (dTscale ok.d) bob) n
    (fun r k => c.feedOf oq (k :: (qb * 64 + r) :: bat)) (fun j k => c.feedOf ok (k :: (kb * 64 + j) :: bat))
    (x.qOk c t qb bat) (fun j => decide (kb * 64 + j < t.lk))

/-- Forms Q . K^T of one key block in bobbin `bob`, slabs over d (R148). -/
def Xc.scoreTile (x : Xc) (c : Channel) (t : AT) (qb kb : Nat) (bat : List Nat) (bob : Nat) : Channel :=
  x.rowsTile c t qb kb t.d bat (x.opd (aQ x.w)) (x.opd (aK x.w)) bob

/-- The score of query row r and key column j in FP32: IMM * S, or -inf where masked (R148). -/
def Xc.score (x : Xc) (c : Channel) (t : AT) (bob : Nat) (qb kb r j : Nat) : F32 :=
  if sees x.w t (qb * 64 + r) (kb * 64 + j) then
    cRound (cMul x.fr (r * 64 + j) (cTerm (f32Val (iImm x.w))) (c.bobGet x.site bob r j))
  else 0xFF80_0000

/-- The rows of a query block. -/
def qRows (t : AT) (qb : Nat) : List Nat := List.range (min 64 (t.lq - qb * 64))

def maxF32 (l : List F32) (m : F32) : F32 := l.foldl (fun a b => rn32 (vMax (f32Val a) (f32Val b))) m

/-- exp(a - b); 1 where both are -inf (R148). -/
def Xc.expDiff (x : Xc) (k : Nat) (a b : F32) : F32 :=
  if a = 0xFF80_0000 ∧ b = 0xFF80_0000 then 0x3F80_0000
  else fnExp x.fr k (f32Val (f32Sub a b))

/-- P = exp(S - mn), 0 where the score is -inf (R148). -/
def Xc.pElem (x : Xc) (k : Nat) (s mn : F32) : F32 := if s = 0xFF80_0000 then 0 else x.expDiff k s mn

/-- A row of P converted to V's format to nearest even: codes, one scale per 32 positions where the format is MX, and the counts of R208
(R148, R205). -/
def Xc.pConvert (x : Xc) (ps : List F32) : List Feed × CvtCnt :=
  let d := x.desc (aV x.w)
  let m := dFmt d
  let e := x.env
  let one (s : Nat) (k : Int) (p : F32) : Feed × CvtCnt :=
    let r := convert m e.sat8 none (vScale (f32Val p) k)
    (⟨r.1, s, 0⟩, r.2)
  let rs :=
    if dSmode d = 2 then
      [0, 1].flatMap (fun h =>
        let blk := (ps.drop (32 * h)).take 32
        if blk.any (fun p => !f32Finite p) then blk.map (fun _ => (⟨0, 0xFF, 0⟩, ⟨0, 0, 1⟩))
        else
          let s := scaleCode (blk.foldl (fun a p => amaxStep a (f32Val p)) vZero) (fmtEmax m) e.head
          blk.map (one s (127 - (s : Int))))
    else ps.map (one 0x7F 0)
  (rs.map (·.1), rs.foldl (fun n r => cntAdd n r.2) cnt0)

/-- The value of a converted P element. -/
def Xc.pVal (x : Xc) (f : Feed) : Val :=
  let d := x.desc (aV x.w)
  let v := decElem (dFmt d) f.code
  if dSmode d = 2 then withScale v f.sc else v

/-- Multiplies every element of an output bobbin's row by an FP32 factor (R235). -/
def Channel.rescaleRow (c : Channel) (i fr k bob r : Nat) (f : F32) : Channel :=
  (List.range 64).foldl (fun c j =>
    let v := c.bobGet i bob r j
    if v = czero then c else c.bobSet i bob r j (cMul fr (k + j) v (cTerm (f32Val f)))) c

/-- Row state of the online softmax: m as FP32, l as FP32C bits. -/
def mlGet (l : List (Nat × Nat)) (r : Nat) : Nat × Nat := nth (0xFF80_0000, 0) l r

/-- Bobbins of the output columns. -/
def outBobs (w : IWord) (t : AT) : List (Nat × Nat) := (List.range (ceilDiv t.dv 64)).map (fun v => (v, iBob w + 2 + v))

/-- A query row of a slot: the new m and l, the rescaling factor, the row of P. -/
structure PRow where
  mn : F32
  f : F32
  l : Nat
  ps : List Feed
  n : CvtCnt

/-- The softmax step of one query row (R148). -/
def Xc.pRow (x : Xc) (c : Channel) (t : AT) (sb qb kb r : Nat) (ml : Nat × Nat) : PRow :=
  let sc := (List.range 64).map (fun j => x.score c t sb qb kb r j)
  let mn := maxF32 sc ml.1
  let k := 8192 + r * 256
  let ps : List F32 := (sc.zip (List.range 64)).map (fun (e : Nat × Nat) => x.pElem (k + e.2) e.1 mn)
  let (fs, n) := x.pConvert ps
  let f := x.expDiff (k + 64) ml.1 mn
  let sum := fs.foldl (fun a p => cAdd a (cTerm (x.pVal p))) czero
  ⟨mn, f, cBits (cAdd (cMul x.fr (k + 65) (cOfBits ml.2) (cTerm (f32Val f))) sum), fs, n⟩

/-- One forward slot: score tile, P, rescaling, output tiles; rows that do not take part keep their state (R148). -/
def Xc.fwdSlot (x : Xc) (c : Channel) (t : AT) (qb s kb : Nat) (bat : List Nat) (ml : List (Nat × Nat)) : Channel × List (Nat × Nat) :=
  let sb := iBob x.w + s % 2
  let c1 := x.scoreTile c t qb kb bat sb
  let rows : List (Nat × Option PRow) := (List.range 64).map (fun r =>
    (r, if x.qOk c t qb bat r then some (x.pRow c1 t sb qb kb r (mlGet ml r)) else none))
  let c2 := (outBobs x.w t).foldl (fun c v =>
    rows.foldl (fun c e =>
      match e.2 with
      | some p => c.rescaleRow x.site x.fr (32768 + (v.2 * 64 + e.1) * 64) v.2 e.1 p.f
      | none => c) c) (c1.cvtCount x.site (rows.foldl (fun n e => match e.2 with | some p => cntAdd n p.n | none => n) cnt0))
  let ov := x.opd (aV x.w)
  let c3 := (outBobs x.w t).foldl (fun c v =>
    c.tile x.site (x.attCfg (dFmt ov.d) (dFmt ov.d) (if dSmode ov.d = 2 then 2 else 0) (dSmode ov.d) 0x7F (dTscale ov.d) v.2) 64
      (fun r k => match rows[r]? with | some (_, some p) => nth feed0 p.ps k | _ => feed0)
      (fun j k => if kb * 64 + k < t.lk then c.feedOf ov ((v.1 * 64 + j) :: (kb * 64 + k) :: bat) else feed0)
      (x.qOk c t qb bat) (fun j => decide (v.1 * 64 + j < t.dv))) c2
  (c3, rows.map (fun e => match e.2 with | some p => (p.mn, p.l) | none => mlGet ml e.1))

/-! ### ATTN_BWD (R152) -/

/-- Adds into an element of a gradient in FP32C, rounding to its format where it is not FP32C (R152, R209). -/
def Xc.addInto (x : Xc) (c : Channel) (idx : Nat) (i : List Nat) (v : F32C) : Channel :=
  let o := x.opdW idx
  let r := cAdd (cTerm (c.ldVal o i)) v
  (x.convertTo c idx [⟨i, cVal r, some (cBits r)⟩]).1

/-- The sum of products of two value lists, added in order in FP32C. -/
def dotC (l : List (Val × Val)) : F32C := l.foldl (fun a p => cAdd a (cTerm (vMul p.1 p.2))) czero

/-- The term sum dO . O of a query row: the statistics' third element, or formed from dO and D0 + 3 (R152). -/
def Xc.deltaRow (x : Xc) (c : Channel) (t : AT) (q : Nat) (bat : List Nat) : Val :=
  let st := x.opd (iD3 x.w)
  if dCap st.d 0 = 3 then c.ldVal st (bcast st.d (2 :: q :: bat))
  else
    let od := x.opd (iD2 x.w)
    let oo := x.opd (iD0 x.w + 3)
    f32Val (cRound (dotC ((List.range t.dv).map (fun v => (c.ldVal od (bcast od.d (v :: q :: bat)), c.ldVal oo (bcast oo.d (v :: q :: bat)))))))

/-- A product of a 64 x 64 tile of FP32 values with columns of a tensor, into bobbin `bob`: row r, depth k, column j (R152, R157). -/
def Xc.valTile (x : Xc) (c : Channel) (o : Opd) (bob : Nat) (a : Nat → Nat → F32) (b : Nat → Nat → Option (List Nat)) (va vb : Nat → Bool) : Channel :=
  c.tile x.site (x.attCfg 0 (dFmt o.d) 0 (dSmode o.d) 0x7F (dTscale o.d) bob) 64 (fun r k => ⟨a r k, 0x7F, 0⟩)
    (fun j k => match b j k with | some i => c.feedOf o i | none => feed0) va vb

/-- Forms the product of a transposed tile with a query tensor's rows, 64 columns at a time, and adds it into a gradient of the keys
(R152). -/
def Xc.keyGrad (x : Xc) (c : Channel) (t : AT) (qb kb n : Nat) (bat : List Nat) (o : Opd) (idx : Nat) (g : Nat → Nat → F32) : Channel :=
  let bob := iBob x.w + 2
  let keys (j : Nat) : Bool := decide (kb * 64 + j < t.lk)
  (List.range (ceilDiv n 64)).foldl (fun c v =>
    let c1 := x.valTile (c.bobClear x.site bob) o bob (fun j r => g r j)
      (fun e r => if x.qOk c t qb bat r then some ((v * 64 + e) :: (qb * 64 + r) :: bat) else none) keys (fun e => decide (v * 64 + e < n))
    (((List.range 64).filter keys).flatMap (fun j => (rangeFrom (v * 64) (min 64 (n - v * 64))).map (fun e => (j, e)))).foldl
      (fun c p => x.addInto c idx (p.2 :: (kb * 64 + p.1) :: bat) (c1.bobGet x.site bob p.1 (p.2 % 64))) c1) c

/-- One backward slot. DESIGN CHOICE (log 168): BOB holds the scores, BOB + 1 dO . V^T, BOB + 2 the products for dV and dK; P and dS enter
the array as FP32. -/
def Xc.bwdSlot (x : Xc) (c : Channel) (t : AT) (qb kb : Nat) (bat : List Nat) (dl : List Val) : Channel :=
  let sb := iBob x.w
  let od := x.opd (iD2 x.w)
  let oq := x.opd (aQ x.w)
  let ok := x.opd (aK x.w)
  let st := x.opd (iD3 x.w)
  let c1 := x.rowsTile (x.scoreTile c t qb kb bat sb) t qb kb t.dv bat od (x.opd (aV x.w)) (sb + 1)
  let p (r j : Nat) : F32 :=
    let s := x.score c1 t sb qb kb r j
    let m := rn32 (c1.ldVal st (bcast st.d (0 :: (qb * 64 + r) :: bat)))
    let l := c1.ldVal st (bcast st.d (1 :: (qb * 64 + r) :: bat))
    if s = 0xFF80_0000 then 0 else vDiv32 (f32Val (x.expDiff (8192 + r * 64 + j) s m)) l
  let dS (r j : Nat) (pv : F32) : F32 :=
    rn32 (vMul (f32Val pv) (f32Val (rn32 (vSub (f32Val (cRound (c1.bobGet x.site (sb + 1) r j))) (nth vZero dl r)))))
  let tab : List (List (F32 × F32)) := (List.range 64).map (fun r =>
    if x.qOk c t qb bat r then (List.range (min 64 (t.lk - kb * 64))).map (fun j => let v := p r j; (v, dS r j v)) else [])
  let pAt (r j : Nat) : F32 := (nth (0, 0) (nth [] tab r) j).1
  let dAt (r j : Nat) : F32 := (nth (0, 0) (nth [] tab r) j).2
  let c2 := x.keyGrad c1 t qb kb t.dv bat od (iD0 x.w + 2) pAt
  let c3 := x.keyGrad c2 t qb kb t.d bat oq (iD0 x.w + 1) dAt
  (List.range (ceilDiv t.d 64)).foldl (fun c v =>
    x.valTile c ok (sb + 3 + v) dAt (fun e j => if kb * 64 + j < t.lk then some ((v * 64 + e) :: (kb * 64 + j) :: bat) else none)
      (x.qOk c t qb bat) (fun e => decide (v * 64 + e < t.d))) c3

/-! ### Checks (R146, R154, R155) -/

/-- Whether D0 + 3 is read by ATTN_BWD. -/
def readsO (t : Nat → Nat) (w : IWord) : Bool := isBwd w && dCap (t (iD3 w)) 0 != 3

/-- The checks of one slot, or of a query block without slots (`some kb` and `none`), in the order of R155. -/
def Xc.slotChk (x : Xc) (t : AT) (qb s : Nat) (slot : Option Int) (bat : List Nat) : Option Ovf :=
  let w := x.w
  let kb := slot.getD (-1)
  let qTop := min t.lq (qb * 64 + 64) - 1
  let ix := x.desc x.idxK
  let bad := entryOvf x.idxK kb (ceilDiv t.lk 64) (s + dCapRaw ix 0 * (qb + dCap ix 1 * (linIdx ix (0 :: 0 :: bat) / max 1 (dCapRaw ix 0 * dCap ix 1))))
  let live := decide (0 ≤ kb) && bad.isNone
  let kTop := min t.lk (kb.toNat * 64 + 64) - 1
  let key (o i n : Nat) : List (Option Ovf) :=
    if live then [ovfSpan o i (x.desc i) false (0 :: (kb.toNat * 64) :: bat) ((n - 1) :: kTop :: bat)] else []
  let q (o i n : Nat) : List (Option Ovf) := [ovfAt o i (x.desc i) false ((n - 1) :: qTop :: bat)]
  let some' (b : Bool) (l : List (Option Ovf)) : List (Option Ovf) := if b then l else []
  let slotted := slot.isSome
  firstOvf (
    (if isBwd w then some' slotted (q 1 (aQ w) t.d) ++ q 2 (iD2 w) t.dv ++ q 3 (iD3 w) (if readsO x.desc w then 2 else 3)
     else some' slotted (q 1 (aQ w) t.d ++ key 2 (aK w) t.d ++ key 3 (aV w) t.dv))
    ++ [x.maskOvf 0 (qTop :: bat)]
    ++ some' (isBwd w) (key 6 (aK w) t.d ++ key 6 (aV w) t.dv ++ key 6 (iD0 w + 1) t.d ++ key 6 (iD0 w + 2) t.dv)
    ++ some' (readsO x.desc w) (q 6 (iD0 w + 3) t.dv)
    ++ some' (selects w && slotted) [ovfAt 5 x.idxK ix false (s :: qb :: bat), bad]
    ++ q 0 (iD0 w) (if isBwd w then t.d else t.dv) ++ some' (wantStats w) (q 6 (iD0 w + 1) 2))

/-! ### The walk -/

/-- Output bobbins of a query block. -/
def Xc.blockBobs (x : Xc) (t : AT) : List Nat :=
  if isBwd x.w then (List.range (ceilDiv t.d 64)).map (fun v => iBob x.w + 3 + v) else (outBobs x.w t).map (·.2)

/-- The row state at the start of a query block: m and l, or the sums dO . O of ATTN_BWD. -/
def Xc.blockMl (x : Xc) (c : Channel) (t : AT) (qb : Nat) (bat : List Nat) : List (Nat × Nat) :=
  if isBwd x.w then (qRows t qb).map (fun r => (cBits (cOf (x.deltaRow c t (qb * 64 + r) bat)), 0)) else List.replicate 64 (0xFF80_0000, 0)

/-- Counts an empty slot of an index tensor: an entry of -1; slots beyond its run-time extent are not counted (R146, R150). -/
def Xc.slotCounts (x : Xc) (c : Channel) (s : Nat) (kb : Int) : Channel :=
  if selects x.w ∧ s < dExt (x.desc x.idxK) 0 ∧ kb = -1 then (c.count (Reg.CORE_SLOTEMPTY x.site) 1).count (Reg.CORE_IDXINV x.site) 1 else c

/-- The next slot of an attention instruction, once the drains of the query block before it have ended; `ecc`: what the ports find in the
score bobbin (R228). The cursor's `b`, `mt` and `ks` are the batch, the query block and the slot. -/
def Xc.attStep (x : Xc) (c : Channel) (f : Flight) (ecc : List (Nat × Ecc)) : StepRes :=
  let t := x.at dExt
  let u := f.cur
  if t.bat.length ≤ u.b ∨ (u.ks = 0 ∧ !f.drains.isEmpty) then none
  else
    let bat := nth [] t.bat u.b
    let n := x.slotCount t u.mt
    let c1 := if u.ks = 0 then (x.blockBobs t).foldl (fun c b => c.bobClear x.site b) c else c
    let slot : Option Int := if n = 0 then none else some (x.slotBlock c1 u.mt u.ks bat)
    match x.slotChk t u.mt u.ks slot bat with
    | some o => some (x.endWalk (c1, some o) f)
    | none =>
      let kb := slot.getD (-1)
      let ml0 := if u.ks = 0 then x.blockMl c1 t u.mt bat else f.ml
      let c2 := if n = 0 then c1 else x.slotCounts c1 u.ks kb
      let c3 := if kb < 0 then c2 else c2.bobEcc x.site (iBob x.w + if isBwd x.w then 0 else u.ks % 2) ecc
      let (c4, ml1) :=
        if kb < 0 then (c3, ml0)
        else if isBwd x.w then (x.bwdSlot c3 t u.mt kb.toNat bat (ml0.map (fun e => cVal (cOfBits e.1))), ml0)
        else x.fwdSlot c3 t u.mt u.ks kb.toNat bat ml0
      let last := decide (n ≤ u.ks + 1)
      let ds := if last then (x.blockBobs t).zip (List.range (x.blockBobs t).length) |>.map (fun e => (⟨e.1, u.b, u.mt * 64, e.2 * 64⟩ : Drain)) else []
      let u1 : Cursor :=
        if !last then { u with ks := u.ks + 1 }
        else if u.mt + 1 < ceilDiv t.lq 64 then { u with mt := u.mt + 1, ks := 0 }
        else ⟨u.b + 1, 0, 0, 0, 0, 0⟩
      some (c4, { f with cur := u1, ml := ml1, drains := f.drains ++ ds })

/-- Drains one output bobbin of a query block: rows of O / l, or of dQ; statistics with the first (R148, R152). A bobbin that the stream
held is then free (R140). -/
def Xc.attDrain (x : Xc) (c : Channel) (f : Flight) (ecc : List (Nat × Ecc)) : StepRes :=
  match f.drains with
  | [] => none
  | d :: rest =>
    let t := x.at dExt
    let bat := nth [] t.bat d.b
    let c0 := c.bobEcc x.site d.bob ecc
    let width := if isBwd x.w then t.d else t.dv
    let cols := rangeFrom d.col (min width (d.col + 64) - d.col)
    let c1 := (qRows t (d.row / 64)).foldl (fun c r =>
      if x.valid c 0 ((d.row + r) :: bat) then
        let (m, l) := mlGet f.ml r
        let es := cols.map (fun n =>
          let v := c.bobGet x.site d.bob r (n - d.col)
          let e : Elem :=
            if isBwd x.w then ⟨n :: (d.row + r) :: bat, cVal v, some (cBits v)⟩
            else if l = 0 then ⟨n :: (d.row + r) :: bat, vZero, none⟩
            else ⟨n :: (d.row + r) :: bat, f32Val (f32Div (cRound v) (cRound (cOfBits l))), none⟩
          e)
        let c2 := x.put c (iD0 x.w) es
        if wantStats x.w ∧ d.col = 0 then
          x.store c2 (iD0 x.w + 1) [⟨0 :: (d.row + r) :: bat, f32Val m, none⟩, ⟨1 :: (d.row + r) :: bat, f32Val (cRound (cOfBits l)), none⟩]
        else c2
      else c) c0
    some (c1.unhold x.site x.st d.bob, { f with drains := rest, ph := f.drained (rest.isEmpty && decide (t.bat.length ≤ f.cur.b)) })

/-! ### Issue -/

/-- Starts the walk, after bobbins of other streams (R140). -/
def Xc.attStart (x : Xc) (c : Channel) (f : Flight) : Channel × Flight :=
  let f1 := { f with bobs := bobRange x.w }
  if c.bobBusy x.site x.st f1.bobs then (c, { f1 with ph := .bobbins }) else (c, { f1 with ph := .walk })

/-- R131 and R132 for attention; bobbins needed: R147, R152. -/
def Xc.attShape (x : Xc) : Bool :=
  let w := x.w
  let t := x.at dCap
  let q := x.desc (aQ w)
  let k := x.desc (aK w)
  let v := x.desc (aV w)
  let bats (i : Nat) : Bool := [2, 3, 4].all (fun n => decide (dCap q n ≤ dCap (x.desc i) n))
  let cov (i n e : Nat) : Bool := decide (e ≤ dCap (x.desc i) n)
  let outs :=
    if isBwd w then
      [iD0 w, iD2 w].all (fun i => cov i 1 t.lq && bats i) && cov (iD0 w) 0 t.d && cov (iD2 w) 0 t.dv && cov (iD3 w) 1 t.lq && bats (iD3 w)
      && cov (iD3 w) 0 2 && cov (iD0 w + 1) 0 t.d && cov (iD0 w + 1) 1 t.lk && cov (iD0 w + 2) 0 t.dv && cov (iD0 w + 2) 1 t.lk
      && bats (iD0 w + 1) && bats (iD0 w + 2)
      && (!readsO x.desc w || cov (iD0 w + 3) 0 t.dv && cov (iD0 w + 3) 1 t.lq && bats (iD0 w + 3))
    else cov (iD0 w) 1 t.lq && cov (iD0 w) 0 t.dv && bats (iD0 w)
      && (!wantStats w || cov (iD0 w + 1) 0 2 && cov (iD0 w + 1) 1 t.lq && bats (iD0 w + 1))
  decide (t.d ≤ dCap k 0) && decide (t.lk ≤ dCap v 1) && bats (aK w) && bats (aV w) && outs
  && (!selects w || dSpmode k == 2 && dSpblk k == 3 && cov x.idxK 1 (ceilDiv t.lq 64) && bats x.idxK)
  && decide ((if isBwd w then 3 + ceilDiv t.d 64 else 2 + ceilDiv t.dv 64) ≤ iNbob w + 1)

def specAttention (opc func : Nat) (streams : Strm → Bool) : OpSpec :=
  { specBase with
    opc := opc
    streams := streams
    legal := fun w => tOk ⟨true, true, true, true, true, true, false, func, immAll, false⟩ w
                      && (if opc = 0x102 then decide (iD1 w ≤ 509) && decide (iD0 w ≤ 509) else !wantStats w || decide (iD0 w ≤ 510))
    auxOk := fun t w => !readsO t w || decide (iD0 w ≤ 508)
    roles := fun t w =>
      [rRd (iD1 w) 1, rRd (iD2 w) 2, rRd (iD3 w) 3] ++ maskRole w
      ++ (if isBwd w then [rRd (iD1 w + 1) 6, rRd (iD1 w + 2) 6] ++ (if readsO t w then [rRd (iD0 w + 3) 6] else []) else [])
      ++ (if selects w then [rRd (dSpidx (t (aK w))) 5] else [])
      ++ [rWr (iD0 w) 0] ++ (if wantStats w then [rWr (iD0 w + 1) 6] else [])
      ++ (if isBwd w then [rRw (iD0 w + 1) 6, rRw (iD0 w + 2) 6] else [])
    bad := fun x =>
      let w := x.w
      let m (n : Nat) : Nat := dFmt (x.desc n)
      let qh (n : Nat) : Bool := fmQ8 (m n) || fmH (m n)
      let outs := if isBwd w then [iD0 w, iD0 w + 1, iD0 w + 2].all (fun n => fmHSC (m n)) && qh (iD2 w) && fmS (m (iD3 w))
                  else (fmQ8 (m (iD0 w)) || fmHS (m (iD0 w))) && (!wantStats w || fmS (m (iD0 w + 1)))
      dfsm (qh (aQ w) && qh (aK w) && qh (aV w) && outs && (!selects w || dSpmode (x.desc (aK w)) != 2 || fmI (m x.idxK)) && x.maskFmt) x.attShape
    zero := fun x =>
      let t := x.at dExt
      t.lq == 0 || t.d == 0 || t.lk == 0 || t.dv == 0 || t.bat.isEmpty
    block := fun x fs => bobsInUse fs (bobRange x.w)
    writes := fun _ => true
    run := fun x f => x.attStart x.c f }

def specAttn : OpSpec := specAttention 0x100 3 (fun s => s != .u)
def specAttnSel : OpSpec := specAttention 0x101 3 (fun s => s != .u)
def specAttnBwd : OpSpec := specAttention 0x102 5 (fun s => s == .b)

def execAttn (p : Place) (w : IWord) (s : State) : Outc := .next (s.issueAt specAttn p w 0)
def execAttnSel (p : Place) (w : IWord) (s : State) : Outc := .next (s.issueAt specAttnSel p w 0)
def execAttnBwd (p : Place) (w : IWord) (s : State) : Outc := .next (s.issueAt specAttnBwd p w 0)

end Sys2Proof.Machine
end

