-- ==== Sys2Proof/Machine/Code.lean ====
section
/-! DEFINITION. The codes of the manual: Reed-Solomon over GF(2^m) (R276, R277, R337), CRC-32 (R343), CRC-64 (R387), the
scrambler (R341). -/

namespace Sys2Proof.Machine

/-! ### GF(2^m) -/

/-- A field: m and its primitive polynomial with the leading term. -/
structure GF where
  m : Nat
  poly : Nat
deriving DecidableEq, Repr

/-- x^16 + x^12 + x^3 + x + 1 (R276). -/
def gf16 : GF := ⟨16, 0x1100B⟩

/-- x^10 + x^3 + 1, the field of IEEE 802.3 for RS-FEC (544,514) (R337). PRESUMED (log 23): the polynomial is the standard's. -/
def gf10 : GF := ⟨10, 0x409⟩

/-- a times b, from the top bit of b down. -/
def gfMulGo (g : GF) (a b : Nat) : Nat → Nat → Nat
  | 0, r => r
  | n + 1, r =>
    let r2 := 2 * r
    let r3 := if r2.testBit g.m then r2 ^^^ g.poly else r2
    gfMulGo g a b n (if b.testBit n then r3 ^^^ a else r3)

def gfMul (g : GF) (a b : Nat) : Nat := gfMulGo g a b g.m 0

/-- α^n by n steps of α = x. -/
def gfAlpha (g : GF) : Nat → Nat
  | 0 => 1
  | n + 1 => let r := 2 * gfAlpha g n; if r.testBit g.m then r ^^^ g.poly else r

def gfPowGo (g : GF) : Nat → Nat → Nat → Nat
  | 0, _, r => r
  | n + 1, b, r => gfPowGo g n (gfMul g b b) (gfMul g r b)

/-- The inverse: a^(2^m - 2). -/
def gfInv (g : GF) (a : Nat) : Nat := gfPowGo g (g.m - 1) (gfMul g a a) 1

/-- A polynomial's value; coefficients from x^0 up. -/
def gfEval (g : GF) (p : List Nat) (x : Nat) : Nat := p.reverse.foldl (fun r c => gfMul g r x ^^^ c) 0

/-- Sum of polynomials. -/
def polyAdd : List Nat → List Nat → List Nat
  | [], q => q
  | p, [] => p
  | a :: p, b :: q => (a ^^^ b) :: polyAdd p q

def polyScale (g : GF) (p : List Nat) (s : Nat) : List Nat := p.map (gfMul g s)

def polyMul (g : GF) : List Nat → List Nat → List Nat
  | [], _ => []
  | a :: p, q => polyAdd (polyScale g q a) (0 :: polyMul g p q)

/-! ### Reed-Solomon with roots α^0 to α^(r - 1) -/

/-- The generator polynomial, monic, from x^0 up. -/
def rsGen (g : GF) (r : Nat) : List Nat := (List.range r).foldl (fun p j => polyMul g p [gfAlpha g j, 1]) [1]

/-- The r check symbols of data symbols given from the highest power down, from x^0 up: the remainder by the generator. -/
def rsCheck (g : GF) (r : Nat) (dat : List Nat) : List Nat :=
  let gen := (rsGen g r).take r
  dat.foldl (fun rem d =>
    let top := nth 0 rem (r - 1) ^^^ d
    polyAdd ((0 :: rem).take r) (polyScale g gen top)) (List.replicate r 0)

/-- The syndromes of a received word, coefficients from x^0 up. -/
def rsSynd (g : GF) (r : Nat) (c : List Nat) : List Nat := (List.range r).map (fun j => gfEval g c (gfAlpha g j))

/-- State of the Berlekamp-Massey iteration. -/
structure BM where
  c : List Nat
  b : List Nat
  l : Nat
  m : Nat
  bb : Nat

def bmStep (g : GF) (s : List Nat) (q : BM) (n : Nat) : BM :=
  let d := (List.range q.l).foldl (fun d i => d ^^^ gfMul g (nth 0 q.c (i + 1)) (nth 0 s (n - (i + 1)))) (nth 0 s n)
  if d = 0 then { q with m := q.m + 1 }
  else
    let t := polyAdd q.c (List.replicate q.m 0 ++ polyScale g q.b (gfMul g d (gfInv g q.bb)))
    if 2 * q.l ≤ n then ⟨t, q.c, n + 1 - q.l, 1, d⟩ else { q with c := t, m := q.m + 1 }

/-- The decoder: the corrected word with the positions corrected, or none (R277, R338). -/
def rsDecode (g : GF) (r : Nat) (c : List Nat) : Option (List Nat × List Nat) :=
  let s := rsSynd g r c
  if s.all (· == 0) then some (c, [])
  else
    let q := (List.range r).foldl (bmStep g s) ⟨[1], [1], 0, 1, 1⟩
    let lam := q.c.take (q.l + 1)
    let locs := (List.range c.length).filter (fun i => gfEval g lam (gfInv g (gfAlpha g i)) == 0)
    if r / 2 < q.l ∨ locs.length ≠ q.l then none
    else
      let om := (polyMul g s lam).take r
      let dl := (List.range q.l).map (fun i => if i % 2 = 0 then nth 0 lam (i + 1) else 0)
      let fix := locs.foldl (fun c i =>
        let x := gfAlpha g i
        let y := gfInv g x
        let e := gfMul g x (gfMul g (gfEval g om y) (gfInv g (gfEval g dl y)))
        c.set i (nth 0 c i ^^^ e)) c
      if (rsSynd g r fix).all (· == 0) then some (fix, locs) else none

/-! ### RS(36,32) of memories and mesh links (R276) -/

/-- The 576-bit code word of a 512-bit word: check bits in the top 64. -/
def word36 (d : Nat) : Nat :=
  let ck := rsCheck gf16 4 ((List.range 32).map (fun k => bits d (16 * k) 16)).reverse
  d + ((List.range 4).foldl (fun x k => x + nth 0 ck k <<< (16 * k)) 0) <<< 512

/-- Decodes a 576-bit word as found: the data, and whether it is clean (0), corrected (1) or uncorrectable (2). -/
def dec36 (w : Nat) : Nat × Nat :=
  let d := (List.range 32).map (fun k => bits w (16 * k) 16)
  let ck := (List.range 4).map (fun k => bits w (512 + 16 * k) 16)
  match rsDecode gf16 4 (ck ++ d) with
  | none => (bits w 0 512, 2)
  | some (c, locs) => (((List.range 32).foldl (fun x k => x + nth 0 c (4 + k) <<< (16 * k)) 0), if locs.isEmpty then 0 else 1)

/-! ### RS(544,514) of the Yelli ports (R337, R338) -/

/-- The 5,440-bit code word of a 5,140-bit payload: symbol s in bits [10 s + 9 : 10 s]. -/
def enc544 (p : Nat) : Nat :=
  let ck := rsCheck gf10 30 ((List.range 514).map (fun s => bits p (10 * s) 10))
  p + ((List.range 30).foldl (fun x j => x + nth 0 ck (29 - j) <<< (10 * j)) 0) <<< 5140

/-- Decodes a code word as received: the payload and the symbols corrected, by their place in transmission, or none. -/
def dec544 (w : Nat) : Option (Nat × List Nat) :=
  let c := ((List.range 544).map (fun s => bits w (10 * s) 10)).reverse
  (rsDecode gf10 30 c).map (fun r =>
    let syms := r.1.reverse
    ((List.range 514).foldl (fun x s => x + nth 0 syms s <<< (10 * s)) 0, r.2.map (fun i => 543 - i)))

/-! ### Lanes (R337, R370) -/

/-- The Gray-coded level of a pair of bits, the higher bit the more significant (R337). -/
def gray (b : Nat) : Nat := b ^^^ (b / 2)

/-- The five unit intervals of a symbol, bits [1:0] first. -/
def symLevels (x : Nat) : List Nat := (List.range 5).map (fun u => gray (bits x (2 * u) 2))

/-- The levels of a code word on lane l: symbol k on lane k mod 8, or all of them on lane 0 of a narrow link. -/
def laneLevels (w : Nat) (narrow : Bool) (l : Nat) : List Nat :=
  ((List.range 544).filter (fun k => if narrow then l == 0 else k % 8 == l)).flatMap (fun k => symLevels (bits w (10 * k) 10))

/-- The 1/(1+D) precoding of IEEE 802.3: each level less the one sent before it, modulo 4 (PRESUMED: the standard's, log 23). -/
def precode : Nat → List Nat → List Nat
  | _, [] => []
  | p, g :: t => let q := (g + 4 - p) % 4; q :: precode q t

/-! ### CRCs -/

/-- One bit of a reflected CRC. -/
def crcBit (poly : Nat) (c : Nat) (b : Bool) : Nat := if (c.testBit 0) != b then (c / 2) ^^^ poly else c / 2

def crcByte (poly : Nat) (c : Nat) (x : BitVec 8) : Nat := (List.range 8).foldl (fun c i => crcBit poly c (x.toNat.testBit i)) c

/-- `foldl` over a number that is evaluated at every step, so that the kernel computes it in constant depth. -/
def foldNat (f : Nat → BitVec 8 → Nat) : Nat → List (BitVec 8) → Nat
  | c, [] => c
  | 0, x :: t => foldNat f (f 0 x) t
  | c + 1, x :: t => foldNat f (f (c + 1) x) t

/-- CRC-32 of IEEE 802.3: bits least significant first, initial value and final XOR all ones. -/
def crc32 (l : List (BitVec 8)) : Nat := foldNat (crcByte 0xEDB8_8320) 0xFFFF_FFFF l ^^^ 0xFFFF_FFFF

/-- CRC-64 of R387: the reflected ECMA-182 polynomial. -/
def crc64 (l : List (BitVec 8)) : Nat := foldNat (crcByte 0xC96C_5795_D787_0F42) (2 ^ 64 - 1) l ^^^ (2 ^ 64 - 1)

/-! ### The scrambler x^58 + x^39 + 1 (R341) -/

/-- Scrambles n bits of x, least significant first, from a state whose bit 0 is the bit sent last: bits sent, state. -/
def scramble : Nat → Nat → Nat → Nat → Nat × Nat
  | 0, _, st, out => (out, st)
  | n + 1, x, st, out =>
    let b := b2n (x.testBit 0 != (st.testBit 38 != st.testBit 57))
    let (o, s) := scramble n (x / 2) ((2 * st + b) % 2 ^ 58) out
    (2 * o + b, s)

/-- The inverse: the state holds the received bits. -/
def descramble : Nat → Nat → Nat → Nat → Nat × Nat
  | 0, _, st, out => (out, st)
  | n + 1, x, st, out =>
    let r := x % 2
    let b := b2n (x.testBit 0 != (st.testBit 38 != st.testBit 57))
    let (o, s) := descramble n (x / 2) ((2 * st + r) % 2 ^ 58) out
    (2 * o + b, s)

end Sys2Proof.Machine
end

