-- ==== Sys2Proof/Machine/Raw.lean ====
section
/-! DEFINITION. Reads of the tier and of LPDDR5X as they find the words: corrections, rewrites, uncorrectable words (R276 to R278, R282,
R287). -/

namespace Sys2Proof.Machine

open Sys2Proof

/-! ### Words as found (R276 to R278) -/

/-- The 64 bytes of an array word become what its read gives. -/
def Channel.putWord (c : Channel) (a d : Nat) : Channel :=
  let put : Channel := ((leBytes 64 d).zip (List.range 64)).foldl (fun c e => c.poke (a + e.2) e.1) c
  match c.row a with
  | .tier _ => put
  | .lp _ => put
  | _ => c

/-- Words of a list of raw words that lie in a range. -/
def rawsIn (raws : RawWords) (a n : Nat) : List (Nat × Nat) :=
  (raws.filter (fun e => decide (a ≤ e.1 ∧ e.1 + 64 ≤ a + n) && e.1 % 64 == 0)).map (fun e => (e.1, e.2.toNat))

/-- An array read decodes a word as it finds it: `fix` counts a correction, `bad` an uncorrectable word. -/
def Channel.rawRead (c : Channel) (fix : Channel → Channel) (bad : Channel → Nat → Channel) (e : Nat × Nat) : Channel :=
  let (d, st) := dec36 e.2
  let c1 := c.putWord e.1 d
  if st = 1 then fix { c1 with corr := if c1.corr.contains e.1 then c1.corr else c1.corr ++ [e.1] }
  else if st = 2 then bad c1 e.1
  else c1

/-- An uncorrectable tier word: counted, captured where no record stands, reported. -/
def Channel.tierBad (slice source : Nat) (c : Channel) (a : Nat) : Channel :=
  let c1 := c.count Reg.TIER_UCCNT 1
  let c2 := if c1.fld Reg.TIER_UCSTAT Fl.TIER_UCSTAT_VALID = 1 then c1
    else (c1.wr Reg.TIER_UCSTAT (1 + slice * 2 + source * 2 ^ 8)).wr Reg.TIER_UCADDR ((a - sliceBase slice) / 64)
  c2.raise (mkFault slice fcTierUncorr none source a)

def Channel.tierRead (c : Channel) (slice source a n : Nat) (raws : RawWords) : Channel :=
  (rawsIn raws a n).foldl (fun c e => c.rawRead (fun c => c.count Reg.TIER_CORR 1) (Channel.tierBad slice source) e) c

/-- An uncorrectable LPDDR5X word. -/
def Channel.memBad (source : Nat) (c : Channel) (a : Nat) : Channel :=
  let k := memCtrl (a - lpBase)
  let c1 := c.count (Reg.MEMC_UCCNT k) 1
  let c2 := if c1.fld (Reg.MEMC_UCSTAT k) Fl.MEMC_UCSTAT_VALID = 1 then c1
    else ((c1.wr (Reg.MEMC_UCSTAT k) (1 + source * 2)).setFld (Reg.MEMC_UCADDRL k) Fl.MEMC_UCADDRL_ADDR (bits a 6 26)).wr (Reg.MEMC_UCADDRH k) (bits a 32 16)
  c2.raise (mkFault (114 + k) fcMemUncorr none source a)

def Channel.memRaws (c : Channel) (source a n : Nat) (raws : RawWords) : Channel :=
  (rawsIn raws a n).foldl (fun c e => c.rawRead (fun c => c.count (Reg.MEMC_CORR (memCtrl (e.1 - lpBase))) 1) (Channel.memBad source) e) c

/-- The words of a range as a read by QSEQ finds them: the decoded bytes, corrections and faults, and whether a word was uncorrectable
(R85, R278, R456). -/
def Channel.readRaws (c : Channel) (a n : Nat) (raws : RawWords) : Channel × Bool :=
  let bad := (rawsIn raws a n).any (fun e => (dec36 e.2).2 == 2)
  match c.row a with
  | .tier o => (c.tierRead (o / 0x280_0000) 1 a n raws, bad)
  | .lp _ => (c.memRaws 0 a n raws, bad)
  | _ => (c, false)

end Sys2Proof.Machine
end

