-- ==== Sys2Proof/Machine/Link.lean ====
section
/-! DEFINITION. Yelli ports: packets, codewords, credit, retry, routing, windows, remote writes (R336 to R372). -/

namespace Sys2Proof.Machine

open Sys2Proof

/-- Appends to what leaves the channel. -/
def Channel.emit (c : Channel) (o : Out) : Channel := { c with out := o :: c.out }

/-- A BARRIER message (R65, R122). -/
def barrierMsg (dst src kind ctx tack value : Nat) : CMsg :=
  .barrier (BitVec.ofNat 32 (3 * 2 ^ 29 + dst * 2 ^ 22 + src * 2 ^ 15 + 2 ^ 13 + kind * 2 ^ 10 + ctx * 2 ^ 6 + tack)) (BitVec.ofNat 32 value)

end Sys2Proof.Machine

namespace Sys2Proof

open Sys2Proof.Machine

/-! ### Packets (R343, R344) -/

/-- A field of the header: byte offset, bits. -/
def Pkt.fld (p : Pkt) (byte w : Nat) : Nat := bits p.hdr.toNat (8 * byte) w
def Pkt.ptype (p : Pkt) : Nat := p.fld 0 4
def Pkt.vc (p : Pkt) : Nat := bits p.hdr.toNat 4 3
def Pkt.len (p : Pkt) : Nat := p.fld 1 8
def Pkt.dst (p : Pkt) : Nat := p.fld 2 16
def Pkt.src (p : Pkt) : Nat := p.fld 4 16
def Pkt.hops (p : Pkt) : Nat := p.fld 7 8
def Pkt.tag (p : Pkt) : Nat := p.fld 8 16
def Pkt.win (p : Pkt) : Nat := p.fld 0xA 8
def Pkt.flags (p : Pkt) : Nat := p.fld 0xB 8
def Pkt.offset (p : Pkt) : Nat := p.fld 0x10 64
def Pkt.ecrc (p : Pkt) : Nat := p.fld 0x18 32
def Pkt.lastp (p : Pkt) : Bool := bit p.flags 4
def Pkt.status (p : Pkt) : Nat := bits p.flags 5 3

/-- A packet with a header field replaced. -/
def Pkt.setFld (p : Pkt) (lo w v : Nat) : Pkt := { p with hdr := BitVec.ofNat 512 (setBits p.hdr.toNat lo w v) }

def slotBytes (s : BitVec 512) : List Byte := leBytes 64 s.toNat

/-- The ECRC that a packet should carry (R343). -/
def Pkt.crc (p : Pkt) : Nat :=
  let h := slotBytes (BitVec.ofNat 512 (setBits p.hdr.toNat 56 8 0))
  crc32 (h.take 0x18 ++ h.drop 0x1C ++ p.data.flatMap slotBytes)

def Pkt.seal (p : Pkt) : Pkt := p.setFld (8 * 0x18) 32 p.crc

def Pkt.crcOk (p : Pkt) : Bool := p.ecrc == p.crc

/-- A packet made here. `spec` is the 36 type-specific bytes as a number. -/
def mkPkt (ptype vc dst src tag win flags offset spec : Nat) (data : List (BitVec 512)) : Pkt :=
  Pkt.seal ⟨BitVec.ofNat 512 (ptype + vc * 16 + data.length * 2 ^ 8 + dst * 2 ^ 16 + src * 2 ^ 32 + tag * 2 ^ 64 + win * 2 ^ 80
    + flags * 2 ^ 88 + offset * 2 ^ 128 + spec * 2 ^ 224), data⟩

/-- The IDLE packet. -/
def idlePkt : Pkt := mkPkt 0 0 0 0 0 0 0 0 0 []

/-- A change of the header's first byte in transit, with the ECRC moved along with it (R358; log 24). -/
def Pkt.reVc (p : Pkt) (v : Nat) : Pkt :=
  let q := p.setFld 4 3 v
  q.setFld (8 * 0x18) 32 (p.ecrc ^^^ p.crc ^^^ q.crc)

/-- The slots of a packet with their header marks. -/
def Pkt.slots (p : Pkt) : List (Bool × BitVec 512) := (true, p.hdr) :: p.data.map (fun d => (false, d))

/-- Types that carry data. -/
def ptHasData (t : Nat) : Bool := t == 1 || t == 3 || t == 5

/-- Whether a received packet is discarded under R344, R351 or R385. -/
def Pkt.bad (p : Pkt) : Bool :=
  let t := p.ptype
  decide (9 ≤ t) || decide (32 < p.len) || p.len != 0 && !ptHasData t
  || (if t = 1 then decide (1 < p.vc) else if t = 2 then p.vc != 2 && p.vc != 3 else if t = 3 then p.vc != 0 else p.vc != 4)
  || decide (4 ≤ t) && !p.crcOk || t == 3 && decide (6 ≤ p.fld 0x1C 8) || t == 6 && decide (2 ≤ p.fld 0x1C 8)

end Sys2Proof

namespace Sys2Proof.Machine

open Sys2Proof

/-- Splits bytes, given as a number of n bytes, into slots. -/
def slotsOf (x n : Nat) : List (BitVec 512) := (List.range (ceilDiv n 64)).map (fun j => BitVec.ofNat 512 (x >>> (512 * j)))

/-! ### Ports -/

def Channel.port (c : Channel) (k : Nat) : YPort := mget (fun _ => YPort.reset) c.yl.ports k
def Channel.setPort (c : Channel) (k : Nat) (y : YPort) : Channel :=
  { c with yl := { c.yl with ports := mset (fun _ => YPort.reset) c.yl.ports k y } }

/-- Port states (R355). -/
def psDisabled : Nat := 0
def psTraining : Nat := 1
def psActive : Nat := 2
def psRetrain : Nat := 3
def psDown : Nat := 4
def psLost : Nat := 5
def psMiswired : Nat := 6

def Channel.pstate (c : Channel) (k : Nat) : Nat := c.fld (Reg.YLP_STAT k) Fl.YLP_STAT_STATE
def Channel.setPstate (c : Channel) (k v : Nat) : Channel := c.setFld (Reg.YLP_STAT k) Fl.YLP_STAT_STATE v

/-- The channel's own coordinates as R343 lays them out (R356). -/
def Channel.coord (c : Channel) : Nat := bits (c.rd Reg.YL_COORD) 2 11 * 4 + c.num
def cx (a : Nat) : Nat := bits a 0 2
def cy (a : Nat) : Nat := bits a 2 5
def cz (a : Nat) : Nat := bits a 7 6
def coordOf (x y z : Nat) : Nat := x + y * 4 + z * 128

/-- Ring sizes in X, Y, Z; 0 acts as 1 (R356). -/
def Channel.ring (c : Channel) (d : Nat) : Nat :=
  match d with
  | 0 => 4
  | 1 => max 1 (c.fld Reg.YL_COORD Fl.YL_COORD_DY)
  | _ => max 1 (c.fld Reg.YL_COORD Fl.YL_COORD_DZ)

/-- A channel's coordinate in dimension d. -/
def coordDim (a d : Nat) : Nat :=
  match d with
  | 0 => cx a
  | 1 => cy a
  | _ => cz a

def setDim (a d v : Nat) : Nat :=
  match d with
  | 0 => coordOf v (cy a) (cz a)
  | 1 => coordOf (cx a) v (cz a)
  | _ => coordOf (cx a) (cy a) v

/-- The neighbour of a port (R356). -/
def Channel.neighbour (c : Channel) (k : Nat) : Nat :=
  let d := k / 2
  let n := c.ring d
  let v := coordDim c.coord d
  setDim c.coord d (if k % 2 = 0 then (v + n - 1) % n else (v + 1) % n)

/-- A fault of a port (R453, R521). -/
def Channel.portFault (c : Channel) (k code : Nat) : Channel :=
  c.raise (mkFault (108 + k) code none (k + c.fld (Reg.YLP_PARTNER k) Fl.YLP_PARTNER_COORD * 8) (c.rd (Reg.YLP_STAT k)))

/-! ### Transmission (R340, R346, R347, R349) -/

/-- Receive-buffer slots of a VC (R345). -/
def vcSlots (v : Nat) : Nat :=
  match v with
  | 0 => 4096
  | 1 => 4096
  | 2 => 256
  | 3 => 256
  | _ => 64

/-- Whether the port holds credit for n slots on a VC (R346). -/
def YPort.credit (y : YPort) (v n : Nat) : Bool :=
  decide ((nth 0 y.sent v + 2 ^ 16 - nth 0 y.cred v) % 2 ^ 16 + n ≤ vcSlots v)

/-- The VC whose oldest packet goes next (R347). -/
def YPort.nextVc (y : YPort) (only : Pkt → Bool) : Option (Nat × Pkt) :=
  (([4] ++ (if y.altRsp then [3, 2] else [2, 3]) ++ (if y.altReq then [1, 0] else [0, 1])) : List Nat).findSome? (fun (v : Nat) =>
    match y.txq.find? (fun (e : Nat × Pkt) => e.1 == v && only e.2) with
    | some e => if y.credit v (1 + e.2.data.length) then some e else none
    | none => none)

/-- Takes packets for sending while the retry buffer has room for their codewords. -/
def YPort.takeGo (only : Pkt → Bool) : Nat → YPort → List (Bool × BitVec 512) → YPort × List (Bool × BitVec 512)
  | 0, y, s => (y, s)
  | n + 1, y, s =>
    match y.nextVc only with
    | none => (y, s)
    | some (v, p) =>
      let s1 := s ++ p.slots
      if 512 < y.kept.length + ceilDiv s1.length 10 then (y, s)
      else
        YPort.takeGo only n { y with
          txq := eraseFirst (v, p) y.txq
          sent := y.sent.set v ((nth 0 y.sent v + 1 + p.data.length) % 2 ^ 16)
          altRsp := if v = 2 then true else if v = 3 then false else y.altRsp
          altReq := if v = 0 then true else if v = 1 then false else y.altReq } s1

/-- Cuts slots into codewords of ten, filled with IDLE packets. -/
def cutCws (seq : Nat) (s : List (Bool × BitVec 512)) : List Cw :=
  (List.range (ceilDiv s.length 10)).map (fun j =>
    let t := (s.drop (10 * j)).take 10
    let t := t ++ List.replicate (10 - t.length) (true, idlePkt.hdr)
    ⟨(seq + j) % 1024, (List.range 10).foldl (fun m i => m + b2n (nth (false, 0) t i).1 * 2 ^ i) 0, t.map (·.2)⟩)

/-- A data codeword as it is encoded: slot bits scrambled first (R337, R340, R341). -/
def YPort.sendCw (y : YPort) (w : Cw) : YPort × BitVec 5440 :=
  let raw := (List.range 10).foldl (fun x j => x + (nth 0 w.slots j).toNat <<< (512 * j)) 0
  let (o, st) := scramble 5120 raw y.scr 0
  ({ y with scr := st }, BitVec.ofNat 5440 (enc544 (w.hmask + w.seq <<< 10 + o <<< 20)))

/-- A codeword on the eight lanes, each precoded where training decided so (R337). -/
def YPort.onLanes (y : YPort) (narrow : Bool) (cw : Nat) : YPort × List (List Nat) :=
  let ls := (List.range 8).map (fun l => let g := laneLevels cw narrow l; if bit y.pre l then precode (nth 0 y.lev l) g else g)
  ({ y with lev := (List.range 8).map (fun l => (nth [] ls l).getLastD (nth 0 y.lev l)) }, ls)

/-- A codeword leaves port k. -/
def Channel.emitCw (c : Channel) (k : Nat) (marker : Bool) (cw : BitVec 5440) : Channel :=
  let (y, ls) := (c.port k).onLanes (c.fld (Reg.YLP_STAT k) Fl.YLP_STAT_NARROW == 1) cw.toNat
  (c.setPort k y).emit (.codeword c.num k marker cw ls)

/-- Sends codewords on port k. -/
def Channel.sendCws (c : Channel) (k : Nat) (ws : List Cw) : Channel :=
  ws.foldl (fun c w =>
    let (y, o) := (c.port k).sendCw w
    (c.setPort k y).emitCw k false o) c

/-- Sends what port k can send in its state. -/
def Channel.pumpPort (c : Channel) (k : Nat) : Channel :=
  let st := c.pstate k
  if st = psActive ∨ st = psMiswired then
    let y := c.port k
    let (y1, s) := YPort.takeGo (fun p => st == psActive || p.ptype == 4) y.txq.length y []
    let ws := cutCws y1.txSeq s
    (c.setPort k { y1 with txSeq := (y1.txSeq + ws.length) % 1024, kept := y1.kept ++ ws }).sendCws k ws
  else c

/-- Queues a packet on a port. -/
def Channel.sendPkt (c : Channel) (k vc : Nat) (p : Pkt) : Channel :=
  let y := c.port k
  (c.setPort k { y with txq := y.txq ++ [(vc, p)] }).pumpPort k

/-- Resends the kept codewords, if there are any (R349). -/
def Channel.resend (c : Channel) (k : Nat) : Channel :=
  let ws := (c.port k).kept
  if ws.isEmpty then c else ((c.count (Reg.YLP_REPLAY k) 1).count (Reg.YLP_REPCW k) ws.length).sendCws k ws

/-- A retrain begins (R350). -/
def Channel.retrain (c : Channel) (k : Nat) : Channel :=
  ((c.setPstate k psRetrain).count (Reg.YLP_RETRAIN k) 1).setPort k { c.port k with naks := (0, 0), unc := [], missed := 0 }

/-! ### Reception (R340, R344, R349) -/

def YPort.free (y : YPort) (v n : Nat) : YPort := { y with freed := y.freed.set v ((nth 0 y.freed v + n) % 2 ^ 16) }

/-- A whole packet has arrived: one more link crossed, then discarded, or kept in its VC's buffer. -/
def Channel.rxPacket (c : Channel) (k : Nat) (p : Pkt) : Channel :=
  if p.ptype = 0 then (if p.len = 0 then c else c.count (Reg.YLP_BAD k) 1)
  else
    let q := p.setFld 56 8 (min 255 (p.hops + 1))
    let y := c.port k
    let c3 := c.fld Reg.PWR_STATUS Fl.PWR_STATUS_STATE = 3
    if q.bad ∨ (q.ptype = 3 ∧ c3) then (c.setPort k (y.free q.vc (1 + q.len))).count (Reg.YLP_BAD k) 1
    else c.setPort k { y with rxq := y.rxq ++ [(q.vc, q)] }

/-- One slot of an accepted codeword. -/
def Channel.rxSlot (c : Channel) (k : Nat) (h : Bool) (d : BitVec 512) : Channel :=
  let y := c.port k
  if h then
    let p : Pkt := ⟨d, []⟩
    let c1 := if y.asm.isSome then c.count (Reg.YLP_BAD k) 1 else c
    if p.len = 0 ∨ 32 < p.len then (c1.setPort k { y with asm := none }).rxPacket k p
    else c1.setPort k { y with asm := some (p, p.len) }
  else
    match y.asm with
    | none => c
    | some (p, n) =>
      let q : Pkt := { p with data := p.data ++ [d] }
      if n ≤ 1 then (c.setPort k { y with asm := none }).rxPacket k q
      else c.setPort k { y with asm := some (q, n - 1) }

/-- An uncorrectable codeword: 64 of them within 1 ms make the port retrain (R350). -/
def Channel.noteUnc (c : Channel) (k : Nat) : Channel :=
  let y := c.port k
  let l := (c.ts :: y.unc).take 64
  let c1 := (c.count (Reg.YLP_FECUNC k) 1).setPort k { y with unc := l }
  match l[63]? with
  | some t => if c1.usSince t < 1000 then c1.retrain k else c1
  | none => c1

/-- Counts of a corrected codeword (R338). -/
def Channel.noteFec (c : Channel) (k : Nat) (syms : List Nat) : Channel :=
  if syms.isEmpty then c
  else
    let s := c.rd (Reg.YLP_STAT k)
    syms.foldl (fun c i =>
      let l := if bit s 4 then 0 else if bit s 5 then 7 - i % 8 else i % 8
      c.count (Reg.YLP_LSYM k l) 1) (c.count (Reg.YLP_FECCW k) 1)

/-- The data codeword's discard: the gap is remembered until the expected SEQ arrives (R349). -/
def YPort.open_gap (y : YPort) : YPort := if y.gap then y else { y with gap := true, sinceNak := 0 }

/-- A data codeword as received. The descrambler runs over the slot bits of every one, as they came where it cannot be corrected. -/
def Channel.rxData (c : Channel) (k : Nat) (w : Nat) : Channel :=
  match dec544 w with
  | none =>
    let y := c.port k
    (c.setPort k ({ y with dsc := (descramble 5120 (bits w 20 5120) y.dsc 0).2 }.open_gap)).noteUnc k
  | some (p, syms) =>
    let c := c.noteFec k syms
    let y := c.port k
    let (raw, st) := descramble 5120 (p >>> 20) y.dsc 0
    let y := { y with dsc := st }
    if bits p 10 10 ≠ y.rxSeq then c.setPort k y.open_gap
    else
      (List.range 10).foldl (fun c s => c.rxSlot k (bit p s) (BitVec.ofNat 512 (raw >>> (512 * s))))
        (c.setPort k { y with rxSeq := (y.rxSeq + 1) % 1024, gap := false })

/-- A marker as received: ACK, NAK, credit (R340, R346, R349, R350). The fourth in a row that is none loses the lock (R341). -/
def Channel.rxMarker (c : Channel) (k : Nat) (w : Nat) : Channel :=
  match dec544 w with
  | none =>
    let c1 := (c.setPort k { c.port k with missed := (c.port k).missed + 1 }).noteUnc k
    if 4 ≤ (c1.port k).missed then c1.retrain k else c1
  | some (p, syms) =>
    let c := c.noteFec k syms
    let y := c.port k
    let ack := bits p 80 10
    let at_ := y.kept.findIdx? (fun e => e.seq == ack)
    let kept := match at_ with
      | some i => y.kept.drop i
      | none => if ack = y.txSeq then [] else y.kept
    let y := { y with kept := kept, missed := 0, cred := (List.range 5).map (fun v => bits p (96 + 16 * v) 16) }
    if bit p 90 then
      let n : Nat := if y.naks.1 = ack then y.naks.2 + 1 else 1
      let c1 := c.setPort k { y with naks := (ack, n) }
      if 8 ≤ n then c1.retrain k else (c1.resend k).pumpPort k
    else (c.setPort k y).pumpPort k

/-- The marker that a port sends (R340, R349). -/
def Channel.txMarker (c : Channel) (k : Nat) : Channel :=
  let y := c.port k
  let nak := y.gap && y.sinceNak % 4 == 0
  let p := (List.range 8).foldl (fun x l => x + (0x3C0 + l) <<< (10 * l)) 0 + y.rxSeq <<< 80 + b2n nak <<< 90
    + (List.range 5).foldl (fun x v => x + nth 0 y.freed v <<< (96 + 16 * v)) 0 + y.mcount <<< 176
  (c.setPort k { y with mcount := (y.mcount + 1) % 2 ^ 16, sinceNak := if y.gap then y.sinceNak + 1 else 0 }).emitCw k true
    (BitVec.ofNat 5440 (enc544 p))

/-- A packet leaves the receive buffer of port k, if it lies there; its slots are freed (R346). -/
def Channel.takeRx (c : Channel) (k : Nat) (p : Pkt) : Channel :=
  let y := c.port k
  if (p.vc, p) ∈ y.rxq then c.setPort k ({ y with rxq := eraseFirst (p.vc, p) y.rxq }.free p.vc (1 + p.data.length)) else c

/-! ### Routing (R357 to R361) -/

/-- The reset entry: LOCAL at the channel's own index, else UNREACH. -/
def rtDefault (own k : Nat) : Nat := if k = own then 6 else 7

def Channel.rtGen (c : Channel) : Bool := c.fld Reg.YL_RCTRL Fl.YL_RCTRL_GEN == 1

/-- An entry of generation g. -/
def Channel.rtEntry (c : Channel) (g : Bool) (i : Nat) : Nat := mget (rtDefault c.num) (if g then c.yl.rt1 else c.yl.rt0) i

def Channel.setRtEntry (c : Channel) (g : Bool) (i v : Nat) : Channel :=
  if g then { c with yl := { c.yl with rt1 := mset (rtDefault c.num) c.yl.rt1 i v } }
  else { c with yl := { c.yl with rt0 := mset (rtDefault c.num) c.yl.rt0 i v } }

/-- default_entry of R359. -/
def Channel.defaultEntry (c : Channel) (d : Nat) : Nat :=
  match [2, 1, 0].find? (fun k => coordDim d k != coordDim c.coord k) with
  | none => 6
  | some k =>
    let n := c.ring k
    let me := coordDim c.coord k
    let fwd := (coordDim d k + n - me % n) % n
    if fwd ≤ n - fwd then 2 * k + 1 + 8 * b2n (me == n - 1) else 2 * k + 8 * b2n (me == 0)

/-- What a lookup answers. -/
inductive Look where
  | port (k : Nat) (dl : Bool)
  | here
  | wait
  | none
deriving DecidableEq, Repr

/-- The lookup of a destination (R358, R361). -/
def Channel.look (c : Channel) (dst : Nat) : Look :=
  if dst = c.coord then .here
  else
    let e := c.rtEntry c.rtGen (dst % 2 ^ 13)
    let k := e % 8
    if k ≤ 5 then (if c.pstate k = psActive then .port k (bit e 3) else .none)
    else if k = 6 then .here
    else if c.rtEntry (!c.rtGen) (dst % 2 ^ 13) % 8 ≤ 5 ∧ c.fld Reg.YL_RCTRL Fl.YL_RCTRL_WAIT_US ≠ 0 then .wait
    else .none

/-- The VC on the way out (R358). -/
def outVc (vc : Nat) (inp : Option Nat) (out : Nat) (dl : Bool) : Nat :=
  let pair := vc / 2 * 2
  if dl then pair + 1
  else
    match inp with
    | none => pair
    | some i => if i / 2 = out / 2 then vc else pair

/-- A WRESP that has come home updates its request (R365, R367). -/
def Channel.takeResp (c : Channel) (p : Pkt) : Channel :=
  let hit (r : RwReq) : Bool := r.tag == p.tag && r.dst == p.src && r.open_.contains p.offset
  let c1 := if p.status = 0 then c else if p.status = 1 then c.count Reg.YL_WCLOSEDRX 1 else c.count Reg.YL_NAKRX 1
  match c.yl.reqs.findIdx? hit with
  | none => c1
  | some i =>
    { c1 with yl := { c1.yl with reqs := c1.yl.reqs.modify i (fun r =>
      { r with
        open_ := eraseFirst p.offset r.open_
        bad := if p.status = 0 then r.bad
               else match r.bad with
                 | some (o, s) => if p.offset < o then some (p.offset, p.status) else some (o, s)
                 | none => some (p.offset, p.status) }) } }

/-- Whether an earlier packet of the same port and VC waits for a swap. -/
def Channel.blockedBy (c : Channel) (inp : Option Nat) (vc : Nat) : Bool :=
  c.yl.waits.any (fun w => w.inp == inp && inp.isSome && w.pkt.vc == vc)

/-- A packet's slots in the receive buffer of the port it came by: freed, or, with `back`, taken again. -/
def Channel.freeAt (c : Channel) (inp : Option Nat) (p : Pkt) (back : Bool) : Channel :=
  let n := (1 + p.data.length) % 2 ^ 16
  match inp with
  | some k => c.setPort k ((c.port k).free p.vc (if back then 2 ^ 16 - n else n))
  | none => c

/-- A lookup waits; the packet keeps its slots (R346, R361). -/
def Channel.addWait (c : Channel) (inp : Option Nat) (p : Pkt) : Channel :=
  let c1 := c.freeAt inp p true
  { c1 with yl := { c1.yl with waits := c1.yl.waits ++ [⟨inp, p, c.ts, inp.isSome⟩] } }

/-- A packet whose lookup waited leaves the buffer. -/
def Channel.endWait (c : Channel) (w : RtWait) : Channel := if w.held then c.freeAt w.inp w.pkt false else c

/-- Looks a WRESP up and sends it on; it is discarded where it cannot be routed (R358, R361). -/
def Channel.routeResp (c : Channel) (inp : Option Nat) (p : Pkt) : Channel :=
  if c.blockedBy inp p.vc then c.addWait inp p
  else
    match c.look p.dst with
    | .here => c.takeResp p
    | .port k dl => let v := outVc p.vc inp k dl; c.sendPkt k v (p.reVc v)
    | .wait => c.addWait inp p
    | .none => c.count Reg.YL_NOROUTE 1

/-- The WRESP to a WRITE. -/
def Channel.respTo (c : Channel) (p : Pkt) (status : Nat) : Pkt :=
  mkPkt 2 2 p.src c.coord p.tag p.win (bits p.flags 0 5 + status * 32) p.offset 0 []

/-- A packet that cannot be routed (R361). -/
def Channel.noRoute (c : Channel) (p : Pkt) : Channel :=
  let c1 := c.count Reg.YL_NOROUTE 1
  if p.ptype = 1 then c1.routeResp none (c.respTo p 4) else c1

/-! ### Windows (R363 to R368) -/

def Channel.winBase (c : Channel) (n : Nat) : Nat :=
  c.fld (Reg.YLW_BASEL n) Fl.YLW_BASEL_ADDR * 64 + c.fld (Reg.YLW_BASEH n) Fl.YLW_BASEH_ADDR * 2 ^ 32
def Channel.winSize (c : Channel) (n : Nat) : Nat := c.fld (Reg.YLW_SIZE n) Fl.YLW_SIZE_SIZE * 4096
def Channel.winOpen (c : Channel) (n : Nat) : Bool := c.fld (Reg.YLW_CTRL n) Fl.YLW_CTRL_OPEN == 1
def Channel.winCtx (c : Channel) (n : Nat) : Nat := c.fld (Reg.YLW_CTRL n) Fl.YLW_CTRL_CTX

/-- The core in whose scratchpad a window lies. -/
def Channel.winSite (c : Channel) (n : Nat) : Option Nat :=
  match c.row (c.winBase n) with
  | .spad i _ => some i
  | _ => none

/-- Whether a window may open (R363). -/
def Channel.winOk (c : Channel) (n : Nat) : Bool :=
  let lo := c.winBase n
  let sz := c.winSize n
  let hi := lo + sz - 1
  decide (1 ≤ sz) &&
  (match c.row lo, c.row hi with
   | .spad i _, .spad j _ => i == j && (c.core i).owner == some (c.winCtx n)
   | .tier _, .tier _ => true
   | .lp _, .lp _ => true
   | .flash _, .flash _ => true
   | _, _ => false)

/-- Closes a window; what it has accepted is stored already (R366). -/
def Channel.winClose (c : Channel) (n : Nat) : Channel := c.setFld (Reg.YLW_CTRL n) Fl.YLW_CTRL_OPEN 0

/-- Closes the windows that `p` picks. -/
def Channel.winCloseAll (c : Channel) (p : Nat → Bool) : Channel :=
  (List.range 64).foldl (fun c n => if c.winOpen n && p n then c.winClose n else c) c

/-- The checks of R364 on a WRITE for this channel, in order: the status, and the channel with its counts and faults. -/
def Channel.winCheck (c : Channel) (k : Nat) (p : Pkt) : Channel × Nat :=
  let n := p.win
  if !p.crcOk then ((c.count Reg.YL_ECRC 1).portFault k fcYlEcrc, 5)
  else if 64 ≤ n then (c, 1)
  else if !c.winOpen n then (c.count (Reg.YLW_WDROP n) 1, 1)
  else if c.fld (Reg.YLW_CTRL n) Fl.YLW_CTRL_ACCEPT = 1 ∧ p.src ≠ c.fld (Reg.YLW_SRC n) Fl.YLW_SRC_COORD then (c, 3)
  else if c.winSize n < p.offset + p.data.length * 64 then (c, 2)
  else (c, 0)

/-- Whether the memory of its window holds a WRITE back (R290, R291, R293, R364). -/
def Channel.winHeld (c : Channel) (k : Nat) (p : Pkt) : Bool :=
  (c.winCheck k p).2 == 0 && !p.data.isEmpty && c.accHeld (c.winBase p.win + p.offset) (p.data.length * 64) true

/-- A WRITE at its destination: stored, with what its memory counts, and answered; with NOTIFY the last one that stores something signals
(R364, R368; log 171). -/
def Channel.takeWrite (c : Channel) (k : Nat) (p : Pkt) : Channel :=
  let (c1, s) := c.winCheck k p
  let n := p.win
  let c2 :=
    if s ≠ 0 then c1
    else
      let a := c1.winBase n + p.offset
      let l := p.data.flatMap slotBytes
      let c3 := (((if l.isEmpty then c1 else c1.accWr a l.length false).st a false l).count (Reg.YLW_WRITES n) 1)
      let f := c3.fld (Reg.YLW_CTRL n)
      if p.lastp ∧ !l.isEmpty ∧ f Fl.YLW_CTRL_NOTIFY = 1 then
        { c3 with cmsgs := c3.cmsgs ++ [barrierMsg (f Fl.YLW_CTRL_SITE) (108 + k) 0 (f Fl.YLW_CTRL_CTX) (f Fl.YLW_CTRL_TACK) 1] }
      else c3
  c2.routeResp none (c.respTo p s)

/-- Looks up and sends on, or delivers, a WRITE or WRESP. `inp` is the port it came by, none where it is injected here. -/
def Channel.routePkt (c : Channel) (inp : Option Nat) (p : Pkt) : Channel :=
  if p.ptype = 2 then c.routeResp inp p
  else if c.blockedBy inp p.vc then c.addWait inp p
  else
    match c.look p.dst with
    | .here => c.takeWrite (inp.getD 0) p
    | .port k dl => let v := outVc p.vc inp k dl; c.sendPkt k v (p.reVc v)
    | .wait => c.addWait inp p
    | .none => c.noRoute p

/-- Looks up again every packet that waits, in order (R361). -/
def Channel.retryWaits (c : Channel) : Channel :=
  c.yl.waits.foldl (fun c w => (c.endWait w).routePkt w.inp w.pkt) { c with yl := { c.yl with waits := [] } }

/-! ### The remote-write unit (R367) -/

/-- The next packet of a request. -/
def Channel.rwPkt (c : Channel) (r : RwReq) : Pkt :=
  let n := min 2048 (r.len - r.pos)
  mkPkt 1 0 r.dst c.coord r.tag r.win (r.ctx + 16 * b2n (decide (r.len ≤ r.pos + n))) (r.offset + r.pos) 0
    (slotsOf (c.ldN (r.src + r.pos) n) n)

/-- Whether the unit may inject for a destination: no packet of its class waits at the port. -/
def Channel.rwRoom (c : Channel) (dst : Nat) : Bool :=
  match c.look dst with
  | .port k _ => !(c.port k).txq.any (fun e => decide (e.1 ≤ 1))
  | .wait => !c.yl.waits.any (fun w => w.inp.isNone)
  | _ => true

/-- Sends packets of request i while there is room. -/
def Channel.rwGo (i : Nat) : Nat → Channel → Channel
  | 0, c => c
  | n + 1, c =>
    match c.yl.reqs[i]? with
    | none => c
    | some r =>
      if r.sentAll ∨ r.bad.isSome ∨ !c.rwRoom r.dst then c
      else
        let p := c.rwPkt r
        let m := p.data.length * 64
        let r1 := { r with pos := r.pos + m, sentAll := p.lastp, open_ := r.open_ ++ [p.offset] }
        Channel.rwGo i n ({ c with yl := { c.yl with reqs := c.yl.reqs.set i r1 } }.routePkt none p)

/-- Sends packets of every request. -/
def Channel.rwPump (c : Channel) : Channel :=
  (List.range c.yl.reqs.length).foldl (fun c i =>
    match c.yl.reqs[i]? with
    | none => c
    | some r => Channel.rwGo i (r.len / 2048 + 1) c) c

def RwReq.over (r : RwReq) : Bool := r.open_.isEmpty && (r.sentAll || r.bad.isSome)
def RwReq.status (r : RwReq) : Nat := match r.bad with | some b => b.2 | none => 0

/-- A request from its 32-byte record (R367). -/
def Channel.rwRecord (c : Channel) (a : Nat) (owner : RwOwner) : RwReq :=
  { owner := owner, src := c.ldN a 8, len := c.ldN (a + 8) 4, dst := c.ldN (a + 0xC) 2, win := c.ldN (a + 0xE) 1,
    ctx := c.ldN (a + 0xF) 1 % 16, offset := c.ldN (a + 0x10) 8, tag := c.ldN (a + 0x18) 2, pos := 0, sentAll := false, open_ := [],
    bad := none }

/-! ### Port states (R353, R355) -/

/-- A port enters DOWN, LOST or MISWIRED: what it kept and queued is discarded, queued WRITEs are answered (R355). -/
def Channel.portDead (c : Channel) (k st : Nat) : Channel :=
  let y := c.port k
  let c1 := (c.setPort k { y with kept := [], txq := [], asm := none }).setPstate k st
  (y.txq.filter (fun e => e.2.ptype == 1)).foldl (fun c e => c.noRoute e.2) c1

/-- A port starts afresh; what came by it and still waits no longer counts in its buffer. -/
def Channel.portClear (c : Channel) (k : Nat) : Channel :=
  let c1 := c.setPort k YPort.reset
  { c1 with yl := { c1.yl with waits := c1.yl.waits.map (fun (w : RtWait) => if w.inp = some k then { w with held := false } else w) } }

/-- A port starts training from scratch. -/
def Channel.portTrain (c : Channel) (k : Nat) : Channel :=
  ((c.portClear k).setPstate k psTraining).setFld (Reg.YLP_PARTNER k) Fl.YLP_PARTNER_VALID 0

/-- The PICOT that a port sends (R352). -/
def Channel.picot (c : Channel) (k : Nat) (rinsing : Bool) : Pkt :=
  let co := c.rd Reg.YL_COORD
  mkPkt 4 4 (c.neighbour k) c.coord 0 0 0 0
    (c.fld Reg.YL_SYSID Fl.YL_SYSID_SYSID + k * 2 ^ 16 + (c.fld Reg.PWR_STATUS Fl.PWR_STATUS_STATE % 8 + 8 * b2n rinsing) * 2 ^ 24
     + (c.ts % 2 ^ 64) * 2 ^ 32 + bits co 13 6 * 2 ^ 96 + bits co 19 7 * 2 ^ 104) []

/-- The opposite port (R353). -/
def oppPort (k : Nat) : Nat := if k % 2 = 0 then k + 1 else k - 1

/-- Whether a received picot is valid; a ring size of 0 acts as 1 in it (R353, R356). -/
def Channel.picotOk (c : Channel) (k : Nat) (p : Pkt) : Bool :=
  p.fld 0x1C 16 == c.fld Reg.YL_SYSID Fl.YL_SYSID_SYSID && max 1 (p.fld 0x28 8) == c.ring 1
  && max 1 (p.fld 0x29 8) == c.ring 2 && p.src == c.neighbour k && p.fld 0x1E 8 == oppPort k

/-- A received picot (R353, R355). -/
def Channel.rxPicot (c : Channel) (k : Nat) (p : Pkt) : Channel :=
  let st := c.pstate k
  if st ≠ psActive ∧ st ≠ psMiswired then c
  else
    let y := c.port k
    let c1 := if y.partnered then c else
      (c.wr (Reg.YLP_PARTNER k) (p.src % 2 ^ 13 + (p.fld 0x1E 8 % 8) * 2 ^ 13 + 2 ^ 16)).setPort k { y with partnered := true }
    if c1.picotOk k p then
      let y1 := c1.port k
      (if y1.confirmed then c1.raiseFld (Reg.YLP_PGAP k) Fl.YLP_PGAP_US (c1.usSince y1.lastPicot) else c1).setPort k { y1 with lastPicot := c1.ts, confirmed := true }
    else if st = psActive then (c1.portDead k psMiswired).portFault k fcYlMiswire
    else c1

/-- Asks the partner for a width (R371). -/
def Channel.askWidth (c : Channel) (k v : Nat) : Channel :=
  if c.pstate k = psActive then
    (c.setPort k { c.port k with width := some v }).sendPkt k 4 (mkPkt 8 4 (c.neighbour k) c.coord 0 0 0 0 v [])
  else c

end Sys2Proof.Machine
end

