-- ==== Sys2Proof/Machine/Update.lean ====
section
/-! DEFINITION. Class UPDATE: norms, the update rules, the embedding journal, SNAP (R78, R116, R117, R311 to R335). -/

namespace Sys2Proof.Machine

open Sys2Proof

/-! ### The step and its norm (R319 to R322) -/

def Channel.step (c : Channel) (x : Nat) : StepSt := mget (fun _ => StepSt.reset) c.steps x
def Channel.setStep (c : Channel) (x : Nat) (t : StepSt) : Channel := { c with steps := mset (fun _ => StepSt.reset) c.steps x t }

/-- CORE_NORMACC. -/
def Channel.normAcc (c : Channel) (i : Nat) : F32C := ⟨c.rd (Reg.CORE_NORMACCL i), c.rd (Reg.CORE_NORMACCH i)⟩
def Channel.setNormAcc (c : Channel) (i : Nat) (v : F32C) : Channel := (c.wr (Reg.CORE_NORMACCL i) v.hi).wr (Reg.CORE_NORMACCH i) v.lo

/-- A core sends its contribution, once per step (R320). -/
def Channel.normSend (c : Channel) (i : Nat) : Channel :=
  let k := c.core i
  match k.owner with
  | none => c
  | some x =>
    if k.normSent then c
    else
      let t := c.step x
      (c.setStep x { t with norm := cAdd t.norm (c.normAcc i), sent := i :: t.sent }).setCore i { k with normSent := true }

/-- f of R321. -/
def clipFactor (lim n : F32) : F32 :=
  if f32Finite lim && vLt vZero (f32Val lim) && vLt (f32Val lim) (f32Val n) then f32Div lim n else 0x3F80_0000

/-- The core's clip factor. -/
def Channel.clip (c : Channel) (i : Nat) : F32 := c.rd (Reg.CORE_CLIP i)

def immReal (w : IWord) : F32 := iImm w

/-- NORMP: the sum of squares in the order of R239 into the accumulator (R232, R236, R319). -/
def Xc.normpRun (x : Xc) (f : Flight) : Channel × Flight :=
  let o := x.opd (iD1 x.w)
  let c0 := x.c.setCore x.site { x.c.core x.site with normp := true }
  let is := idxs x.d1Exts
  let chk (u : Chunk) : Option Ovf := firstOvf [ovfAt 1 (iD1 x.w) o.d false u.top, x.maskOvf 1 u.top]
  match (chunks 128 x.d1Exts).findSome? chk with
  | some e => x.endWalk (c0, some e) f
  | none =>
    let ts := is.map (fun i => if x.valid c0 1 i then some (redTerm 3 (fmC (dFmt o.d)) (c0.ldCode o i) (c0.ldVal o i)) else none)
    let a := ts.foldl redAllLanes redAcc0
    ((c0.count (Reg.CORE_ACCINF x.site) a.inf).setNormAcc x.site (cAdd (c0.normAcc x.site) (cAdd a.total (treeSum a.lanes))), f)

def specNormp : OpSpec :=
  { specBase with
    opc := 0x200
    streams := fun s => s == .u
    legal := tOk ⟨false, true, false, false, true, false, false, 0, 0, false⟩
    roles := fun _ w => [rRd (iD1 w) 1] ++ maskRole w
    bad := fun x => dfsm (fmHSC (dFmt (x.desc (iD1 x.w))) && x.maskFmt) true
    zero := fun x => anyZero x.d1Exts
    zeroRun := fun x f => (x.c.setCore x.site { x.c.core x.site with normp := true }, f)
    run := fun x f => x.normpRun f }

/-- A completed NORMW: the clip factor is loaded (R321). -/
def Channel.loadClip (c : Channel) (i : Nat) (f : F32) : Channel :=
  (c.wr (Reg.CORE_CLIP i) f).setCore i { c.core i with normed := true }

/-- NORMW: contributes, then waits for N (R320, R321). -/
def specNormw : OpSpec :=
  { specBase with
    opc := 0x201
    streams := fun s => s == .u
    legal := tOk ⟨false, false, false, false, false, false, false, 0, immAll, false⟩
    noop := fun x => if (x.c.core x.site).normp then none else some (Reg.CORE_NOOPST x.site)
    run := fun x f =>
      let c1 := x.c.normSend x.site
      match (c1.step (x.owner.getD 0)).known with
      | some n => (c1.loadClip x.site (clipFactor (immReal x.w) n), f)
      | none => (c1, { f with ph := .norm }) }

/-! ### Waits before a write (R78, R322, R327) -/

/-- The waits of an update instruction, then its rule: `skip` in a skipped step. -/
def Xc.updGo (x : Xc) (f : Flight) (busy : Bool) (rule : Xc → Flight → Channel × Flight) (skip : Xc → Flight → Channel × Flight) :
    Channel × Flight :=
  let k := x.c.core x.site
  let nf := x.c.fld Reg.UPD_CTRL Fl.UPD_CTRL_NFMODE = 1
  let t := x.c.step (x.owner.getD 0)
  if nf ∧ !k.normed then
    let c1 := x.c.normSend x.site
    match t.known with
    | none => (c1, { f with ph := .norm })
    | some _ =>
      let y := { x with c := c1.loadClip x.site 0x3F80_0000 }
      if busy then (y.c, { f with ph := .version }) else if t.skip then skip y f else rule y f
  else if busy then (x.c, { f with ph := .version })
  else if t.skip then skip x f
  else rule x f

/-! ### FP32 steps of the rules (R315) -/

def fp32 (v : Val) : F32 := rn32 v
def fone : F32 := 0x3F80_0000

/-- sqrt(x) = RN(x * rsqrt(x)) (R315). -/
def rSqrt (fr k : Nat) (x : F32) : F32 := if vIsZero (f32Val x) then 0 else f32Mul x (fnRsqrt fr k (f32Val x))

/-- pow(b, t) = exp(t * log(b)) (R315). -/
def rPow (fr k : Nat) (b : F32) (t : Int) : F32 :=
  fnExp fr (k + 1) (f32Val (f32Mul (rn32 (vInt t)) (fnLog fr k (f32Val b))))

/-- The hyper-parameters of D3. -/
def Xc.hyp (x : Xc) (n : Nat) : F32 := fp32 (x.c.ldVal (x.opd (iD3 x.w)) [n])

/-- A decayed state value b * old + add: FP32C operations where the state is FP32C (R315). -/
def decayed (isC : Bool) (fr k : Nat) (b : F32) (old : Val) (add : F32) : Val :=
  if isC then cVal (cAdd (cMul fr k (cTerm (f32Val b)) (cTerm old)) (cTerm (f32Val add)))
  else f32Val (f32Add (f32Mul b (fp32 old)) add)

/-- apply(x, delta) of R315 as an element to write. -/
def applyElem (i : List Nat) (x : Val) (delta : F32) : Elem :=
  let r := cAdd (cTerm x) (cTerm (f32Val (f32Neg delta)))
  ⟨i, cVal r, some (cBits r)⟩

/-- A state value to write. -/
def stateElem (i : List Nat) (v : Val) : Elem := ⟨i, v, none⟩

/-- The SGD rule on one element: parameter and momentum to write (R316). -/
def sgdmElem (fr k : Nat) (nest dec : Bool) (hy : Nat → F32) (clip : F32) (isC : Bool) (i j : List Nat) (g0 th0 m0 : Val) : Elem × Elem :=
  let g1 := f32Mul clip (fp32 g0)
  let th := fp32 th0
  let g := if dec then g1 else f32Add g1 (f32Mul (hy 4) th)
  let m := decayed isC fr k (hy 1) m0 (f32Mul (f32Sub fone (hy 5)) g)
  let d1 := if nest then f32Add g (f32Mul (hy 1) (fp32 m)) else fp32 m
  let d := if dec then f32Add d1 (f32Mul (hy 4) th) else d1
  (applyElem i th0 (f32Mul (hy 0) d), stateElem j m)

/-- The Adam rule on one element: parameter, m, v, vmax to write (R317). -/
def adamElem (fr k var : Nat) (c1 c2 : F32) (hy : Nat → F32) (clip : F32) (mC vC : Bool) (i j : List Nat) (g0 th0 m0 v0 x0 : Val) :
    Elem × Elem × Elem × Elem :=
  let g1 := f32Mul clip (fp32 g0)
  let th := fp32 th0
  let g := if var = 0 then f32Add g1 (f32Mul (hy 4) th) else g1
  let m := decayed mC fr k (hy 1) m0 (f32Mul (f32Sub fone (hy 1)) g)
  let v := decayed vC fr (k + 1) (hy 2) v0 (f32Mul (f32Sub fone (hy 2)) (f32Mul g g))
  let w := if var = 2 then rn32 (vMax (f32Val (fp32 x0)) (f32Val (fp32 v))) else fp32 v
  let d1 := f32Div (f32Mul c1 (fp32 m)) (f32Add (rSqrt fr (k + 2) (f32Mul c2 w)) (hy 3))
  let d := if var = 0 then d1 else f32Add d1 (f32Mul (hy 4) th)
  (applyElem i th0 (f32Mul (hy 0) d), stateElem j m, stateElem j v, stateElem j (f32Val w))

/-- c1 or c2 of R317. -/
def biasFactor (off : Bool) (fr k : Nat) (b : F32) (t1 : Int) : F32 := if off then fone else f32Div fone (f32Sub fone (rPow fr k b t1))

/-! ### Shared parts of the rules -/

/-- The step count in element 0 of a scalar tensor. -/
def Xc.count (x : Xc) (idx : Nat) : Int := x.c.ldInt (x.opd idx) []

/-- Writes a step count at version p + 1. -/
def Xc.putCount (x : Xc) (c : Channel) (idx : Nat) (t : Int) : Channel := c.stCode (x.opdW idx) [] (unsigned 32 t)

/-- The exact copy of version p into version p + 1 of one operand at these indices; as D0 it counts in the watch (R223, R322). -/
def Xc.copyVersion (x : Xc) (c : Channel) (idx : Nat) (is : List (List Nat)) : Channel :=
  let c1 := is.foldl (fun c i => c.copyCode (x.opd idx) (x.opdW idx) i i) c
  if idx = iD0 x.w then x.histPut c1 idx (is.map (fun i => c1.ldVal (x.opdW idx) i)) else c1

/-- Capacity checks of a chunk of an update rule: gradient, states, hyper-parameters, then what is written. -/
def Xc.updChk (x : Xc) (states : List (Nat × Nat)) (_ : Channel) (u : Chunk) : Option Ovf :=
  firstOvf ([ovfAt 1 (iD1 x.w) (x.desc (iD1 x.w)) false u.top] ++ states.map (fun s => ovfAt s.1 s.2 (x.desc s.2) false u.top)
    ++ [ovfAt 0 (iD0 x.w) (x.desc (iD0 x.w)) false u.top])

/-- The walk of a skipped step: every unit is checked as the rule's, then its elements are copied (R154, R322). -/
def Xc.copyWalk (x : Xc) (states : List (Nat × Nat)) : Channel × Option Ovf :=
  walk (x.updChk states) (fun c u => (iD0 x.w :: states.map (·.2)).foldl (fun c i => x.copyVersion c i u.idx) c) (chunks 128 x.d1Exts) x.c

/-- FROZEN parameters are no-ops counted in CORE_FROZEN_SKIPS (R117). -/
def Xc.frozen (x : Xc) : Option Nat := if dFrozen (x.desc (iD0 x.w)) then some (Reg.CORE_FROZEN_SKIPS x.site) else none

/-- The common operand checks: formats, versions, hyper-parameters, covering shapes (R313, R314). They come before the no-op of a frozen
parameter, which waives the VERS bits alone (R126, R314). -/
def Xc.updBad (x : Xc) (fmt : Bool) (written states : List Nat) (counts : List Nat) : Option Nat :=
  let d1 := x.desc (iD1 x.w)
  dfsm (fmt && fmHSC (dFmt (x.desc (iD0 x.w))) && fmHSC (dFmt d1) && fmS (dFmt (x.desc (iD3 x.w)))
        && (dFrozen (x.desc (iD0 x.w)) || written.all (fun i => dVers (x.desc i))) && counts.all (fun i => fmI (dFmt (x.desc i))))
       (decide (8 ≤ dCap (x.desc (iD3 x.w)) 0) && states.all (fun i => coversCap (x.desc i) d1 false)
        && counts.all (fun i => decide (1 ≤ dCap (x.desc i) 0)))

def specUpdBase (opc : Nat) (legal : IWord → Bool) : OpSpec :=
  { specBase with
    opc := opc
    streams := fun s => s == .u
    legal := fun w => tOk ⟨true, true, true, true, false, false, false, 0x7F, 0, false⟩ w && legal w
    noop := fun x => x.frozen
    zero := fun x => anyZero x.d1Exts
    writes := fun _ => true }

/-! ### UPD_SGDM (R316) -/

def Xc.sgdmChunk (x : Xc) (c : Channel) (u : Chunk) : Channel :=
  let g := x.opd (iD1 x.w)
  let th := x.opd (iD0 x.w)
  let m := x.opd (iD2 x.w)
  let es := u.idx.map (fun i =>
    sgdmElem x.fr (4 * g.bitAddr i) (bit (iFunc x.w) 0) (bit (iFunc x.w) 1) x.hyp (x.c.clip x.site) (fmC (dFmt m.d)) i i
      (c.ldVal g i) (c.ldVal th i) (c.ldVal m i))
  x.store (x.put c (iD0 x.w) (es.map (·.1))) (iD2 x.w) (es.map (·.2))

def specUpdSgdm : OpSpec :=
  { specUpdBase 0x202 (fun w => decide (iFunc w ≤ 3)) with
    roles := fun _ w => [rRd (iD1 w) 1, rRw (iD2 w) 2, rRd (iD3 w) 3, rRw (iD0 w) 0]
    bad := fun x => x.updBad (fmSC (dFmt (x.desc (iD2 x.w)))) [iD0 x.w, iD2 x.w] [iD0 x.w, iD2 x.w] []
    zeroRun := fun x f => x.updGo f false (fun x f => (x.c, f)) (fun x f => (x.c, f))
    run := fun x f => x.updGo f x.versionBusy
      (fun x f => x.endWalk (walk (x.updChk [(2, iD2 x.w)]) x.sgdmChunk (chunks 128 x.d1Exts) x.c) f)
      (fun x f => x.endWalk (x.copyWalk [(2, iD2 x.w)]) f) }

/-! ### UPD_ADAM (R317) -/

def adamVar (w : IWord) : Nat := iFunc w % 4
def adamStates (w : IWord) : List Nat := [iD2 w, iD2 w + 1] ++ (if adamVar w = 2 then [iD2 w + 3] else [])

def Xc.adamChunk (x : Xc) (t1 : Int) (c : Channel) (u : Chunk) : Channel :=
  let w := x.w
  let g := x.opd (iD1 w)
  let th := x.opd (iD0 w)
  let m := x.opd (iD2 w)
  let v := x.opd (iD2 w + 1)
  let mx := x.opd (iD2 w + 3)
  let off := bit (iFunc w) 2
  let c1 := biasFactor off x.fr 0 (x.hyp 1) t1
  let c2 := biasFactor off x.fr 2 (x.hyp 2) t1
  let es := u.idx.map (fun i =>
    adamElem x.fr (4 + 4 * g.bitAddr i) (adamVar w) c1 c2 x.hyp (x.c.clip x.site) (fmC (dFmt m.d)) (fmC (dFmt v.d)) i i
      (c.ldVal g i) (c.ldVal th i) (c.ldVal m i) (c.ldVal v i) (if adamVar w = 2 then c.ldVal mx i else vZero))
  let c3 := x.store (x.store (x.put c (iD0 w) (es.map (·.1))) (iD2 w) (es.map (·.2.1))) (iD2 w + 1) (es.map (·.2.2.1))
  if adamVar w = 2 then x.store c3 (iD2 w + 3) (es.map (·.2.2.2)) else c3

/-- UPD_ADAM's states with their operand codes. -/
def adamOpnds (w : IWord) : List (Nat × Nat) := (2, iD2 w) :: ((adamStates w).drop 1).map (fun i => (6, i))

/-- The step count that a zero-shape or skipped update writes (R116, R322). -/
def Xc.carryCount (x : Xc) (c : Channel) (idx : Nat) : Channel :=
  x.putCount c idx (x.count idx + (if (x.c.step (x.owner.getD 0)).skip then 0 else 1))

def specUpdAdam : OpSpec :=
  { specUpdBase 0x203 (fun w => decide (adamVar w ≤ 2) && decide (iFunc w ≤ 7) && decide (iD2 w + (if adamVar w = 2 then 3 else 2) ≤ 511)) with
    roles := fun _ w => [rRd (iD1 w) 1, rRw (iD2 w) 2, rRd (iD3 w) 3, rRw (iD2 w + 1) 6, rRw (iD2 w + 2) 6]
      ++ (if adamVar w = 2 then [rRw (iD2 w + 3) 6] else []) ++ [rRw (iD0 w) 0]
    bad := fun x =>
      let st := adamStates x.w
      x.updBad (st.all (fun i => fmSC (dFmt (x.desc i)))) (iD0 x.w :: (iD2 x.w + 2) :: st) (iD0 x.w :: st) [iD2 x.w + 2]
    zeroRun := fun x f => x.updGo { f with wrote := true } x.versionBusy (fun x f => (x.carryCount x.c (iD2 x.w + 2), f))
      (fun x f => (x.carryCount x.c (iD2 x.w + 2), f))
    run := fun x f => x.updGo f x.versionBusy
      (fun x f =>
        let t1 := x.count (iD2 x.w + 2) + 1
        let (c1, o) := walk (x.updChk (adamOpnds x.w)) (x.adamChunk t1) (chunks 128 x.d1Exts) x.c
        match o with
        | some _ => x.endWalk (c1, o) f
        | none => (x.putCount c1 (iD2 x.w + 2) t1, f))
      (fun x f =>
        let (c1, o) := x.copyWalk (adamOpnds x.w)
        match o with
        | some _ => x.endWalk (c1, o) f
        | none => (x.carryCount c1 (iD2 x.w + 2), f)) }

end Sys2Proof.Machine
end

