-- ==== Sys2Proof/Machine/Rules.lean ====
section
/-! DEFINITION. The block preconditioned rule, the embedding update with its journal, and SNAP (R323 to R331, R335). -/

namespace Sys2Proof.Machine

open Sys2Proof

/-! ### UPD_PREC (R329 to R331) -/

/-- An n by n matrix of FP32 values by rows. -/
abbrev Mat := List (List F32)

def Mat.at_ (a : Mat) (i k : Nat) : F32 := nth 0 (nth [] a i) k

def Mat.of (n m : Nat) (g : Nat → Nat → F32) : Mat := (List.range n).map (fun i => (List.range m).map (g i))

/-- A sum of products in increasing order, in FP32C, rounded once (R330). -/
def dotPrec (n : Nat) (a b : Nat → F32) : F32 :=
  cRound ((List.range n).foldl (fun s k => cAdd s (cTerm (vMul (f32Val (a k)) (f32Val (b k))))) czero)

/-- x less the products a k * b k, k below n, in increasing order, each step in FP32. -/
def subDot (n : Nat) (x : F32) (a b : Nat → F32) : F32 :=
  (List.range n).foldl (fun s k => f32Sub s (f32Mul (a k) (b k))) x

/-- One column of the Cholesky factor below the rows found so far: the pivot, or none where A is singular (R331). The order of
the FP32 steps is a DESIGN CHOICE (log 22). `l` holds the columns found, each from row 0 on. -/
def cholColumn (fr key n : Nat) (a : Mat) (tol : Val) (l : List (List F32)) (j : Nat) : Option (List F32) :=
  let e (i k : Nat) : F32 := nth 0 (nth [] l k) i
  let p := subDot j (a.at_ j j) (e j) (e j)
  if f32Finite p && vLt tol (f32Val p) then
    let r := rSqrt fr (key + j) p
    some ((List.range n).map (fun i => if i < j then 0 else if i = j then r else f32Div (subDot j (a.at_ i j) (e i) (e j)) r))
  else none

/-- The Cholesky factor of A by columns, or none where A is singular. -/
def cholesky (fr key n : Nat) (a : Mat) : Option (List (List F32)) :=
  let big := (List.range n).foldl (fun m i => let v := f32Val (a.at_ i i); if vLt m v then v else m) vZero
  (List.range n).foldl (fun r j =>
    match r with
    | none => none
    | some l => (cholColumn fr key n a (vScale big (-24)) l j).map (fun x => l ++ [x])) (some [])

/-- The solution of L y = x, L given by columns. -/
def lowerSolve (n : Nat) (l : List (List F32)) (x : Nat → F32) : List F32 :=
  (List.range n).foldl (fun y i =>
    y ++ [f32Div (subDot i (x i) (fun k => nth 0 (nth [] l k) i) (fun k => nth 0 y k)) (nth 0 (nth [] l i) i)]) []

/-- The solution of the transposed system, from the last row up; `z` holds the rows found, in order. -/
def upperSolve (n : Nat) (l : List (List F32)) (y : List F32) : List F32 :=
  (List.range n).foldl (fun z t =>
    let i := n - 1 - t
    f32Div (subDot t (nth 0 y i) (fun k => nth 0 (nth [] l i) (i + 1 + k)) (fun k => nth 0 z k)) (nth 0 (nth [] l i) i) :: z) []

/-- A^-1 from the factor, by columns. -/
def inverseOf (n : Nat) (l : List (List F32)) : Mat :=
  (List.range n).map (fun j => upperSolve n l (lowerSolve n l (fun i => if i = j then fone else 0)))

/-- A refresh: P by columns (it is symmetric up to rounding), singular retries, whether the diagonal rule is in force (R331). -/
def refresh (fr key n : Nat) (s : Mat) (d0 : F32) : Mat × Nat × Bool :=
  let damp (d : F32) : Mat := Mat.of n n (fun i k => if i = k then f32Add (s.at_ i k) d else s.at_ i k)
  match cholesky fr key n (damp d0) with
  | some l => (inverseOf n l, 0, false)
  | none =>
    let d10 := f32Mul 0x4120_0000 d0
    match cholesky fr (key + n) n (damp d10) with
    | some l => (inverseOf n l, 1, false)
    | none =>
      (Mat.of n n (fun i k =>
        if i = k then
          let q := f32Add (s.at_ i i) d10
          if f32Finite q && vLt vZero (f32Val q) then f32Div fone q else 0
        else 0), 1, true)

/-- Rf of R313: an integer held as FP32; values below 1 act as 1. -/
def refreshEvery (x : F32) : Nat :=
  match f32Val x with
  | .fin false m e => max 1 (if 0 ≤ e then m * 2 ^ e.toNat else m / 2 ^ (-e).toNat)
  | _ => 1

/-- Blocks over extents (rows, columns): row and column of the first element, number. -/
def precBlocks (rows cols : Nat) : List (Nat × Nat × Nat) :=
  (List.range (ceilDiv rows 128)).flatMap (fun bi =>
    (List.range (ceilDiv cols 128)).map (fun bj => (bi * 128, bj * 128, bi * ceilDiv cols 128 + bj)))

def precS (w : IWord) : Nat := iD2 w
def precP (w : IWord) : Nat := iD2 w + 1
def precM (w : IWord) : Nat := iD2 w + 2
def precT (w : IWord) : Nat := iD2 w + 3
def precF (w : IWord) : Nat := iD2 w + 4

def Xc.precChk (x : Xc) (_ : Channel) (u : Nat × Nat × Nat) : Option Ovf :=
  let d1 := x.desc (iD1 x.w)
  let top := [min (dExt d1 0) (u.2.1 + 128) - 1, min (dExt d1 1) (u.1 + 128) - 1]
  firstOvf [ovfAt 1 (iD1 x.w) d1 false top, ovfAt 2 (precS x.w) (x.desc (precS x.w)) false [127, 127, u.2.2],
            ovfAt 6 (precP x.w) (x.desc (precP x.w)) false [127, 127, u.2.2], ovfAt 6 (precM x.w) (x.desc (precM x.w)) false top,
            ovfAt 6 (precF x.w) (x.desc (precF x.w)) false [u.2.2], ovfAt 0 (iD0 x.w) (x.desc (iD0 x.w)) false top]

/-- One block of UPD_PREC (R330). -/
def Xc.precBlock (x : Xc) (t1 : Int) (c : Channel) (u : Nat × Nat × Nat) : Channel :=
  let w := x.w
  let g := x.opd (iD1 w)
  let key := 8 * (u.2.2 + 1) * 2 ^ 20
  let rows := min 128 (dExt g.d 1 - u.1)
  let cols := min 128 (dExt g.d 0 - u.2.1)
  let gh := Mat.of 128 128 (fun i k =>
    if i < rows ∧ k < cols then f32Mul (c.clip x.site) (fp32 (c.ldVal g [u.2.1 + k, u.1 + i])) else 0)
  let ld (idx : Nat) : Mat := Mat.of 128 128 (fun i k => fp32 (c.ldVal (x.opd idx) [k, i, u.2.2]))
  let old := ld (precS w)
  let gam := x.hyp 2
  let s := Mat.of 128 128 (fun i k =>
    f32Add (f32Mul gam (old.at_ i k)) (f32Mul (f32Sub fone gam) (dotPrec 128 (fun n => gh.at_ i n) (fun n => gh.at_ k n))))
  let flags := c.ldCode (x.opd (precF w)) [u.2.2]
  let fresh := t1 = 1 ∨ t1 % (refreshEvery (x.hyp 6) : Int) = 0 ∨ bit (iFunc w) 0
  let (p, sing, diag) := if fresh then refresh x.fr key 128 s (x.hyp 5) else (ld (precP w), 0, bit flags 0)
  let c := if fresh then (c.count (Reg.CORE_PRECSING x.site) sing).count (Reg.CORE_PRECDIAG x.site) (b2n diag) else c
  let sq (m : Mat) : List Elem := (List.range 128).flatMap (fun i => (List.range 128).map (fun k => stateElem [k, i, u.2.2] (f32Val (m.at_ i k))))
  let c := x.store (x.store c (precS w) (sq s)) (precP w) (sq p)
  let c := c.stCode (x.opdW (precF w)) [u.2.2] (setBits flags 0 1 (b2n diag))
  let th := x.opd (iD0 w)
  let m := x.opd (precM w)
  let es := (List.range rows).flatMap (fun i => (List.range cols).map (fun k =>
    let j := [u.2.1 + k, u.1 + i]
    let un := dotPrec 128 (fun n => p.at_ i n) (fun n => gh.at_ n k)
    let th0 := c.ldVal th j
    let m1 := decayed (fmC (dFmt m.d)) x.fr (key + 2 ^ 16 + i * 128 + k) (x.hyp 1) (c.ldVal m j) (f32Mul (f32Sub fone (x.hyp 1)) un)
    (applyElem j th0 (f32Mul (x.hyp 0) (f32Add (fp32 m1) (f32Mul (x.hyp 4) (fp32 th0)))), stateElem j m1)))
  x.store (x.put c (iD0 w) (es.map (·.1))) (precM w) (es.map (·.2))

/-- One block of a skipped step: every state copied (R322). -/
def Xc.precCopy (x : Xc) (c : Channel) (u : Nat × Nat × Nat) : Channel :=
  let w := x.w
  let d1 := x.desc (iD1 w)
  let is := (rangeFrom u.1 (min 128 (dExt d1 1 - u.1))).flatMap (fun i => (rangeFrom u.2.1 (min 128 (dExt d1 0 - u.2.1))).map (fun k => [k, i]))
  let sq := (idxs [128, 128]).map (fun i => i ++ [u.2.2])
  let c1 := x.copyVersion (x.copyVersion c (iD0 w) is) (precM w) is
  x.copyVersion (x.copyVersion (x.copyVersion c1 (precS w) sq) (precP w) sq) (precF w) [[u.2.2]]

def specUpdPrec : OpSpec :=
  { specUpdBase 0x204 (fun w => decide (iFunc w ≤ 1) && decide (iD2 w + 4 ≤ 511)) with
    roles := fun _ w => [rRd (iD1 w) 1, rRw (precS w) 2, rRd (iD3 w) 3, rRw (precP w) 6, rRw (precM w) 6, rRw (precT w) 6,
                         rRw (precF w) 6, rRw (iD0 w) 0]
    bad := fun x =>
      let d (i : Nat) := x.desc i
      let w := x.w
      let d1 := d (iD1 w)
      let nb := ceilDiv (dCap d1 0) 128 * ceilDiv (dCap d1 1) 128
      let sq (i : Nat) : Bool := decide (128 ≤ dCap (d i) 0) && decide (128 ≤ dCap (d i) 1) && decide (nb ≤ dCap (d i) 2)
      match x.updBad (fmS (dFmt (d (precS w))) && fmS (dFmt (d (precP w))) && fmSC (dFmt (d (precM w))) && fmU (dFmt (d (precF w))))
          [iD0 w, precS w, precP w, precM w, precT w, precF w] [iD0 w, precM w] [precT w] with
      | some e => some e
      | none => dfsm true (dNdim (d (iD0 w)) == 2 && dNdim d1 == 2 && sq (precS w) && sq (precP w) && decide (nb ≤ dCap (d (precF w)) 0))
    zeroRun := fun x f => x.updGo { f with wrote := true } x.versionBusy (fun x f => (x.carryCount x.c (precT x.w), f))
      (fun x f => (x.carryCount x.c (precT x.w), f))
    run := fun x f => x.updGo f x.versionBusy
      (fun x f =>
        let t1 := x.count (precT x.w) + 1
        let d1 := x.desc (iD1 x.w)
        let (c1, o) := walk x.precChk (x.precBlock t1) (precBlocks (dExt d1 1) (dExt d1 0)) x.c
        match o with
        | some _ => x.endWalk (c1, o) f
        | none => (x.putCount c1 (precT x.w) t1, f))
      (fun x f =>
        let d1 := x.desc (iD1 x.w)
        let (c1, o) := walk x.precChk x.precCopy (precBlocks (dExt d1 1) (dExt d1 0)) x.c
        match o with
        | some _ => x.endWalk (c1, o) f
        | none => (x.carryCount c1 (precT x.w), f)) }

/-! ### The journal (R326, R328) -/

def Channel.jBase (c : Channel) (i : Nat) : Nat :=
  c.fld (Reg.CORE_JBASEL i) Fl.CORE_JBASEL_ADDR * 64 + c.fld (Reg.CORE_JBASEH i) Fl.CORE_JBASEH_ADDR * 2 ^ 32

/-- Size and fill of the journal in units of 64 bytes. -/
def Channel.jSize (c : Channel) (i : Nat) : Nat := c.fld (Reg.CORE_JSIZE i) Fl.CORE_JSIZE_SIZE * 64
def Channel.jFill (c : Channel) (i : Nat) : Nat := c.fld (Reg.CORE_JFILL i) Fl.CORE_JFILL_FILL

def Channel.jSpan (c : Channel) (i : Nat) : List Span := if c.jSize i = 0 then [] else [⟨c.jBase i, c.jSize i * 64⟩]

/-- Whether a journal lies in the core's scratchpad, its own slice or LPDDR5X. -/
def Channel.jOk (c : Channel) (i : Nat) : Bool :=
  (c.jSpan i).all (fun s =>
    let e := s.lo + s.len
    decide (spadBase i ≤ s.lo ∧ e ≤ spadBase (i + 1)) || decide (sliceBase i ≤ s.lo ∧ e ≤ sliceBase (i + 1))
    || decide (lpBase ≤ s.lo ∧ e ≤ 0x0130_0000_0000))

/-- A journal entry: where the rows and the count lie, and what they held. -/
structure JEntry where
  addr0 : Nat
  addrM : Nat
  addrV : Nat
  addrC : Nat
  row0 : List Byte
  rowM : List Byte
  rowV : List Byte
  count : Nat
deriving DecidableEq, Repr

def padRow (r : List Byte) : List Byte := r ++ List.replicate (roundUp r.length 64 - r.length) 0

def JEntry.bytes (e : JEntry) : List Byte :=
  leBytes 8 e.addr0 ++ leBytes 8 e.addrM ++ leBytes 8 e.addrV ++ leBytes 8 e.addrC ++ leBytes 4 e.row0.length
  ++ leBytes 4 e.rowM.length ++ leBytes 4 e.count ++ leBytes 20 0 ++ padRow e.row0 ++ padRow e.rowM ++ padRow e.rowV

/-- The entry at an address of the journal, and its size in bytes. -/
def Channel.jRead (c : Channel) (a : Nat) : JEntry × Nat :=
  let n0 := c.ldN (a + 0x20) 4
  let nm := c.ldN (a + 0x24) 4
  let av := c.ldN (a + 0x10) 8
  let p0 := a + 64
  let pm := p0 + roundUp n0 64
  let pv := pm + roundUp nm 64
  let nv := if av = 0 then 0 else nm
  (⟨c.ldN a 8, c.ldN (a + 8) 8, av, c.ldN (a + 0x18) 8, c.ld p0 n0, c.ld pm nm, c.ld pv nv, c.ldN (a + 0x28) 4⟩,
   pv + roundUp nv 64 - a)

/-- The entries of a journal, newest first. -/
def Channel.jEntries (c : Channel) (lim : Nat) : Nat → Nat → List JEntry → List JEntry
  | 0, _, l => l
  | n + 1, a, l => if lim ≤ a then l else let (e, z) := c.jRead a; c.jEntries lim n (a + z) (e :: l)

/-- Empties a core's journal (R328). -/
def Channel.jEmpty (c : Channel) (i : Nat) : Channel := c.setFld (Reg.CORE_JFILL i) Fl.CORE_JFILL_FILL 0

/-- Writes a core's journal back in reverse order and empties it (R328). -/
def Channel.jBack (c : Channel) (i : Nat) : Channel :=
  let a := c.jBase i
  ((c.jEntries (a + c.jFill i * 64) (c.jFill i) a []).foldl (fun c e =>
    (((c.st e.addr0 false e.row0).st e.addrM false e.rowM).st e.addrV false e.rowV).st e.addrC false (leBytes 4 e.count)) c).jEmpty i

/-! ### UPD_EMB (R324 to R327) -/

def embRule (w : IWord) : Nat := iFunc w % 4
def embM (w : IWord) : Nat := iD2 w
def embC (w : IWord) : Nat := iD2 w + 1
def embV (w : IWord) : Nat := iD2 w + 2
def embStates (w : IWord) : List Nat := if embRule w = 0 then [embM w] else [embM w, embV w]

/-- Bytes of row r of a table, and its address. -/
def rowLen (d : Nat) : Nat := ceilDiv (dCap d 0 * dBits d) 8
def Opd.rowAddr (o : Opd) (r : Nat) : Nat := o.bitAddr [0, r] / 8

def Xc.embIdx (x : Xc) : Nat := dSpidx (x.desc (iD1 x.w))
def Xc.embEntry (x : Xc) (c : Channel) (i : Nat) : Int := c.ldInt (x.opd x.embIdx) [i]

/-- The journal entry of table row r. -/
def Xc.embJournal (x : Xc) (c : Channel) (r : Nat) : JEntry :=
  let t := x.opd (iD0 x.w)
  let m := x.opd (embM x.w)
  let v := x.opd (embV x.w)
  let two := embRule x.w ≠ 0
  let nm := if two then max (rowLen m.d) (rowLen v.d) else rowLen m.d
  { addr0 := t.rowAddr r, addrM := m.rowAddr r, addrV := if two then v.rowAddr r else 0, addrC := (x.opd (embC x.w)).bitAddr [r] / 8,
    row0 := c.ld (t.rowAddr r) (rowLen t.d), rowM := c.ld (m.rowAddr r) nm, rowV := if two then c.ld (v.rowAddr r) nm else [],
    count := c.ldCode (x.opd (embC x.w)) [r] }

def Xc.embChk (x : Xc) (c : Channel) (i : Nat) : Option Ovf :=
  let w := x.w
  let d1 := x.desc (iD1 w)
  let d0 := x.desc (iD0 w)
  let e := x.embEntry c i
  let f := dExt d1 0 - 1
  match ovfAt 5 x.embIdx (x.desc x.embIdx) false [i] with
  | some o => some o
  | none =>
    match entryOvf x.embIdx e (dExt d0 1) i with
    | some o => some o
    | none =>
      if e = -1 then none
      else
        let r := e.toNat
        let n := (x.embJournal c r).bytes.length / 64
        firstOvf ([ovfAt 1 (iD1 w) d1 false [f, i]] ++ (embStates w).map (fun s => ovfAt (if s = embM w then 2 else 6) s (x.desc s) false [f, r])
          ++ [ovfAt 6 (embC w) (x.desc (embC w)) false [r], ovfAt 0 (iD0 w) d0 false [f, r],
              if c.jSize x.site < c.jFill x.site + n then some ⟨6, 0, iD0 w, c.jFill x.site + n, c.jSize x.site, i⟩ else none])

/-- One listed row (R325). -/
def Xc.embRow (x : Xc) (c : Channel) (i : Nat) : Channel :=
  let w := x.w
  let e := x.embEntry c i
  if e = -1 then c.count (Reg.CORE_IDXINV x.site) 1
  else
    let r := e.toNat
    let bs := (x.embJournal c r).bytes
    let c := (c.st (c.jBase x.site + c.jFill x.site * 64) false bs).setFld (Reg.CORE_JFILL x.site) Fl.CORE_JFILL_FILL (c.jFill x.site + bs.length / 64)
    let cnt := x.opd (embC w)
    let t1 := c.ldInt cnt [r] + 1
    let c := c.stCode cnt [r] (unsigned 32 t1)
    let g := x.opd (iD1 w)
    let th := x.opd (iD0 w)
    let m := x.opd (embM w)
    let v := x.opd (embV w)
    let ks := List.range (dExt g.d 0)
    let c :=
      if embRule w = 0 then
        let es := ks.map (fun k =>
          sgdmElem x.fr (4 * g.bitAddr [k, i]) false false x.hyp (c.clip x.site) (fmC (dFmt m.d)) [k, r] [k, r]
            (c.ldVal g [k, i]) (c.ldVal th [k, r]) (c.ldVal m [k, r]))
        x.store (x.put c (iD0 w) (es.map (·.1))) (embM w) (es.map (·.2))
      else
        let off := bit (iFunc w) 2
        let c1 := biasFactor off x.fr (4 * i) (x.hyp 1) t1
        let c2 := biasFactor off x.fr (4 * i + 2) (x.hyp 2) t1
        let es := ks.map (fun k =>
          adamElem x.fr (4 * g.bitAddr [k, i]) (embRule w - 1) c1 c2 x.hyp (c.clip x.site) (fmC (dFmt m.d)) (fmC (dFmt v.d)) [k, r] [k, r]
            (c.ldVal g [k, i]) (c.ldVal th [k, r]) (c.ldVal m [k, r]) (c.ldVal v [k, r]) vZero)
        x.store (x.store (x.put c (iD0 w) (es.map (·.1))) (embM w) (es.map (·.2.1))) (embV w) (es.map (·.2.2.1))
    c.count (Reg.CORE_EMBROWS x.site) 1

def specUpdEmb : OpSpec :=
  { specUpdBase 0x205 (fun w => decide (embRule w ≤ 2) && decide (iFunc w ≤ 7) && decide (iD2 w + (if embRule w = 0 then 1 else 2) ≤ 511)) with
    roles := fun d w => [rRd (iD1 w) 1, rRd (dSpidx (d (iD1 w))) 5, rRw (embM w) 2, rRd (iD3 w) 3, rRw (embC w) 6]
      ++ (if embRule w = 0 then [] else [rRw (embV w) 6]) ++ [rRw (iD0 w) 0]
    bad := fun x =>
      let d (i : Nat) := x.desc i
      let w := x.w
      let d0 := d (iD0 w)
      let d1 := d (iD1 w)
      if !x.c.jOk x.site then some fcAddrBad
      else
        dfsm (fmHSC (dFmt d0) && fmHSC (dFmt d1) && (embStates w).all (fun s => fmSC (dFmt (d s))) && fmI (dFmt (d (embC w)))
              && fmS (dFmt (d (iD3 w))) && fmI (dFmt (d x.embIdx)) && (dFrozen d0 || (iD0 w :: embC w :: embStates w).all (fun s => !dVers (d s))))
             (decide (8 ≤ dCap (d (iD3 w)) 0) && decide (dCap d1 1 ≤ dCap (d x.embIdx) 0) && decide (dCap d1 0 ≤ dCap d0 0)
              && (embStates w).all (fun s => decide (dCap d1 0 ≤ dCap (d s) 0) && decide (dCap d0 1 ≤ dCap (d s) 1))
              && decide (dCap d0 1 ≤ dCap (d (embC w)) 0))
    extra := fun x => ([], if dFrozen (x.desc (iD0 x.w)) then [] else x.c.jSpan x.site)
    zeroRun := fun x f => x.updGo f false (fun x f => (x.c, f)) (fun x f => (x.c, f))
    run := fun x f => x.updGo f (x.c.eRun (x.owner.getD 0) (fun _ => true))
      (fun x f => x.endWalk (walk x.embChk x.embRow (List.range (dExt (x.desc (iD1 x.w)) 1)) x.c) f)
      (fun x f => (x.c, f)) }

/-! ### SNAP (R335) -/

def specSnap : OpSpec :=
  { specBase with
    opc := 0x206
    streams := fun s => s == .u
    legal := tOk ⟨true, true, false, false, false, false, false, 0, 0, false⟩
    roles := fun _ w => [rRd (iD1 w) 1, rWr (iD0 w) 0]
    bad := fun x => dfsm (dFmt (x.desc (iD0 x.w)) == dFmt (x.desc (iD1 x.w))) (coversCap (x.desc (iD0 x.w)) (x.desc (iD1 x.w)) false)
    zero := fun x => anyZero x.d1Exts
    writes := fun _ => true
    run := fun x f =>
      if dVers (x.desc (iD0 x.w)) && x.versionBusy then (x.c, { f with ph := .version })
      else x.endWalk (walk x.ewChk x.copyLine x.lines x.c) f }

end Sys2Proof.Machine
end

