-- ==== Sys2Proof/Machine/Tat.lean ====
section
/-! DEFINITION. The tatting engine: groups, orders, bucket passes, scale agreement, delivery, chain collectives, PGATHER, the
press (R332 to R334, R373 to R394, R398). -/

namespace Sys2Proof.Machine

open Sys2Proof

/-! ### The collective group (R373 to R375) -/

def Channel.grpF (c : Channel) (x d : Nat) (f : Fld) : Nat := c.fld (Reg.TAT_GRP x d) f

/-- Effective members of dimension d. -/
def Channel.elen (c : Channel) (x d : Nat) : Nat :=
  let m := c.grpF x d Fl.TAT_GRP_EMODE
  if m = 1 ∨ m = 2 then c.grpF x d Fl.TAT_GRP_ELEN else 1

/-- This channel's position, or another's, in dimension d. -/
def Channel.posOf (c : Channel) (x d a : Nat) : Nat :=
  let n := c.ring d
  (coordDim a d + n - c.grpF x d Fl.TAT_GRP_EBASE % n) % n

def Channel.gpos (c : Channel) (x d : Nat) : Nat := c.posOf x d c.coord

/-- N of R373. -/
def Channel.gsize (c : Channel) (x : Nat) : Nat := c.elen x 0 * c.elen x 1 * c.elen x 2

/-- Whether a collective may begin: no dimension of 0 members, this channel a member (R374). -/
def Channel.groupOk (c : Channel) (x : Nat) : Bool :=
  (List.range 3).all (fun d => let n := c.elen x d; n != 0 && (n == 1 || decide (c.gpos x d < n)))

/-- Whether channel a is a member of the group. -/
def Channel.isMember (c : Channel) (x a : Nat) : Bool :=
  (List.range 3).all (fun d =>
    let n := c.elen x d
    if n ≤ 1 then coordDim a d == coordDim c.coord d else decide (coordDim a d < c.ring d) && decide (c.posOf x d a < n))

/-- The virtual ring of a half: positions in the order the data visits them (R375). -/
def ringOrder (line : Bool) (n half : Nat) : List Nat :=
  let up := if line then (List.range n).filter (fun k => k % 2 == 0) ++ ((List.range n).filter (fun k => k % 2 == 1)).reverse
            else List.range n
  if half = 0 then up else up.reverse

def Channel.isLine (c : Channel) (x d : Nat) : Bool := c.grpF x d Fl.TAT_GRP_EMODE == 2

def Channel.order (c : Channel) (x d half : Nat) : List Nat := ringOrder (c.isLine x d) (c.elen x d) half

/-- This channel's virtual position in a half's order. -/
def Channel.vpos (c : Channel) (x d half : Nat) : Nat := ((c.order x d half).findIdx? (· == c.gpos x d)).getD 0

/-- The port towards the next member of a half's order, and whether the packet is relayed (R375). -/
def Channel.nextHop (c : Channel) (x d half : Nat) : Nat × Bool :=
  if c.isLine x d then
    let n := c.elen x d
    let me := c.gpos x d
    let nx := nth 0 (c.order x d half) ((c.vpos x d half + 1) % n)
    (if me < nx then 2 * d + 1 else 2 * d, decide (me + 2 = nx ∨ nx + 2 = me))
  else (if half = 0 then 2 * d + 1 else 2 * d, false)

/-- Whether a RELAY packet that came by port k is for another member: this channel carries it through (R375). -/
def Channel.carries (c : Channel) (x half k : Nat) : Bool :=
  let d := k / 2
  let n := c.elen x d
  let me := c.gpos x d
  let pred := nth 0 (c.order x d half) ((c.vpos x d half + n - 1) % n)
  !(if k % 2 = 0 then decide (pred + 2 = me) else decide (me + 2 = pred))

/-! ### COLL packets (R385) -/

end Sys2Proof.Machine

namespace Sys2Proof

open Sys2Proof.Machine

def Pkt.ctx (p : Pkt) : Nat := bits p.flags 0 4
def Pkt.kind (p : Pkt) : Nat := p.fld 0x1C 8
def Pkt.cdim (p : Pkt) : Nat := bits (p.fld 0x1D 8) 0 2
def Pkt.cpass (p : Pkt) : Nat := bits (p.fld 0x1D 8) 2 3
def Pkt.half (p : Pkt) : Nat := bits (p.fld 0x1D 8) 5 1
def Pkt.relay (p : Pkt) : Bool := bit (p.fld 0x1D 8) 6
def Pkt.cstep (p : Pkt) : Nat := p.fld 0x1E 8
def Pkt.epoch (p : Pkt) : Nat := p.fld 0x20 32
def Pkt.off (p : Pkt) : Nat := p.fld 0x24 32
def Pkt.ovf (p : Pkt) : Nat := p.fld 0x28 64
def Pkt.dataNat (p : Pkt) : Nat := (p.data.zip (List.range p.data.length)).foldl (fun x e => x + e.1.toNat <<< (512 * e.2)) 0

/-- The digest term of a packet (R387). -/
def Pkt.digest (p : Pkt) : Nat :=
  let h := slotBytes p.hdr
  crc64 ((h.drop 8).take 2 ++ (h.drop 0x1C).take 0x14 ++ p.data.flatMap slotBytes)

end Sys2Proof

namespace Sys2Proof.Machine

open Sys2Proof

/-- A COLL packet to the neighbour on port k. -/
def Channel.mkColl (c : Channel) (k x tag kind dim pass half : Nat) (relay : Bool) (step ep off ovf : Nat) (data : List (BitVec 512)) : Pkt :=
  mkPkt 3 0 (c.neighbour k) c.coord tag 0 x 0
    (kind + (dim + pass * 4 + half * 32 + b2n relay * 64) * 2 ^ 8 + step * 2 ^ 16 + ep * 2 ^ 32 + off * 2 ^ 64 + ovf * 2 ^ 96) data

def Channel.holdPkt (c : Channel) (k : Nat) (p : Pkt) : Channel := { c with tat := { c.tat with held := c.tat.held ++ [(k, p)] } }

/-- Slots in the receive store of 32 MiB (R385). -/
def Channel.heldSlots (c : Channel) : Nat := c.tat.held.foldl (fun n e => n + 1 + e.2.data.length) 0
def Channel.storeFull (c : Channel) : Bool := decide (2 ^ 19 ≤ c.heldSlots)

/-! ### Elements of a pass (R381 to R384) -/

/-- Wire format of a pass: pass 4 runs in BF16 (R384). -/
def passFmt (e : BEntry) (pass : Nat) : Nat := if pass = 4 then 2 else e.wfmt

/-- What one packet of a pass carries, per element: scale agreement carries a byte per block (R382). -/
def Pass.unitBytes (p : Pass) (e : BEntry) : Nat := if p.agree then 1 else wireBytes (passFmt e p.pass)
def Pass.units (p : Pass) (e : BEntry) : Nat := if p.agree then e.len / 32 else e.len
def Pass.perPkt (p : Pass) (e : BEntry) : Nat := 2048 / p.unitBytes e
def Pass.npkts (p : Pass) (e : BEntry) : Nat := ceilDiv (p.units e) (p.perPkt e)

/-- Half of packet g, its number in the half (R381). -/
def Pass.halfOf (p : Pass) (e : BEntry) (g : Nat) : Nat := if g < ceilDiv (p.npkts e) 2 then 0 else 1
def Pass.inHalf (p : Pass) (e : BEntry) (g : Nat) : Nat := if g < ceilDiv (p.npkts e) 2 then g else g - ceilDiv (p.npkts e) 2

/-- Scale code of the block of element n. -/
def Pass.scaleAt (p : Pass) (n : Nat) : Nat := nth 0x7F p.scales (n / 32)

/-- The value of a wire code (R382). -/
def Pass.decWire (p : Pass) (e : BEntry) (n code : Nat) : Val :=
  match passFmt e p.pass with
  | 0 => cVal (cOfBits code)
  | 1 => decElem 0 code
  | 2 => decElem 2 code
  | _ => withScale (decElem 4 code) (p.scaleAt n)

/-- The random bits of the engine (R381). -/
def Channel.tatSr (c : Channel) (mb a8 ep : Nat) : Nat :=
  srElem ⟨srKey (c.rd Reg.NUM_SRSEEDL + c.rd Reg.NUM_SRSEEDH * 2 ^ 32) ep 3 106, mb⟩ a8

/-- A sum converted to the wire format, and whether it sets its block's flag (R381, R383). -/
def Channel.encWire (c : Channel) (p : Pass) (e : BEntry) (n : Nat) (v : F32C) : Nat × Bool :=
  let f := passFmt e p.pass
  let r := some (c.tatSr (16 * p.dim + p.pass) (8 * (p.b * 2 ^ 24 + n * wireBytes f)) p.ep)
  match f with
  | 0 => (cBits v, false)
  | 1 => ((convert 0 false r (cVal v)).1, false)
  | 2 => ((convert 2 false r (cVal v)).1, false)
  | _ =>
    let s := p.scaleAt n
    if s = 0xFF then (0, false)
    else
      let (x, k) := convert 4 true r (vScale (cVal v) (127 - (s : Int)))
      (x, k.ovf != 0)

/-- The scale code a member computes for a block (R382). -/
def blockCode (k : Bkt) (e : BEntry) (blk : Nat) : Nat :=
  let m := mget (fun _ => vZero) k.amax blk
  if vFinite m then scaleCode m 8 (bits e.flags 2 3 : Nat) else 0xFF

/-- A member's own units of packet g, as FP32C values or as scale codes. -/
def Channel.ownVals (c : Channel) (p : Pass) (e : BEntry) (g : Nat) : List F32C :=
  let lo := g * p.perPkt e
  (rangeFrom lo (min (p.perPkt e) (p.units e - lo))).map (fun n =>
    match p.prev with
    | none => if p.zero then czero else cOfBits (c.ldN (e.acc + 8 * n) 8)
    | some r => cOf (p.decWire e n (nth 0 (mget (fun _ => []) r g) (n - lo))))

def Channel.ownCodes (c : Channel) (p : Pass) (e : BEntry) (g : Nat) : List Nat :=
  let lo := g * p.perPkt e
  match p.prev with
  | some r => mget (fun _ => []) r g
  | none => (rangeFrom lo (min (p.perPkt e) (p.units e - lo))).map (fun n =>
      if p.zero then scaleCode vZero 8 (bits e.flags 2 3 : Nat) else blockCode (c.bkt p.ctx p.b) e n)

/-- The flags of a packet's blocks (R383). -/
def Pass.pktOvf (p : Pass) (e : BEntry) (g : Nat) : Nat :=
  if !p.agree && passFmt e p.pass == 3 then
    (List.range 64).foldl (fun m j => m + b2n (p.flags.contains (g * 64 + j)) * 2 ^ j) 0
  else 0

def Pass.addFlags (p : Pass) (bs : List Nat) : Pass := { p with flags := bs.foldl (fun l b => if l.contains b then l else b :: l) p.flags }

/-- Converts sums into wire codes, noting the flags they set. -/
def Channel.encAll (c : Channel) (p : Pass) (e : BEntry) (lo : Nat) (vs : List F32C) : List Nat × Pass :=
  let r := (vs.zip (List.range vs.length)).map (fun v => (c.encWire p e (lo + v.2) v.1, (lo + v.2) / 32))
  (r.map (·.1.1), p.addFlags ((r.filter (·.1.2)).map (·.2)))

def packCodes (w : Nat) (l : List Nat) : List (BitVec 512) :=
  slotsOf ((l.zip (List.range l.length)).foldl (fun x e => x + e.1 <<< (8 * w * e.2)) 0) (w * l.length)

/-- Sends the units of packet g at ring step s (R381, R385). -/
def Channel.sendChunk (c : Channel) (p : Pass) (e : BEntry) (kind g step : Nat) (codes : List Nat) : Channel × Pass :=
  let half := p.halfOf e g
  let (k, relay) := c.nextHop p.ctx p.dim half
  let q := c.mkColl k p.ctx p.tag (if p.agree then 0 else kind) p.dim p.pass half relay step (c.press p.ctx) (g * p.perPkt e) (p.pktOvf e g) (packCodes (p.unitBytes e) codes)
  (c.sendPkt k 0 q, { p with sdig := p.sdig ^^^ q.digest })

def Pass.chunk (p : Pass) (e : BEntry) (n g : Nat) : Nat := p.inHalf e g % n

def Pass.setRes (p : Pass) (g : Nat) (codes : List Nat) : Pass := { p with res := mset (fun _ => []) p.res g codes }

/-- What the ring does with a partial of packet g that came at step s (reduce-scatter). -/
def Channel.onPartial (c : Channel) (p : Pass) (e : BEntry) (g s ovf : Nat) (codes : List Nat) : Channel × Pass :=
  let n := c.elen p.ctx p.dim
  let lo := g * p.perPkt e
  let p := p.addFlags ((setPositions ovf 64).map (fun j => g * 64 + j))
  let (mine, p1) :=
    if p.agree then ((c.ownCodes p e g).zipWith max codes, p)
    else c.encAll p e lo ((c.ownVals p e g).zipWith cAdd ((codes.zip (List.range codes.length)).map (fun v => cOf (p.decWire e (lo + v.2) v.1))))
  if s + 2 = n then c.sendChunk (p1.setRes g mine) e 2 g (if p.agree then n - 1 else 0) mine
  else c.sendChunk p1 e 1 g (s + 1) mine

/-- What the ring does with a completed chunk that came at step s of the all-gather. -/
def Channel.onGather (c : Channel) (p : Pass) (e : BEntry) (g s ovf : Nat) (codes : List Nat) : Channel × Pass :=
  let n := c.elen p.ctx p.dim
  let p1 := (p.addFlags ((setPositions ovf 64).map (fun j => g * 64 + j))).setRes g codes
  if s + 2 < n then c.sendChunk p1 e 2 g (if p.agree then n - 1 + s + 1 else s + 1) codes else (c, p1)

/-- Starts the dimension a pass is in: skips dimensions of one member, sends this member's first chunks; ends the pass, or the
agreement, after Z. -/
def Channel.startDim (c : Channel) (e : BEntry) : Nat → Pass → Channel × Pass
  | 0, p => (c, p)
  | t + 1, p =>
    if 3 ≤ p.dim then
      if p.agree then
        let sc := (List.range (p.npkts e)).flatMap (fun g => match p.prev with | some r => mget (fun _ => []) r g | none => c.ownCodes p e g)
        c.startDim e t { p with agree := false, scales := sc, dim := 0, prev := none, res := [] }
      else (c, { p with ended := true })
    else
      let n := c.elen p.ctx p.dim
      if n = 1 then c.startDim e t { p with dim := p.dim + 1 }
      else
        (List.range (p.npkts e)).foldl (fun (r : Channel × Pass) g =>
          let (c, p) := r
          if p.chunk e n g = c.vpos p.ctx p.dim (p.halfOf e g) then
            let (codes, p1) := if p.agree then (c.ownCodes p e g, p) else c.encAll p e (g * p.perPkt e) (c.ownVals p e g)
            c.sendChunk p1 e 1 g 0 codes
          else (c, p)) (c, p)

/-- After a packet: goes to the next dimension once every packet of this one has its result. -/
def Channel.passNext (c : Channel) (e : BEntry) (p : Pass) : Channel × Pass :=
  if !p.ended && p.res.length == p.npkts e then c.startDim e 8 { p with dim := p.dim + 1, prev := some p.res, res := [] } else (c, p)

/-- Whether a pass takes a packet now: same bucket, pass, dimension and kind of collective. -/
def Pass.takes (p : Pass) (q : Pkt) : Bool :=
  p.ctx == q.ctx && p.tag == q.tag && !p.ended && p.dim == q.cdim
  && (if p.agree then q.kind == 0 else (q.kind == 1 || q.kind == 2) && p.pass == q.cpass)

/-- Codes of a packet's units. -/
def Pass.codesOf (p : Pass) (e : BEntry) (q : Pkt) (g : Nat) : List Nat :=
  let w := p.unitBytes e
  let n := min (p.perPkt e) (p.units e - g * p.perPkt e)
  let x := q.dataNat
  (List.range n).map (fun i => bits x (8 * w * i) (8 * w))

/-- A packet reaches its pass. -/
def Channel.passRx (c : Channel) (p : Pass) (q : Pkt) : Channel × Pass :=
  let e := c.bEntry p.ctx p.b
  let g := q.off / p.perPkt e
  let p1 := { p with rdig := p.rdig ^^^ q.digest }
  let n := c.elen p.ctx p.dim
  let codes := p.codesOf e q g
  let gather := if p.agree then decide (n - 1 ≤ q.cstep) else q.kind == 2
  let step := if p.agree ∧ gather then q.cstep - (n - 1) else q.cstep
  let (c2, p2) := if gather then c.onGather p1 e g step q.ovf codes else c.onPartial p1 e g step q.ovf codes
  c2.passNext e p2

/-- Bucket states while a pass runs (R379). -/
def Channel.passState (c : Channel) (p : Pass) : Channel :=
  let k := c.bkt p.ctx p.b
  c.setBkt p.ctx p.b { k with st := if p.agree then 3 else 4 }

def Channel.setPasses (c : Channel) (l : List Pass) : Channel := { c with tat := { c.tat with passes := l } }

/-- A SCALE, RS or AG packet (R385): to its pass, or held. -/
def Channel.passPkt (c : Channel) (k : Nat) (q : Pkt) : Channel :=
  match c.tat.passes.findIdx? (·.takes q) with
  | none => c.holdPkt k q
  | some i =>
    match c.tat.passes[i]? with
    | none => c
    | some p => let (c1, p1) := c.passRx p q; (c1.setPasses (c1.tat.passes.set i p1)).passState p1

/-! ### Chain collectives (R389 to R392) -/

def chainAdd (a b : ChainVal) : ChainVal :=
  match a, b with
  | .norm x, .norm y => .norm (cAdd x y)
  | .sum x, .sum y => .sum ((x + y) % 2 ^ 32)
  | .votes x, .votes y => .votes (x + y)
  | v, _ => v

/-- Whether two values belong to collectives of one kind. -/
def sameKind (a b : ChainVal) : Bool :=
  match a, b with
  | .norm _, .norm _ => true
  | .sum _, .sum _ => true
  | .votes _, .votes _ => true
  | _, _ => false

/-- The packet that carries a value along a chain on port k: a vote or commit frame, or a COLL packet (R351, R385). -/
def Channel.chainPkt (c : Channel) (k x ep dim : Nat) (v : ChainVal) : Nat × Pkt :=
  match v with
  | .norm a => (0, c.mkColl k x 0 3 dim 0 0 false 0 ep 0 0 (slotsOf (cBits a) 64))
  | .sum a => (0, c.mkColl k x 0 5 dim 0 0 false 0 ep 0 0 (slotsOf a 64))
  | .votes n =>
    let up := k % 2 = 0
    (4, mkPkt 6 4 (c.neighbour k) c.coord 0 0 0 0
      ((if up then 0 else 1) + c.fld (Reg.TAT_JOB x) Fl.TAT_JOB_JOB * 2 ^ 16 + (ep + 1) % 2 ^ 32 * 2 ^ 32 + (if up then n else 0) * 2 ^ 64) [])

def Channel.sendChain (c : Channel) (k x ep dim : Nat) (v : ChainVal) : Channel :=
  let (vc, p) := c.chainPkt k x ep dim v
  c.sendPkt k vc p

/-- Sends a result back along the chains: from dimension d on down to X, through the plus ports (R389). -/
def Channel.sendBack (c : Channel) (x ep d : Nat) (v : ChainVal) : Channel :=
  [2, 1, 0].foldl (fun c k => if k ≤ d ∧ c.gpos x k + 1 < c.elen x k then c.sendChain (2 * k + 1) x ep k v else c) c

/-- Where a chain goes with its value: waits, is sent on, or is complete at the root. -/
def Channel.chainGo (c : Channel) : Nat → Chain → Channel × Chain × Bool
  | 0, h => (c, h, false)
  | t + 1, h =>
    if 3 ≤ h.dim then (c.sendBack h.ctx h.ep 2 h.val, h, true)
    else
      let n := c.elen h.ctx h.dim
      let me := c.gpos h.ctx h.dim
      if n ≤ 1 then c.chainGo t { h with dim := h.dim + 1, got := false }
      else if me + 1 < n ∧ !h.got then (c, h, false)
      else if me = 0 then c.chainGo t { h with dim := h.dim + 1, got := false }
      else (c.sendChain (2 * h.dim) h.ctx h.ep h.dim h.val, { h with dim := 4 }, false)

def Channel.setChains (c : Channel) (l : List Chain) : Channel := { c with tat := { c.tat with chains := l } }

/-! ### The norm (R320 to R322, R390) -/

/-- N is known: UPD_NORM, and what NFMODE asks where it is not finite. -/
def Channel.normKnown (c : Channel) (x fr : Nat) (n2 : F32C) : Channel :=
  let n := rSqrt fr 0 (cRound n2)
  let t := c.step x
  let c1 := c.wr (Reg.UPD_NORM x) n
  if f32Finite n then c1.setStep x { t with known := some n }
  else if c.fld Reg.UPD_CTRL Fl.UPD_CTRL_NFMODE = 1 then (c1.setStep x { t with known := some n, skip := true }).count Reg.UPD_NFSKIP 1
  else (c1.setStep x { t with known := some n }).raise (mkFault 106 fcNormNonfin (some x) n 0)

/-! ### The press (R332, R333, R224, R258, R388) -/

/-- A step digest word of context x: the running one or the pressed one. -/
def Channel.digW (c : Channel) (reg : Nat → Nat → Nat) (x w : Nat) : Nat := c.rd (reg x (2 * w)) + c.rd (reg x (2 * w + 1)) * 2 ^ 32
def Channel.setDigW (c : Channel) (reg : Nat → Nat → Nat) (x w v : Nat) : Channel :=
  (c.wr (reg x (2 * w)) (v % 2 ^ 32)).wr (reg x (2 * w + 1)) (v / 2 ^ 32 % 2 ^ 32)

/-- The live histogram bins pass to the pressed ones at a press of the watched context (R224), DESIGN CHOICE (log 162): only while MODE is
HIST. -/
def Channel.pressHist (c : Channel) (x : Nat) : Channel :=
  if c.fld Reg.NUM_WCTRL Fl.NUM_WCTRL_MODE = 2 ∧ c.fld Reg.NUM_WCTRL Fl.NUM_WCTRL_CTX = x then
    ((List.range 16).filter (fun s => c.fld (Reg.NUM_WSLOT s) Fl.NUM_WSLOT_AUTOCLR == 1)).foldl (fun c s =>
      ((List.range 64).foldl (fun c b => (c.wr (Reg.NUM_PHIST s b) (c.rd (Reg.NUM_HIST s b))).wr (Reg.NUM_HIST s b) 0) c).wr
        Reg.NUM_WPRESS (c.press x)) c
  else c

/-- The commit of a press (R332): status and result of the STEP command are those of a step that has pressed (R79). -/
def Channel.commit (c : Channel) (x : Nat) : Channel :=
  let t := c.step x
  let late := c.usSince t.voted
  let c1 := c.wr (Reg.CTX_PRESS x) ((c.press x + 1) % 2 ^ 32)
  let c2 := (c1.ownedSites x).foldl (fun c i =>
    ((c.jEmpty i).setFld (Reg.CORE_SPPADDR i) Fl.CORE_SPPADDR_ARMED 0).setCore i { c.core i with reruns := 0 }) c1
  let c3 := (c2.pressHist x).count Reg.UPD_PRESSES 1
  let c4 := (List.range 8).foldl (fun c k => c.wr (Reg.TAT_PDIG x k) (c.rd (Reg.TAT_CDIG x k))) c3
  let c5 := c4.setFld (Reg.UPD_PRESS x) Fl.UPD_PRESS_PHASE 0
  if c.fld (Reg.UPD_PRESS x) Fl.UPD_PRESS_MULTI = 1 then c5.raiseFld Reg.UPD_PMAXLAT Fl.UPD_PMAXLAT_US late else c5

/-- A command in progress ends: its completion is due (R407, R415). A queue whose next command had to wait is looked at again. -/
def Channel.endCmd (c : Channel) (id status detail res : Nat) : Channel :=
  match c.host.cmds.find? (fun k => k.id == id) with
  | none => c
  | some k =>
    let e : Compl := ⟨k.sq, k.cid, k.cq, status, detail, if status = 0 then res else 0⟩
    let h : HostSt := { c.host with cmds := c.host.cmds.filter (fun h => h.id != id), blocked := [], compl := if k.cq < 64 then c.host.compl ++ [e] else c.host.compl }
    Channel.count { c with host := h } Reg.HIF_CMDS 1

/-- The end of the step whose press has committed: STEP completes with OK, the context is READY (R79, R411). -/
def Channel.stepDone (c : Channel) (x : Nat) : Channel :=
  let t := c.step x
  let c1 := (c.setStep x { t with cmd := none, reducing := false }).setCtxState x ctxReady
  match t.cmd with
  | some id => c1.endCmd id 0 0 (c1.press x + c1.rd (Reg.UPD_NORM x) * 2 ^ 32)
  | none => c1

def phIdle : Nat := 0
def phLocal : Nat := 1
def phVoted : Nat := 2
def Channel.phase (c : Channel) (x : Nat) : Nat := c.fld (Reg.UPD_PRESS x) Fl.UPD_PRESS_PHASE

/-- A COMMIT for the step of context x. -/
def Channel.commitStep (c : Channel) (x : Nat) : Channel :=
  if c.phase x = phVoted then
    let c1 := c.commit x
    if c1.ctxState x = ctxStep then c1.stepDone x else c1
  else c

/-- What a member does with the result of a chain collective. `sum` results act in the PERMUTE that waits for them. -/
def Channel.chainDone (c : Channel) (x fr : Nat) (v : ChainVal) : Channel :=
  match v with
  | .norm n2 => c.normKnown x fr n2
  | .sum s => { c with tat := { c.tat with perms := c.tat.perms.map (fun p =>
      if p.ctx = x then { p with bad := s, step := p.step + 1 } else p) } }
  | .votes _ => c.commitStep x

/-- The chain of a kind that context x runs. -/
def Channel.findChain (c : Channel) (x : Nat) (v : ChainVal) : Option Nat := c.tat.chains.findIdx? (fun h => h.ctx == x && sameKind h.val v)

/-- Moves chain i on; at the root it ends. The root of a vote commits only when every member has voted (R391). -/
def Channel.chainStep (c : Channel) (i fr : Nat) : Channel :=
  match c.tat.chains[i]? with
  | none => c
  | some h =>
    let short : Bool := match h.val with | .votes n => n != c.gsize h.ctx | _ => false
    let (c1, h1, done) := c.chainGo 4 h
    if done then
      if short then c.setChains (c.tat.chains.set i { h with dim := 3 })
      else (c1.setChains (c1.tat.chains.eraseIdx i)).chainDone h.ctx fr h.val
    else c1.setChains (c1.tat.chains.set i h1)

/-- A chain collective begins with this channel's own value; an unfit group raises TAT_GROUP (R374). -/
def Channel.chainBegin (c : Channel) (x fr : Nat) (v : ChainVal) : Channel :=
  if !c.groupOk x then c.tatFault x fcTatGroup 0
  else
    let n := c.tat.chains.length
    (c.setChains (c.tat.chains ++ [⟨x, c.press x, v, 0, false⟩])).chainStep n fr

/-- The value of a chain packet, the dimension and whether it is a result. -/
def chainOf (k : Nat) (q : Pkt) : ChainVal × Nat × Bool :=
  if q.ptype = 6 then (.votes (q.fld 0x24 16), k / 2, q.kind == 1)
  else if q.kind = 3 then (.norm (cOfBits (q.dataNat % 2 ^ 64)), q.cdim, k % 2 == 0)
  else (.sum (q.dataNat % 2 ^ 32), q.cdim, k % 2 == 0)

/-- A packet of a chain collective of context x: a result is passed on and acts; a value is combined once this member has its own
in the same dimension, else held. -/
def Channel.chainPktRx (c : Channel) (x k fr : Nat) (q : Pkt) : Channel :=
  let (v, d, result) := chainOf k q
  match c.findChain x v with
  | none => c.holdPkt k q
  | some i =>
    match c.tat.chains[i]? with
    | none => c
    | some h =>
      if result then
        let c1 := c.sendBack x h.ep d v
        (c1.setChains (c1.tat.chains.eraseIdx i)).chainDone x fr v
      else if h.dim = d ∧ !h.got then
        (c.setChains (c.tat.chains.set i { h with val := chainAdd h.val v, got := true })).chainStep i fr
      else c.holdPkt k q

/-- The context a PRESS frame is for: JOB and EPOCH match (R391). -/
def Channel.pressCtx (c : Channel) (q : Pkt) : Option Nat :=
  (List.range 16).find? (fun x => c.fld (Reg.UPD_PRESS x) Fl.UPD_PRESS_MULTI == 1 && c.fld (Reg.TAT_JOB x) Fl.TAT_JOB_JOB == q.fld 0x1E 16
    && (c.press x + 1) % 2 ^ 32 == q.epoch)

/-! ### Parameter gathering (R393, R394) -/

/-- Shards that position p of dimension d brings into that dimension. -/
def Channel.gSource (c : Channel) (g : Gath) (d p : Nat) : List GRec :=
  g.recs.filter (fun r => c.posOf g.ctx d r.owner == p
    && (rangeFrom (d + 1) (2 - d)).all (fun k => coordDim r.owner k == coordDim c.coord k))

/-- The packets of a list of shards in one half: shard, byte offset, bytes. -/
def gPackets (l : List GRec) (half : Nat) : List (GRec × Nat × Nat) :=
  l.flatMap (fun r =>
    let n := ceilDiv r.bytes 2048
    let h := ceilDiv n 2
    ((List.range n).filter (fun j => decide (j < h) == (half == 0))).map (fun j => (r, j * 2048, min 2048 (r.bytes - j * 2048))))

/-- The flight of a gather. -/
def Channel.gFlight (c : Channel) (g : Gath) : Option Flight := (c.strm g.site g.st).flights.find? (fun f => f.ord == g.ord)

/-- Element n of D0 over its capacities (R393). -/
def unlin (d n : Nat) : List Nat :=
  ((List.range (dNdim d)).foldl (fun (r : List Nat × Nat) k => (r.1 ++ [r.2 % max 1 (dCapRaw d k)], r.2 / max 1 (dCapRaw d k))) ([], n)).1

/-- Bytes of a shard at a byte offset, as they stand in D0. -/
def Channel.gRead (c : Channel) (o : Opd) (r : GRec) (off n : Nat) : Nat :=
  let w := dBits o.d
  (List.range (8 * n / w)).foldl (fun x i => x + c.ldCode o (unlin o.d (r.doff + 8 * off / w + i)) <<< (w * i)) 0

def Channel.gWrite (c : Channel) (o : Opd) (r : GRec) (off n x : Nat) : Channel :=
  let w := dBits o.d
  (List.range (8 * n / w)).foldl (fun c i => c.stCode o (unlin o.d (r.doff + 8 * off / w + i)) (bits x (w * i) w)) c

/-- D0 of a gather's instruction. -/
def Channel.gDst (c : Channel) (g : Gath) (f : Flight) : Opd := (c.flightXc g.site g.st f 0).opdW (iD0 f.w)

/-- Sends one packet of a gather at ring step s. -/
def Channel.gSend (c : Channel) (g : Gath) (half s : Nat) (data : List (BitVec 512)) : Channel :=
  let (k, relay) := c.nextHop g.ctx g.dim half
  c.sendPkt k 0 (c.mkColl k g.ctx g.tag 4 g.dim 0 half relay s g.ep g.off 0 data)

def gKey (d half s : Nat) : Nat := (d * 2 + half) * 256 + s

/-- Packets that must come at ring step s of a half, from the owner position that step brings. -/
def Channel.gExpect (c : Channel) (g : Gath) (half s : Nat) : List (GRec × Nat × Nat) :=
  let n := c.elen g.ctx g.dim
  let v := c.vpos g.ctx g.dim half
  gPackets (c.gSource g g.dim (nth 0 (c.order g.ctx g.dim half) ((v + 2 * n - 1 - s) % n))) half

/-- Whether the dimension has brought everything. -/
def Channel.gDimDone (c : Channel) (g : Gath) : Bool :=
  let n := c.elen g.ctx g.dim
  [0, 1].all (fun h => (List.range (n - 1)).all (fun s => (c.gExpect g h s).length == mget (fun _ => 0) g.taken (gKey g.dim h s)))

/-- Starts dimensions of a gather until one has to wait; the flag says that the gather is complete. -/
def Channel.gStart (c : Channel) : Nat → Gath → Channel × Gath × Bool
  | 0, g => (c, g, false)
  | t + 1, g =>
    if 3 ≤ g.dim then (c, g, true)
    else if c.elen g.ctx g.dim ≤ 1 then c.gStart t { g with dim := g.dim + 1 }
    else
      match c.gFlight g with
      | none => (c, g, true)
      | some f =>
        let o := c.gDst g f
        let c1 := [0, 1].foldl (fun c h =>
          (gPackets (c.gSource g g.dim (c.gpos g.ctx g.dim)) h).foldl (fun c e => c.gSend g h 0 (slotsOf (c.gRead o e.1 e.2.1 e.2.2) e.2.2)) c) c
        if c1.gDimDone g then c1.gStart t { g with dim := g.dim + 1 } else (c1, g, false)

/-- The PGATHER of a gather completes: every shard is stored (R394). -/
def Channel.gDone (c : Channel) (g : Gath) : Channel :=
  c.modStr g.site g.st (fun s => { s with flights := s.flights.map (fun f => if f.ord = g.ord then { f with ph := .done } else f) })

/-- Whether a gather takes a packet now. -/
def Gath.takes (g : Gath) (q : Pkt) : Bool :=
  g.ctx == q.ctx && g.tag == q.tag && g.ep == q.epoch && g.off == q.off && g.dim == q.cdim

/-- A PG packet: stored in D0 and passed on, or held (R393). -/
def Channel.gatherPkt (c : Channel) (k : Nat) (q : Pkt) : Channel :=
  match c.tat.gathers.findIdx? (·.takes q) with
  | none => c.holdPkt k q
  | some i =>
    match c.tat.gathers[i]? with
    | none => c
    | some g =>
      match c.gFlight g with
      | none => c
      | some f =>
        let key := gKey g.dim q.half q.cstep
        let m := mget (fun _ => 0) g.taken key
        match (c.gExpect g q.half q.cstep)[m]? with
        | none => c
        | some (r, off, n) =>
          let c1 := c.gWrite (c.gDst g f) r off n q.dataNat
          let c2 := if q.cstep + 2 < c.elen g.ctx g.dim then c1.gSend g q.half (q.cstep + 1) q.data else c1
          let g1 := { g with taken := mset (fun _ => 0) g.taken key (m + 1) }
          let (c3, g2, done) := if c2.gDimDone g1 then c2.gStart 4 { g1 with dim := g1.dim + 1 } else (c2, g1, false)
          let gs := if done then c3.tat.gathers.eraseIdx i else c3.tat.gathers.set i g2
          let c4 := { c3 with tat := { c3.tat with gathers := gs } }
          if done then c4.gDone g2 else c4

/-- A record of D1 (R393). -/
def Xc.gRecord (x : Xc) (j : Nat) : GRec :=
  let o := x.opd (iD1 x.w)
  let e (k : Nat) : Nat := x.c.ldCode o [k, j]
  let vs := e 5
  { owner := e 0 % 2 ^ 16, bytes := e 1 * dBits (x.desc (iD0 x.w)) / 8, doff := e 2,
    src := e 3 + (e 4 % 2 ^ 16) * 2 ^ 32 + (if vs = 0 then 0 else x.run.press % 2 * vs * 4096) }

/-- Whether record j keeps R393's rules. -/
def Xc.gRecOk (x : Xc) (j : Nat) : Bool :=
  let o := x.opd (iD1 x.w)
  let d0 := x.desc (iD0 x.w)
  let e (k : Nat) : Nat := x.c.ldCode o [k, j]
  e 1 * dBits d0 % 512 == 0 && e 2 * dBits d0 % 512 == 0 && decide (e 2 + e 1 ≤ capProduct d0) && x.c.isMember (x.owner.getD 0) (e 0)
  && e 6 == 0 && e 7 == 0

/-- The owner's own shards go from SRC into its D0. -/
def Xc.gOwn (x : Xc) (c : Channel) (rs : List GRec) : Channel :=
  (rs.filter (fun r => r.owner == c.coord)).foldl (fun c r => c.gWrite (x.opdW (iD0 x.w)) r 0 r.bytes (c.ldN r.src r.bytes)) c

def Xc.pgRun (x : Xc) (f : Flight) : Channel × Flight :=
  let d1 := x.desc (iD1 x.w)
  let n := dExt d1 1
  let js := List.range n
  let c0 := x.c.modRun x.site x.rc (fun r => { r with pg := r.pg + 1 })
  let chk (j : Nat) : Option Ovf :=
    match ovfAt 1 (iD1 x.w) d1 false [7, j] with
    | some o => some o
    | none => if x.gRecOk j then none else some ⟨1, 5, iD1 x.w, n, dCapRaw d1 1, j⟩
  match js.findSome? (fun j => (chk j).map (fun o => (j, o))) with
  | some (j, o) => x.endWalk (x.gOwn c0 ((List.range j).map x.gRecord), some o) f
  | none =>
    let rs := js.map x.gRecord
    let own := x.owner.getD 0
    if !x.c.groupOk own then (c0.tatFault own fcTatGroup 0, { f with ph := .gather })
    else
      let c1 := x.gOwn c0 rs
      let g : Gath := { recs := rs, site := x.site, st := x.st, ord := f.ord, ctx := own, ep := x.c.press own,
                        tag := x.site * 2 ^ 9 + x.run.pg % 2 ^ 9, off := x.run.mb % 2 ^ 12 + kindCode x.run.kind * 2 ^ 12, dim := 0, taken := [] }
      -- the flight is not yet in its stream while the first packets are read, so they are read through this instruction
      let c2 := c1.modStr x.site x.st (fun s => { s with flights := s.flights ++ [f] })
      let (c3, g1, done) := c2.gStart 4 g
      let c4 := c3.modStr x.site x.st (fun s => { s with flights := s.flights.dropLast })
      if done then (c4, f)
      else ({ c4 with tat := { c4.tat with gathers := c4.tat.gathers ++ [g1] } }, { f with ph := .gather })

def specPgather : OpSpec :=
  { specBase with
    opc := 0x242
    streams := fun s => s != .u
    legal := tOk ⟨true, true, false, false, false, false, false, 0, 0, false⟩
    roles := fun _ w => [rRd (iD1 w) 1, rWr (iD0 w) 0]
    bad := fun x =>
      let d1 := x.desc (iD1 x.w)
      let m := dFmt (x.desc (iD0 x.w))
      if !(fmQ8 m || fmHS m) then some fcDescFormat
      else if !fmI (dFmt d1) || decide (dCap d1 0 < 8) then some fcShapeMismatch else none
    zero := fun x => dExt (x.desc (iD1 x.w)) 1 == 0
    writes := fun _ => true
    run := fun x f => x.pgRun f }

/-! ### Packets held for collectives that had not begun (R385) -/

/-- Whether a held packet has a collective that takes it now. -/
def Channel.ready (c : Channel) (e : Nat × Pkt) : Bool :=
  let (k, q) := e
  if q.ptype = 6 then
    match c.pressCtx q with
    | some x => c.tat.chains.any (fun h => h.ctx == x && sameKind h.val (.votes 0) && (q.kind == 1 || h.dim == k / 2 && !h.got))
    | none => false
  else if q.kind ≤ 2 then c.tat.passes.any (·.takes q)
  else if q.kind = 4 then c.tat.gathers.any (·.takes q)
  else
    let (v, d, res) := chainOf k q
    c.tat.chains.any (fun h => h.ctx == q.ctx && sameKind h.val v && (res || h.dim == d && !h.got))

/-- One collective packet that no epoch or ECRC rule discards goes to its collective. -/
def Channel.collDeliver (c : Channel) (fr k : Nat) (q : Pkt) : Channel :=
  if q.ptype = 6 then
    match c.pressCtx q with
    | some x => c.chainPktRx x k fr q
    | none => c
  else if q.kind ≤ 2 then c.passPkt k q
  else if q.kind = 4 then c.gatherPkt k q
  else c.chainPktRx q.ctx k fr q

/-- Delivers held packets until none is ready. -/
def Channel.drainHeld (fr : Nat) : Nat → Channel → Channel
  | 0, c => c
  | n + 1, c =>
    match c.tat.held.find? c.ready with
    | none => c
    | some e => Channel.drainHeld fr n ({ c with tat := { c.tat with held := eraseFirst e c.tat.held } }.collDeliver fr e.1 e.2)

def Channel.pumpHeld (c : Channel) (fr : Nat) : Channel := Channel.drainHeld fr c.tat.held.length c

/-- The norm of a context starts once every owned core has contributed; a core whose U program has ended contributes then (R320). -/
def Channel.normPump (c : Channel) (x fr : Nat) : Channel :=
  if c.ctxState x ≠ ctxStep then c
  else
    let c1 := (c.ownedSites x).foldl (fun c i => if (c.core i).uDone && !(c.core i).normSent then c.normSend i else c) c
    let t := c1.step x
    if t.known.isNone && (c1.findChain x (.norm czero)).isNone && (c1.ownedSites x).all (fun i => t.sent.contains i) && !t.sent.isEmpty then
      let own := if (List.range 3).any (fun d => c1.grpF x d Fl.TAT_GRP_REPL == 1 && c1.elen x d != 1 && c1.gpos x d != 0) then czero else t.norm
      (c1.chainBegin x fr (.norm own)).pumpHeld fr
    else c1

end Sys2Proof.Machine
end

