-- ==== Sys2Proof/Machine/Runs.lean ====
section
/-! DEFINITION. Runs and streams, the waits of streams and their ends, slabs and drains, completion, parity re-runs, the watch's
checks (R71 to R80, R119, R121, R125, R136 to R141, R164, R173, R222, R255 to R258). -/

namespace Sys2Proof.Machine

open Sys2Proof

/-- The meaning of every opcode; an opcode of no instruction is never legal (R94). -/
def specOf (opc : Nat) : OpSpec :=
  match opc with
  | 0x000 => specNop
  | 0x001 => specEnd
  | 0x002 => specJump
  | 0x003 => specLset
  | 0x004 => specLoop
  | 0x005 => specFset
  | 0x006 => specFtest
  | 0x040 => specTwait
  | 0x041 => specTsig
  | 0x042 => specTset
  | 0x043 => specRsig
  | 0x044 => specDrain
  | 0x080 => specDload
  | 0x081 => specDset
  | 0x082 => specDshape
  | 0x0C0 => specMatmul
  | 0x0C1 => specMatmulS24
  | 0x0C2 => specMatmulBsp
  | 0x0C3 => specConv1
  | 0x0C4 => specGathermm
  | 0x100 => specAttn
  | 0x101 => specAttnSel
  | 0x102 => specAttnBwd
  | 0x140 => specEw1
  | 0x141 => specEw2
  | 0x142 => specEw3
  | 0x143 => specCvt
  | 0x144 => specPrescan
  | 0x145 => specRownorm
  | 0x180 => specReduce
  | 0x181 => specTopk
  | 0x182 => specRoute
  | 0x1C0 => specCopy
  | 0x1C1 => specGather
  | 0x1C2 => specScatter
  | 0x1C3 => specSend
  | 0x1C4 => specRecv
  | 0x1C5 => specBswap
  | 0x1C6 => specOffload
  | 0x1C7 => specPrefetch
  | 0x200 => specNormp
  | 0x201 => specNormw
  | 0x202 => specUpdSgdm
  | 0x203 => specUpdAdam
  | 0x204 => specUpdPrec
  | 0x205 => specUpdEmb
  | 0x206 => specSnap
  | 0x240 => specBkadd
  | 0x241 => specBkclose
  | 0x242 => specPgather
  | n => { specBase with opc := n, legal := fun _ => false }

/-! ### Waits that end -/

/-- The context of a flight that runs again. -/
def Channel.againXc (c : Channel) (i : Nat) (st : Strm) (early : List Flight) (f : Flight) (fr : Nat) : Xc :=
  (c.modStr i st (fun y => { y with flights := early })).flightXc i st f fr

/-- Runs the last instruction of a stream again, where it waits in phase p. -/
def Channel.rerunLast (c : Channel) (i : Nat) (st : Strm) (p : Phase) (fr : Nat) : Channel :=
  match (c.strm i st).flights.reverse with
  | [] => c
  | f :: early =>
    if f.ph = p ∧ ((c.core i).rcOf f.rc).isSome then
      let sp := specOf (iOpc f.w)
      let x := c.againXc i st early.reverse f fr
      let g := { f with ph := .done }
      let (c1, f1) := if sp.zero x then sp.zeroRun x g else sp.run x g
      c1.launch i st f1
    else c

/-- The U streams of a context whose norm is known go on (R321). -/
def Channel.wakeNorm (c : Channel) (x fr : Nat) : Channel :=
  if (c.step x).known.isSome then
    (c.ownedSites x).foldl (fun c i => c.rerunLast i .u .norm (fr + i)) c
  else c

/-- The norm of a context starts and ends where it can; then whoever waits for it goes on. -/
def Channel.normAll (c : Channel) (x fr : Nat) : Channel := (c.normPump x fr).wakeNorm x (fr + 1)

/-- What follows of itself after an event at a stream: completion in order, an instruction whose hazard has gone, frames that can
move, the norm (R123, R125, R180, R182, R320). -/
def Channel.after (c : Channel) (i : Nat) (st : Strm) (fr : Nat) : Channel :=
  let c1 := (((c.completeAll i st).settle specOf i st fr).pumpSends i).pumpRecvs i
  match (c1.core i).owner with
  | some x => c1.normAll x (fr + 1)
  | none => c1

/-- A command at a stream, and what follows of it; uses 128 of the counter of free values. -/
def State.atStream (s : State) (p : Place) (g : Channel → Nat → Channel) : State :=
  { s.onChan p.ch (fun c => if c.usable p.site.val then (g c s.free).after p.site.val p.st (s.free + 1) else c) with free := s.free + 128 }

/-! ### Instructions whose issue may end a wait of others -/

def execEndRun (p : Place) (w : IWord) (s : State) : Outc := .next ((s.issueAt specEnd p w 0).atStream p (fun c _ => c))
def execNormp (p : Place) (w : IWord) (s : State) : Outc := .next (s.issueAt specNormp p w 0)
def execNormw (p : Place) (w : IWord) (s : State) : Outc := .next ((s.issueAt specNormw p w 0).atStream p (fun c _ => c))
def execUpdSgdm (p : Place) (w : IWord) (s : State) : Outc := .next ((s.issueAt specUpdSgdm p w 0).atStream p (fun c _ => c))
def execUpdAdam (p : Place) (w : IWord) (s : State) : Outc := .next ((s.issueAt specUpdAdam p w 0).atStream p (fun c _ => c))
def execUpdPrec (p : Place) (w : IWord) (s : State) : Outc := .next ((s.issueAt specUpdPrec p w 0).atStream p (fun c _ => c))
def execUpdEmb (p : Place) (w : IWord) (s : State) : Outc := .next ((s.issueAt specUpdEmb p w 0).atStream p (fun c _ => c))
def execSnap (p : Place) (w : IWord) (s : State) : Outc := .next (s.issueAt specSnap p w 0)

/-- PGATHER; packets that came before it are taken at once (R385). -/
def execPgather (p : Place) (w : IWord) (s : State) : Outc :=
  .next ((s.issueAt specPgather p w 0).atStream p (fun c fr => c.pumpHeld fr))

/-! ### Tacks and completion -/

/-- A stream whose tack wait is met subtracts and issues on (R119, R121). -/
def Channel.tackDone (c : Channel) (i : Nat) (st : Strm) (fr : Nat) : Channel :=
  let k := c.core i
  let s := k.str st
  match s.tackWait with
  | none => c
  | some (t, v) =>
    let n := c.tack i t
    if n < v ∨ k.servedBefore st t n then c
    else
      let c1 := c.setTack i t (n - v)
      match s.wait with
      | .header w follow =>
        (c1.modStr i st (fun x => Stream.mark { x with wait := .none } k.ord true)).issueGo (specOf (iOpc w)) i st w follow fr
      | _ =>
        c1.modStr i st (fun x => Stream.mark { x with
          wait := .none, flights := x.flights.map (fun f => if f.ph = .tack then { f with ph := .done } else f) } k.ord false)

def execTackWaitDone (p : Place) (s : State) : Outc := .next (s.atStream p (fun c fr => c.tackDone p.site.val p.st fr))

/-- The instruction at the head of a stream completes once everything that it writes is stored; a SEND, once every line of it
has arrived (R125). -/
def Channel.headDone (c : Channel) (i : Nat) (st : Strm) : Channel :=
  match (c.strm i st).flights with
  | [] => c
  | f :: t =>
    if f.ph = .done ∧ !c.qlines.any (fun e => e.src == i && e.ord == f.ord) then
      (c.modStr i st (fun x => { x with flights := t })).finish i st f
    else c

def execInstructionComplete (p : Place) (s : State) : Outc := .next (s.atStream p (fun c _ => c.headDone p.site.val p.st))

/-! ### Runs (R71 to R80, R164) -/

def entryKind (e : Nat) : Nat := bits e 0 2
def entryMb (e : Nat) : Nat := bits e 2 12

/-- M of a context. -/
def Channel.mbs (c : Channel) (x : Nat) : Nat := c.fld (Reg.CTX_STATE x) Fl.CTX_STATE_MB

/-- Starts a stream at an address for a run in run context rc. -/
def Core.startStream (k : Core) (st : Strm) (ip : Nat) (rc : Rc) (info : RunInfo) (last : Bool) : Core :=
  let k1 := k.setRc rc (some info)
  k1.setStr st (Stream.mark { Stream.reset with pc := ip, cf := startFlags info.kind last, run := some rc, flights := (k.str st).flights } k.ord false)

/-- The descriptor table of a core as its register cells that do not read as at reset. -/
def Channel.descCells (c : Channel) (i : Nat) : List (Nat × Word) :=
  let lo := Reg.CORE_DESC i 0 0
  c.regs.filter (fun e => decide (lo ≤ e.1) && decide (e.1 < lo + 0x8000))

/-- What a core holds when it begins to walk its run list for a step. -/
def Core.newStep (k : Core) (fillers : Nat) : Core :=
  { k with
    pos := none, again := false, fillers := fillers, uStarted := false, uDone := false, normp := false, normSent := false, normed := false,
    closed := [], descCopy := none }

/-- Begins an entry of a core's run list, number n (R72, R73, R77, R107, R182). -/
def Channel.runEntry (c : Channel) (i x n : Nat) (k : Core) : Channel :=
  let e := nth 3 k.runList n
  let k1 := { k with pos := some n }
  if entryKind e = 3 then c.setCore i (if k.again then k1.newStep (c.step x).fillers else k1)
  else
    match (if k.rc0.isNone then some Rc.r0 else if k.rc1.isNone then some Rc.r1 else none) with
    | none => c
    | some rc =>
      let es := ((k.runList.take n).filter (fun y => entryKind y == 2)).length
      let kind : RunKind := match entryKind e with | 0 => .f | 1 => .b | _ => .e
      let mb := if kind = .e then es else entryMb e
      let info : RunInfo :=
        { kind := kind, mb := mb, config := c.config x, press := c.press x, unset := kind == .e && k.stage != 0,
          skip := kind == .e && k.stage == 0 && decide (k.fillers ≤ es), pg := 0 }
      let st : Strm := if kind = .b then .b else .f
      let k2 := if k.again then k1 else { k1 with descCopy := some (k.descCopy.getD (c.descCells i)) }
      c.setCore i (k2.startStream st (if kind = .b then k.bIp else k.fIp) rc info (decide (mb + 1 = c.mbs x)))

/-- A core's next run: of its step, or what is left of the last one, which it finishes first (R72, R80). -/
def Channel.runBegin (c : Channel) (i : Nat) : Channel :=
  let k := c.core i
  match k.owner with
  | none => c
  | some x =>
    let n : Nat := match k.pos with | some p => p + 1 | none => 0
    let ended : Bool := match k.pos with | some p => entryKind (nth 3 k.runList p) == 3 | none => false
    let may := c.ctxState x = ctxStep ∨ (c.ctxState x = ctxReady ∧ k.pos.isSome)
    if ¬may ∨ ended ∨ k.runList.length ≤ n ∨ k.f.run.isSome ∨ k.b.run.isSome then c else c.runEntry i x n k

def execRunBegin (ch : Chan) (site : Site) (s : State) : Outc :=
  .next (s.onChan ch (fun c => if c.usable site.val then c.runBegin site.val else c))

/-- Starts the U program once the last B run of the step has issued its last instruction (R75, R319, R321). -/
def Channel.uBegin (c : Channel) (i : Nat) : Channel :=
  let k := c.core i
  match k.owner, k.pos with
  | some x, some p =>
    if c.ctxState x ≠ ctxStep ∨ k.again ∨ k.uStarted ∨ (k.runList.drop (p + 1)).any (fun e => entryKind e == 1) ∨ k.b.run.isSome then c
    else
      let c1 := (c.setNormAcc i czero).wr (Reg.CORE_CLIP i) fone
      let info : RunInfo := ⟨.u, 0, c.config x, c.press x, false, false, 0⟩
      c1.setCore i (Core.startStream { k with uStarted := true, normp := false, normSent := false, normed := false } .u k.uIp .u info true)
  | _, _ => c

def execUStreamStart (ch : Chan) (site : Site) (s : State) : Outc :=
  .next (s.onChan ch (fun c => if c.usable site.val then c.uBegin site.val else c))

/-- A U stream that waited for an E run goes on if none reads its buffer any more (R78). -/
def Channel.versionEnd (c : Channel) (i fr : Nat) : Channel :=
  match (c.strm i .u).flights.getLast? with
  | none => c
  | some f =>
    let x := c.flightXc i .u f fr
    if x.versionHeld (iOpc f.w) ((specOf (iOpc f.w)).roles x.desc f.w) then c else c.rerunLast i .u .version fr

def execVersionWaitEnd (ch : Chan) (site : Site) (s : State) : Outc :=
  .next (s.atStream ⟨ch, site, .u⟩ (fun c fr => c.versionEnd site.val fr))

/-- A contribution that waited for a place goes on (R379). -/
def execBucketSlotFree (p : Place) (s : State) : Outc :=
  .next (s.atStream p (fun c fr => c.rerunLast p.site.val p.st .slot fr))

/-! ### Slabs and drains -/

def isAttn (opc : Nat) : Bool := opc == 0x100 || opc == 0x101 || opc == 0x102

/-- Puts back a flight after a step; a producer that ends or stops takes the instruction paired with it along (R271). -/
def putFlight (l : List Flight) (n : Nat) (f : Flight) : List Flight :=
  let l1 := l.set n f
  match l1[n + 1]? with
  | some g =>
    if g.ph = .fused ∧ f.ph = .done then l1.set (n + 1) { g with ph := .done }
    else if g.ph = .fused ∧ f.ph = .stopped then l1.set (n + 1) { g with ph := .stopped }
    else l1
  | none => l1

/-- Stores flight n of a stream after a step of it. -/
def Channel.putStep (c : Channel) (i : Nat) (st : Strm) (n : Nat) (f : Flight) : Channel :=
  c.modStr i st (fun x => { x with flights := putFlight x.flights n f, wait := if f.ph = .stopped then .fault else x.wait })

/-- The first flight of a stream that g can move, moved. -/
def Channel.stepFirst (c : Channel) (i : Nat) (st : Strm) (g : Nat → Flight → StepRes) : List Nat → Channel
  | [] => c
  | n :: t =>
    match (c.strm i st).flights[n]? with
    | none => c
    | some f =>
      match g n f with
      | some (c1, f1) => c1.putStep i st n f1
      | none => c.stepFirst i st g t

def Channel.flightNums (c : Channel) (i : Nat) (st : Strm) : List Nat := List.range (c.strm i st).flights.length

/-- Whether the clock of a site's array is stopped (R55). -/
def Channel.arrayGated (c : Channel) (i : Nat) : Bool :=
  c.fld Reg.PWR_STATUS (if i % 10 < 5 then Fl.PWR_STATUS_GATED_W else Fl.PWR_STATUS_GATED_E) == 1

/-- A slab, or an attention slot, of the stream's first walking instruction that has one ready (R136, R145, R148, R173). -/
def Channel.slabStep (c : Channel) (i : Nat) (st : Strm) (ecc : List (Nat × Ecc)) (fr : Nat) : Channel :=
  if c.arrayGated i then c else c.stepFirst i st (fun _ f =>
    if f.ph = .walk then
      let x := c.flightXc i st f fr
      if isAttn (iOpc f.w) then x.attStep c f ecc else x.mmStep c f ecc
    else none) (c.flightNums i st)

/-- SLAB_ENTER; an uncorrectable error in the core's own structures keeps the slab out (R454). `ecc`: what the PE ports find in the elements
that they read (R228). -/
def execSlabEnter (p : Place) (err : CoreErr) (s : State) (ecc : List (Fin 4096 × Ecc) := []) : Outc :=
  .next (s.atStream p (fun c fr =>
    let c1 := c.coreErr p.site.val err
    match err with
    | .double _ _ => c1
    | _ => c1.slabStep p.site.val p.st (ecc.map (fun e => (e.1.val, e.2))) fr))

/-- The oldest bobbin that waits to drain; an instruction that a fault stopped still makes the drains it started (R137, R148, R154, R271). -/
def Channel.drainStep (c : Channel) (i : Nat) (st : Strm) (ecc : List (Nat × Ecc)) (fr : Nat) : Channel :=
  c.stepFirst i st (fun n f =>
    if f.ph = .walk ∨ f.ph = .stopped then
      let x := c.flightXc i st f fr
      if isAttn (iOpc f.w) then x.attDrain c f ecc
      else x.mmDrain c f (f.takes (c.strm i st).flights[n + 1]?) ecc
    else none) (c.flightNums i st)

def execBobbinDrain (p : Place) (ecc : List (Fin 4096 × Ecc)) (s : State) : Outc :=
  .next (s.atStream p (fun c fr => c.drainStep p.site.val p.st (ecc.map (fun e => (e.1.val, e.2))) fr))

/-- An instruction that waited for bobbins of another stream starts if they are free (R140). -/
def Channel.bobbinStart (c : Channel) (i : Nat) (st : Strm) (fr : Nat) : Channel :=
  c.stepFirst i st (fun _ f =>
    if f.ph = .bobbins then
      let x := c.flightXc i st f fr
      if isAttn (iOpc f.w) then some (x.attStart c f)
      else if iOpc f.w = 0x180 then some (specReduce.run x f)
      else some (x.mmStart c f)
    else none) (c.flightNums i st)

def execBobbinWaitEnd (p : Place) (s : State) : Outc := .next (s.atStream p (fun c fr => c.bobbinStart p.site.val p.st fr))

/-! ### Parity (R254 to R258) -/

/-- Notes n words found in error; the record is captured while it is not valid. -/
def Channel.parityNote (c : Channel) (i source word n : Nat) : Channel :=
  let c1 := c.count (Reg.CORE_SPPAR i) n
  if c1.fld (Reg.CORE_SPPADDR i) Fl.CORE_SPPADDR_VALID = 1 then c1
  else ((c1.setFld (Reg.CORE_SPPADDR i) Fl.CORE_SPPADDR_VALID 1).setFld (Reg.CORE_SPPADDR i) Fl.CORE_SPPADDR_SOURCE source).setFld
    (Reg.CORE_SPPADDR i) Fl.CORE_SPPADDR_WORD word

def Channel.parityFault (c : Channel) (i word : Nat) : Channel :=
  c.raise (mkFault i fcSpParity (c.core i).owner (c.rd (Reg.CORE_SPPADDR i)) (spadBase i + 4 * word))

/-- The re-run of a stream's window; a run whose END has issued within it goes on (R257). -/
def Channel.reissue (c : Channel) (i : Nat) (st : Strm) (word : Nat) : Channel :=
  let a := Reg.CORE_SPPADDR i
  let c1 := ((c.setFld a Fl.CORE_SPPADDR_WORD word).setFld a Fl.CORE_SPPADDR_ARMED 1).count (Reg.CORE_SPRERUN i) 1
  let c2 := c1.modStr i st (fun x => { x with
    run := if x.run.isSome then x.run else x.flights.getLast?.map (·.rc), pc := x.rePc, lc := x.reLc, cf := x.reCf + x.cf / 64 * 64, wait := .none, skipHdr := x.reHdr, rerun := true, winRd := [],
    flights := x.flights.filter (fun f => decide (f.ord < x.reOrd)) })
  let k := c2.core i
  c2.setCore i { k with
    reruns := k.reruns + 1
    check := k.check.filter (fun e => !(e.st == st && decide ((k.str st).reOrd ≤ e.ord))) }

/-- A parity error charged to a stream: a re-run of its window, or SP_PARITY (R257, R258). -/
def Channel.parityAt (c : Channel) (i : Nat) (st : Strm) (word : Nat) : Channel :=
  let s := c.strm i st
  if s.run.isNone && s.flights.isEmpty then c
  else
    let a := Reg.CORE_SPPADDR i
    let armed := c.fld a Fl.CORE_SPPADDR_ARMED = 1 ∧ c.fld a Fl.CORE_SPPADDR_WORD = word
    let c1 := c.parityNote i (strmNum st) word 1
    if !s.rerun ∨ armed ∨ 16 ≤ (c.core i).reruns then (c1.parityFault i word).modStr i st (fun x => { x with wait := .fault })
    else c1.reissue i st word

def execParityRerun (p : Place) (word : Fin 524288) (s : State) : Outc :=
  .next (s.atStream p (fun c _ => c.parityAt p.site.val p.st word.val))

/-- A darning read-back or sub-port 0 read is repeated; `again`: the repeat fails too (R258). -/
def execSubportReadRepeat (ch : Chan) (site : Site) (word : Fin 524288) (again : Bool) (s : State) : Outc :=
  .next (s.onChan ch (fun c =>
    if c.usable site.val then
      let c1 := c.parityNote site.val 3 word.val (if again then 2 else 1)
      if again then c1.parityFault site.val word.val else c1
    else c))

/-! ### The watch (R222) -/

/-- The check unit of a core ends its check. -/
def Channel.watchEnd (c : Channel) (i : Nat) : Channel :=
  let k := c.core i
  match k.check with
  | none => c
  | some e =>
    match e.ready with
    | none => c
    | some (dis, d) =>
      let c1 := (((c.setCore i { k with check := none }).count Reg.NUM_ACHECK 1).raiseFld Reg.NUM_AMAX Fl.NUM_AMAX_D d)
      if !dis then c1
      else
        let c2 := c1.count Reg.NUM_ADIS 1
        let c3 := if c2.fld Reg.NUM_AREC Fl.NUM_AREC_VALID = 1 then c2
          else (c2.wr Reg.NUM_AREC (1 + i * 2 + strmNum e.st * 2 ^ 8 + e.opc * 2 ^ 10)).wr Reg.NUM_ARECD d
        if c3.fld Reg.NUM_WCTRL Fl.NUM_WCTRL_AFAULT = 1 then
          c3.raise (mkFault i fcWatchDisagree k.owner (c3.rd Reg.NUM_AREC) (c3.rd Reg.NUM_ARECD))
        else c3

def execWatchCheck (ch : Chan) (site : Site) (s : State) : Outc :=
  .next (s.onChan ch (fun c => if c.usable site.val then c.watchEnd site.val else c))

end Sys2Proof.Machine
end

