-- ==== Sys2Proof/Machine/Faults.lean ====
section
/-! DEFINITION. The fault unit, the trouble log, parameter loss, fences, the rinse (R60, R91, R118, R138, R197, R374, R398, R418, R420,
R449 to R475). -/

namespace Sys2Proof.Machine

open Sys2Proof

/-! ### Events (R26, R420, R421) -/

/-- Whether an MSI-X message of this channel leaves the module. -/
def Channel.msiUp (c : Channel) : Bool :=
  c.way.link && c.way.pcie && !c.way.d3 && !c.way.held && c.fld Reg.PWR_STATUS Fl.PWR_STATUS_STATE != 4
  && c.fld Reg.DWG_STATUS Fl.DWG_STATUS_PHASE != 8

/-- A word of the MSI-X table at reset: every vector masked, as PCI Express has it (R421, log 112). -/
def vecDefault (k : Nat) : Word := if k % 4 = 3 then 1 else 0

/-- The mask bit of a vector (R421). -/
def Channel.vecMasked (c : Channel) (vec : Nat) : Bool := bit (mget vecDefault c.vecs.table (4 * vec + 3)).toNat 0

/-- Sends a vector: the message leaves, or where the vector is masked its pending bit is set (R421). -/
def Channel.msix (c : Channel) (vec : Nat) : Channel :=
  if !c.msiUp then c
  else if !c.vecMasked vec then c.emit (.msix c.num vec)
  else if vec ∈ c.vecs.pend then c
  else { c with vecs := { c.vecs with pend := vec :: c.vecs.pend } }

/-- Whether a BAR0 offset lies in the MSI-X table or in the pending bits (R402). -/
def inMsix (a : Nat) : Bool := decide (0x300_0000 ≤ a) && decide (a < 0x300_8100)

/-- What word k of the table keeps of v: of a vector's control word bit 0 alone; the low two bits of its address are 0. -/
def msixWord (k v : Nat) : Nat := if k % 4 = 3 then v % 2 else if k % 4 = 0 then v / 4 * 4 else v

/-- Lets a pending vector go that is no longer masked (R421). -/
def Channel.vecGo (c : Channel) (vec : Nat) : Channel :=
  if vec ∈ c.vecs.pend ∧ !c.vecMasked vec ∧ c.msiUp then
    Channel.msix { c with vecs := { c.vecs with pend := eraseFirst vec c.vecs.pend } } vec
  else c

/-- A write to the MSI-X table; the pending bits are read-only (R402, R421). -/
def Channel.msixWrite (c : Channel) (a v : Nat) : Channel :=
  if a % 4 ≠ 0 ∨ 0x300_8000 ≤ a then c
  else
    let k := (a - 0x300_0000) / 4
    Channel.vecGo { c with vecs := { c.vecs with table := mset vecDefault c.vecs.table k (BitVec.ofNat 32 (msixWord k v)) } } (k / 4)

/-- A read there. -/
def Channel.msixRead (c : Channel) (a : Nat) : Nat :=
  if 0x300_8000 ≤ a then (List.range 32).foldl (fun x i => x + b2n (decide (8 * (a - 0x300_8000) + i ∈ c.vecs.pend)) * 2 ^ i) 0
  else (mget vecDefault c.vecs.table ((a - 0x300_0000) / 4)).toNat

/-- Raises event e: its bit, and its vector where the bit was 0. -/
def Channel.event (c : Channel) (e : Nat) : Channel :=
  let p := c.fld Reg.HIF_EVPEND Fl.HIF_EVPEND_PEND
  if bit p e then c
  else
    let c1 := c.setFld Reg.HIF_EVPEND Fl.HIF_EVPEND_PEND (p + 2 ^ e)
    if c1.fld (Reg.HIF_EV e) Fl.HIF_EV_EN = 1 then c1.msix (c1.fld (Reg.HIF_EV e) Fl.HIF_EV_VEC) else c1

/-! ### The trouble log (R472 to R475) -/

def Channel.rphase (c : Channel) : Nat := c.fld Reg.FLT_STATUS Fl.FLT_STATUS_PHASE
def Channel.setRphase (c : Channel) (v : Nat) : Channel := c.setFld Reg.FLT_STATUS Fl.FLT_STATUS_PHASE v

/-- Unread entries. -/
def Channel.unread (c : Channel) : Nat := (c.rd Reg.FLT_LOGSEQ + 2 ^ 32 - c.rd Reg.FLT_LOGACK) % 2 ^ 32

/-- Writes an entry. -/
def Channel.logEntry (c : Channel) (m : FaultMsg) (action : Nat) : Channel :=
  let seq := c.rd Reg.FLT_LOGSEQ
  let old := c.unread
  let inr := c.rphase ≠ 0
  let rid := if inr then c.rinse.first.origin + c.rinse.first.oseq * 2 ^ 16 else 0
  let ws : List Nat :=
    [c.ts % 2 ^ 32, c.ts / 2 ^ 32 % 2 ^ 32, seq,
     m.code.toNat + (action + 8 * b2n inr) * 2 ^ 8 + m.node.val * 2 ^ 16 + (m.ctx.val + 16 * b2n m.ctxv) * 2 ^ 24,
     m.arg0.toNat, rid, m.arg1.toNat % 2 ^ 32, m.arg1.toNat / 2 ^ 32]
  let c1 := (ws.zip (List.range 8)).foldl (fun c e => c.wr (Reg.FLT_LOG (seq % 4096) e.2) e.1) c
  let c2 := c1.wr Reg.FLT_LOGSEQ ((seq + 1) % 2 ^ 32)
  if old = 4096 then (c2.wr Reg.FLT_LOGACK ((c2.rd Reg.FLT_LOGACK + 1) % 2 ^ 32)).count Reg.FLT_LOGLOST 1
  else
    let th := c2.fld Reg.FLT_LOGCTRL Fl.FLT_LOGCTRL_THRESH
    if th ≠ 0 ∧ old + 1 = th then c2.event 10 else c2

/-- A record of QSEQ (action RECORD). -/
def Channel.record (c : Channel) (code : Nat) (x : Option Nat) (arg0 arg1 : Nat) : Channel := c.logEntry (mkFault 100 code x arg0 arg1) 5

/-! ### Parameter loss (R456 to R458) -/

/-- Records PARAM_LOSS for a context. -/
def Channel.paramLoss (c : Channel) (x arg0 arg1 : Nat) : Channel :=
  let l := c.fld Reg.FLT_LOSS Fl.FLT_LOSS_CTX
  (c.record 0x17 (some x) arg0 arg1).setFld Reg.FLT_LOSS Fl.FLT_LOSS_CTX (setBits l x 1 1)

def Channel.pmapBase (c : Channel) : Nat := c.fld Reg.FLT_PMAPL Fl.FLT_PMAPL_ADDR * 64 + c.fld Reg.FLT_PMAPH Fl.FLT_PMAPH_ADDR * 2 ^ 32
def Channel.pmapLen (c : Channel) : Nat := min 65536 (c.fld Reg.FLT_PMAPN Fl.FLT_PMAPN_N)

/-- The contexts that have an entry in the parameter map. -/
def Channel.pmapCtxs (c : Channel) : List Nat :=
  (List.range 16).filter (fun x => (List.range c.pmapLen).any (fun n => c.ldN (c.pmapBase + 16 * n + 6) 1 % 16 == x))

/-- Whether entry n of the parameter map makes an address pressed state, and of which context. -/
def Channel.pmapHit (c : Channel) (n a : Nat) : Option Nat :=
  let p := c.pmapBase + 16 * n
  let base := c.ldN p 6
  let k := c.ldN (p + 6) 1
  let sz := c.ldN (p + 8) 4 * 4096
  let x := k % 16
  let inBuf (b : Nat) : Bool := decide (base + b * sz ≤ a) && decide (a < base + (b + 1) * sz)
  let hit := if !bit k 4 then inBuf 0
             else if c.phase x = phVoted then inBuf 0 || inBuf 1
             else inBuf (c.press x % 2)
  if hit then some x else none

/-- QSEQ classifies an address by the map as it reads it; an uncorrectable word of the map puts every context with an entry in loss instead.
`raws`: the words of the map as found. -/
def Channel.classify (c : Channel) (code a : Nat) (raws : RawWords := []) : Channel :=
  let r := (c.readRaws c.pmapBase (16 * c.pmapLen) raws).1
  match (rawsIn raws c.pmapBase (16 * c.pmapLen)).find? (fun e => (dec36 e.2).2 == 2) with
  | some e => r.pmapCtxs.foldl (fun d x => d.paramLoss x (match c.row e.1 with | .tier _ => fcTierUncorr | _ => fcMemUncorr) e.1) r
  | none =>
    (List.range r.pmapLen).foldl (fun d n =>
      match r.pmapHit n a with
      | some x => d.paramLoss x code a
      | none => d) r

/-! ### Views (R460, R461, R463) -/

/-- The partner of a port: as recorded, else the neighbour it should meet. -/
def Channel.partner (c : Channel) (k : Nat) : Nat :=
  if c.fld (Reg.YLP_PARTNER k) Fl.YLP_PARTNER_VALID = 1 then c.fld (Reg.YLP_PARTNER k) Fl.YLP_PARTNER_COORD else c.neighbour k

/-- The jobs and lost channels of the channel's own view. -/
def Channel.ownView (c : Channel) : RView :=
  { rids := []
    jobs := ((List.range 16).filter (fun x => c.fld (Reg.UPD_PRESS x) Fl.UPD_PRESS_MULTI == 1)).map
      (fun x => (c.fld (Reg.TAT_JOB x) Fl.TAT_JOB_JOB, c.press x))
    lost := ((List.range 6).filter (fun k =>
      let s := c.pstate k
      s == psLost || s == psDown || s == psMiswired && (c.port k).confirmed)).map c.partner
    ovf := false }

/-- Adds elements that a list has not, up to its limit; whether one was dropped. -/
def unionTo {α : Type} [DecidableEq α] (lim : Nat) (l xs : List α) : List α × Bool :=
  xs.foldl (fun r x => if x ∈ r.1 then r else if r.1.length < lim then (r.1 ++ [x], r.2) else (r.1, true)) (l, false)

/-- Job entries combined by job, the largest epoch kept. -/
def mergeJobs (l xs : List (Nat × Nat)) : List (Nat × Nat) × Bool :=
  xs.foldl (fun r x =>
    if r.1.any (fun y => y.1 == x.1) then (r.1.map (fun y => if y.1 = x.1 then (y.1, max y.2 x.2) else y), r.2)
    else if r.1.length < 64 then (r.1 ++ [x], r.2) else (r.1, true)) (l, false)

def RView.merge (v w : RView) : RView :=
  let (r, a) := unionTo 64 v.rids w.rids
  let (j, b) := mergeJobs v.jobs w.jobs
  let (l, d) := unionTo 640 v.lost w.lost
  ⟨r, j, l, v.ovf || w.ovf || a || b || d⟩

/-- Number of concatenated fields of w bytes each. -/
def packFields (w : Nat) (l : List Nat) : Nat := (l.zip (List.range l.length)).foldl (fun x e => x + e.1 <<< (8 * w * e.2)) 0

end Sys2Proof.Machine

namespace Sys2Proof

open Sys2Proof.Machine

/-- The view that a VIEW packet carries. -/
def Pkt.view (p : Pkt) : RView :=
  let nr := p.fld 0x1E 8
  let nj := p.fld 0x1F 8
  let nl := p.fld 0x20 16
  let x := p.dataNat
  { rids := (List.range nr).map (fun i => ⟨bits x (32 * i) 16, bits x (32 * i + 16) 8, bits x (32 * i + 24) 8⟩)
    jobs := (List.range nj).map (fun i => (bits x (32 * nr + 64 * i) 16, bits x (32 * nr + 64 * i + 32) 32))
    lost := (List.range nl).map (fun i => bits x (32 * nr + 64 * nj + 16 * i) 16)
    ovf := bit (p.fld 0x1D 8) 0 }

end Sys2Proof

namespace Sys2Proof.Machine

open Sys2Proof

/-- The VIEW packet of a view on port k (R460). -/
def Channel.viewPkt (c : Channel) (k : Nat) (v : RView) : Pkt :=
  let nr := v.rids.length
  let nj := v.jobs.length
  let nl := v.lost.length
  let r := packFields 4 (v.rids.map (fun e => e.origin + e.oseq * 2 ^ 16 + e.cause * 2 ^ 24))
  let j := packFields 8 (v.jobs.map (fun e => e.1 + e.2 * 2 ^ 32))
  let l := packFields 2 v.lost
  mkPkt 5 4 (c.neighbour k) c.coord 0 0 0 0 (b2n v.ovf * 2 ^ 8 + nr * 2 ^ 16 + nj * 2 ^ 24 + nl * 2 ^ 32)
    (slotsOf (r + j <<< (32 * nr) + l <<< (32 * nr + 64 * nj)) (4 * nr + 8 * nj + 2 * nl))

/-- Sends the channel's view on every ACTIVE port. -/
def Channel.sendViews (c : Channel) : Channel :=
  ((List.range 6).filter (fun k => c.pstate k == psActive)).foldl (fun c k => c.sendPkt k 4 (c.viewPkt k c.rinse.view)) c

/-- Merges a view into the channel's own, which is sent on where it changes. -/
def Channel.mergeView (c : Channel) (w : RView) : Channel :=
  let v := c.rinse.view.merge w
  if v = c.rinse.view then c
  else
    let (seen, _) := unionTo 64 c.rinse.seen v.rids
    let c1 := { c with rinse := { c.rinse with view := v, seen := seen } }
    (c1.setFld Reg.FLT_STATUS Fl.FLT_STATUS_OVF (b2n v.ovf)).sendViews

/-- A change of the channel's own port states joins its view in STOP and AGREE (R463). -/
def Channel.viewPorts (c : Channel) : Channel :=
  if (c.rphase = 1 ∨ c.rphase = 2) ∧ !c.rinse.alone then c.mergeView { c.ownView with jobs := [] } else c

/-! ### What a rinse does to the units (R60, R197, R366, R397, R398, R462) -/

/-- Empties the streams, queues, pools, array and bobbins of a core that a rinse covers. Lines that are discarded give their credits back
(R179). -/
def Channel.rinseCore (c : Channel) (i : Nat) : Channel :=
  let k := c.core i
  let k1 := { k with
    f := Stream.reset, b := Stream.reset, u := Stream.reset, rc0 := none, rc1 := none, rcU := none, arr := Arr.reset,
    queues := [], pools := k.pools.map (fun p => { p with credits := 64 }), held := [], check := none }
  let c1 := (List.range 16).foldl (fun c j => c.bobClear i j) (c.setCore i k1)
  let held := (List.range 8).flatMap (fun q =>
    match (k.queue q).psite with
    | some p => List.replicate (k.queue q).h ⟨i, p, q⟩
    | none => [])
  { c1 with
    qlines := c1.qlines.filter (fun e => e.src != i && e.dst != i)
    qcreds := c1.qcreds ++ held ++ (c1.qlines.filter (fun e => e.dst == i)).map (fun e => ⟨i, e.src, e.q⟩) }

/-- Abandons the collectives of a context. -/
def Channel.rinseTat (c : Channel) (x : Nat) : Channel :=
  let n := (c.bkts.filter (fun e => e.1 / 4096 == x && decide (3 ≤ e.2.st) && decide (e.2.st ≤ 5) && e.2.ep != c.press x)).length
  let c1 := c.count Reg.TAT_ABANDON n
  let t := c1.tat
  let mine (q : Pkt) : Bool := if q.ptype = 6 then c1.pressCtx q == some x else q.ctx == x
  { c1 with
    bkts := c1.bkts.filter (fun e => e.1 / 4096 != x)
    tat := { t with
      queue := t.queue.filter (fun e => e.1 != x), passes := t.passes.filter (fun p => p.ctx != x),
      chains := t.chains.filter (fun h => h.ctx != x), gathers := t.gathers.filter (fun g => g.ctx != x),
      held := t.held.filter (fun e => !mine e.2) } }

/-- Whether a request of the remote-write unit belongs to a command or PERMUTE that `p` picks. -/
def Channel.dropReqs (c : Channel) (p : RwOwner → Bool) : Channel :=
  { c with yl := { c.yl with reqs := c.yl.reqs.filter (fun r => !p r.owner) } }

/-- A PERMUTE in steps 1 to 4 is abandoned (R397). -/
def Channel.rinsePerms (c : Channel) : Channel :=
  c.tat.perms.foldl (fun c p =>
    let t := { c.tat with perms := c.tat.perms.filter (fun h => h.cmd != p.cmd),
                          chains := c.tat.chains.filter (fun h => !(h.ctx == p.ctx && sameKind h.val (.sum 0))) }
    (Channel.dropReqs { c with tat := t } (fun o => o == .perm p.ctx)).endCmd p.cmd 4 0 0) c

/-- Commands of a context in progress. -/
def Channel.cmdsOf (c : Channel) (x : Nat) : List Cmd := c.host.cmds.filter (fun k => k.ctx == x)

/-- Entries of the context's queues between head and tail, which the rinse ends (R418). -/
def Channel.markQueues (c : Channel) (x : Nat) : Channel :=
  (List.range 64).foldl (fun c q =>
    let g := c.fld (Reg.HIF_SQ_CFG q)
    if g Fl.HIF_SQ_CFG_EN = 1 ∧ g Fl.HIF_SQ_CFG_CTX = x then
      let sz := 2 ^ g Fl.HIF_SQ_CFG_LOG2SIZE
      let n := (mget (fun _ => 0) c.host.tails q + sz - c.fld (Reg.HIF_SQ_STAT q) Fl.HIF_SQ_STAT_HEAD % sz) % sz
      { c with host := { c.host with marks := mset (fun _ => 0) c.host.marks q n } }
    else c) c

/-- A context in STEP enters RINSE. -/
def Channel.rinseCtx (c : Channel) (x : Nat) : Channel :=
  let c1 := (c.setCtxState x ctxRinse).rinseTat x
  let ids := (c1.cmdsOf x).map (·.id)
  let c2 := c1.dropReqs (fun o => match o with | .cmd id => ids.contains id | .perm _ => false)
  ((c1.ownedSites x).foldl (fun c i => c.rinseCore i) c2).markQueues x

/-- Step 3 of a mend waits while an emergency or a rinse stands (R445). -/
def Channel.mendDefer (c : Channel) : Channel :=
  let c1 := { c with fw := { c.fw with mend := 3 } }
  if c.fld Reg.DWG_STATUS Fl.DWG_STATUS_DEFERRED = 1 then c1
  else ((c1.setFld Reg.DWG_STATUS Fl.DWG_STATUS_DEFERRED 1).count Reg.SEQ_DEFER 1).event 8

def Channel.anyRinsing (c : Channel) : Bool := (List.range 16).any (fun x => c.ctxState x == ctxRinse)

/-- The identity of a rinse that begins by the channel's own cause (R459). -/
def Channel.ownRids (c : Channel) (cause : Option Nat) : List Rid :=
  match cause with
  | some k => [⟨c.coord, c.fld Reg.FLT_STATUS Fl.FLT_STATUS_OSEQ, k⟩]
  | none => []

def Channel.countOrigin (c : Channel) (cause : Option Nat) : Channel :=
  match cause with
  | some _ => (c.setFld Reg.FLT_STATUS Fl.FLT_STATUS_OSEQ ((c.fld Reg.FLT_STATUS Fl.FLT_STATUS_OSEQ + 1) % 256)).count Reg.FLT_ORIG 1
  | none => c

/-- The view, identity and log entry of a rinse that begins (R459, R460). -/
def Channel.startView (c : Channel) (mine : List Rid) (alone : Bool) (views : List RView) : Channel :=
  let own : RView := c.ownView
  let v : RView := views.foldl RView.merge (RView.merge ⟨mine, [], [], false⟩ own)
  let first : Rid := (mine ++ views.flatMap (·.rids)).headD ⟨0, 0, 0⟩
  let r : RinseSt := ⟨v, first, c.ts, alone, [], none, v.rids, c.rinse.lost⟩
  let d : Channel := { c with rinse := r }
  (((d.setFld Reg.FLT_STATUS Fl.FLT_STATUS_OVF (b2n v.ovf)).event 1).count Reg.FLT_RINSES 1).record 0x50 none first.cause 0

/-- What a rinse that begins does to the contexts and cores (R462); the pools of the producers that it covers are full, so no credit is left
to come to them (R197). -/
def Channel.rinseUnits (c : Channel) : Channel :=
  let xs := (List.range 16).filter (fun x => c.ctxState x == ctxStep)
  let c5 := (xs.foldl (fun c x => c.rinseCtx x) c).rinsePerms
  let c6 := ((List.range 100).filter (fun i => (c5.core i).owner.isNone)).foldl (fun c i => c.rinseCore i) c5
  let covered (i : Nat) : Bool := match (c6.core i).owner with
    | some x => c6.ctxState x == ctxRinse
    | none => true
  let c7 : Channel := { c6 with qcreds := c6.qcreds.filter (fun e => !covered e.prod) }
  if c7.fw.mend = 4 ∧ c7.anyRinsing then c7.mendDefer else c7

/-- A rinse begins: with a cause of the channel's own, or with views that came (R459). -/
def Channel.beginRinse (c : Channel) (cause : Option Nat) (alone : Bool) (views : List RView) : Channel :=
  let c2 := (c.setRphase 1).countOrigin cause
  let c7 := (c2.startView (c2.ownRids cause) alone views).rinseUnits
  if alone then c7 else c7.sendViews

/-- A cause of the channel's own: a rinse begins, or joins or waits for the one that stands (R459, R469). -/
def Channel.rinseFor (c : Channel) (cause : Nat) : Channel :=
  if c.rphase = 0 then c.beginRinse (some cause) c.dark []
  else if c.rphase = 3 then
    { c.setFld Reg.FLT_STATUS Fl.FLT_STATUS_PENDING 1 with rinse := { c.rinse with cause := some (c.rinse.cause.getD cause) } }
  else c

/-! ### Fences (R60, R366, R459) -/

/-- Fences the core of a site. -/
def Channel.fenceCore (c : Channel) (i : Nat) : Channel :=
  if !c.enabled i || c.fenced i then c
  else
    let a := Reg.MESH_FENCE (i / 32)
    let k := c.core i
    let c1 := c.wr a (setBits (c.rd a) (i % 32) 1 1)
    let c2 := { c1 with mem := mclear (mclear c1.mem (spadBase i) (spadBase (i + 1))) (bobBase i) (bobBase (i + 1)) }
    (c2.winCloseAll (fun n => c2.winSite n == some i)).setCore i
      { Core.reset with owner := k.owner, stage := k.stage, replica := k.replica, peers := k.peers, runList := k.runList, pos := k.pos }

/-- Whether a site's core belongs to a loaded context. -/
def Channel.loaded (c : Channel) (i : Nat) : Bool := match (c.core i).owner with | some x => c.ctxState x != ctxEmpty | none => false

/-- A fence that the host writes. -/
def Channel.hostFence (c : Channel) (i : Nat) : Channel :=
  if !c.enabled i || c.fenced i then c
  else
    let c1 := c.fenceCore i
    if c1.loaded i then
      (c1.record fcFenceHost none i 0).rinseFor fcFenceHost
    else c1

/-! ### Reports (R449 to R452, R469) -/

/-- The action of a code; YL_MISWIRE and YL_LOST depend on the port and on the last rinse. -/
def Channel.faultAction (c : Channel) (m : FaultMsg) : Nat :=
  let k := m.arg0.toNat % 8
  match m.code.toNat with
  | 0x30 => if c.rinse.lost.contains (m.arg0.toNat / 8 % 2 ^ 13) then 0 else 1
  | 0x31 => if (c.port k).confirmed then 1 else 0
  | 0x10 => 3
  | 0x12 => 3
  | 0x13 => 3
  | 0x14 => 3
  | 0x17 => 5
  | 0x24 => 2
  | 0x40 => 4
  | 0x41 => 4
  | 0x42 => 4
  | 0x43 => 4
  | 0x50 => 5
  | 0x51 => 5
  | 0x52 => 5
  | n =>
    if 0x01 ≤ n ∧ n ≤ 0x0D ∨ n = 0x11 ∨ n = 0x20 ∨ n = 0x22 ∨ n = 0x23 ∨ n = 0x32 ∨ 0x38 ≤ n ∧ n ≤ 0x3D then 1 else 0

/-- A STOP fault: the channel's own contexts rinse without agreement and its picots end; C4 follows, but for BRIDGE_LOST (R27, R452,
R494). -/
def Channel.stopFault (c : Channel) (code : Nat) : Channel :=
  let c1 := if c.rphase = 0 then c.beginRinse (some code) true [] else { c with rinse := { c.rinse with alone := true } }
  let c2 := { c1 with dark := true }
  if code = fcBridgeLost then c2 else { c2 with pwr := { c2.pwr with stop := true } }

/-- The fault unit handles a report. `perr`: the word of an SP_PARITY fails when QSEQ reads it again (R457); `raws`: words of the parameter
map as found (R456). -/
def Channel.report (c : Channel) (m : FaultMsg) (perr : Bool) (raws : RawWords := []) : Channel :=
  let a := c.faultAction m
  let c1 := c.logEntry m a
  let c2 := if a = 5 then c1 else c1.event 0
  let c3 :=
    if a = 0 ∨ a = 5 ∨ c2.fld Reg.FLT_FIRST Fl.FLT_FIRST_VALID = 1 then c2
    else c2.wr Reg.FLT_FIRST (1 + m.code.toNat * 2 + m.node.val * 2 ^ 9 + m.ctx.val * 2 ^ 16 + b2n m.ctxv * 2 ^ 20)
  match a with
  | 1 => c3.rinseFor m.code.toNat
  | 2 => (c3.fenceCore m.node.val).rinseFor m.code.toNat
  | 3 => (if m.code.toNat = fcSpParity ∧ !perr then c3 else c3.classify m.code.toNat m.arg1.toNat raws).rinseFor m.code.toNat
  | 4 => c3.stopFault m.code.toNat
  | _ => c3

/-- The header of a FAULT message (R449). -/
def faultHdr (m : FaultMsg) : Nat :=
  100 * 2 ^ 22 + m.node.val * 2 ^ 15 + 3 * 2 ^ 13 + b2n m.ctxv * 2 ^ 12 + m.ctx.val * 2 ^ 8 + m.code.toNat

/-- A message that is on its way reaches the fault unit, the oldest of its node first (R68). One with a double-bit error is lost; the unit's
node has detected CNET_UNCORR and reports it (R63). -/
def Channel.faultRx (c : Channel) (m : FaultMsg) (perr : Bool) (ecc : Ecc) (raws : RawWords) : Channel :=
  if c.faultq.find? (fun x => x.node == m.node) ≠ some m then c
  else
    let c1 := { c with faultq := eraseFirst m c.faultq }
    if ecc = .double then c1.report (mkFault 100 fcCnetUncorr none 100 (faultHdr m)) false
    else c1.cnetRx 100 (faultHdr m) ecc (fun c => c.report m perr raws)

/-- FAULT_REPORT. -/
def execFaultReport (ch : Chan) (msg : FaultMsg) (perr : Bool) (s : State) (ecc : Ecc := .clean) (raws : RawWords := []) : Outc :=
  .next (s.onChan ch (fun c => c.faultRx msg perr ecc raws))

/-! ### The phases of a rinse (R462 to R468) -/

/-- STOP is complete once no unit of a rinsing context writes memory. -/
def execRinseStopDone (ch : Chan) (s : State) : Outc :=
  .next (s.onChan ch (fun c => if c.rphase = 1 then c.setRphase 2 else c))

/-- A lost member of dimension d (R374). -/
def Channel.loseMember (c : Channel) (x d a : Nat) : Channel :=
  let g := Reg.TAT_GRP x d
  let n := c.ring d
  let m := c.grpF x d Fl.TAT_GRP_EMODE
  let len := c.grpF x d Fl.TAT_GRP_ELEN
  let p := c.posOf x d a
  let mine := [0, 1, 2].all (fun k => k == d || coordDim a k == coordDim c.coord k)
  if !mine ∨ coordDim a d ≥ n ∨ (m ≠ 1 ∧ m ≠ 2) ∨ len ≤ p then c
  else if m = 1 then
    ((c.setFld g Fl.TAT_GRP_EMODE 2).setFld g Fl.TAT_GRP_EBASE ((coordDim a d + 1) % n)).setFld g Fl.TAT_GRP_ELEN (len - 1)
  else if p = 0 then
    (c.setFld g Fl.TAT_GRP_EBASE ((coordDim a d + 1) % n)).setFld g Fl.TAT_GRP_ELEN (len - 1)
  else if p + 1 = len then c.setFld g Fl.TAT_GRP_ELEN (len - 1)
  else c.setFld g Fl.TAT_GRP_ELEN 0

/-- The outcome of R465 for context x. -/
def Channel.agreeCtx (c : Channel) (x : Nat) : Channel :=
  let back (c : Channel) : Channel := ((c.ownedSites x).foldl (fun c i => c.jBack i) c).setFld (Reg.UPD_PRESS x) Fl.UPD_PRESS_PHASE 0
  let p := c.press x
  if c.fld (Reg.UPD_PRESS x) Fl.UPD_PRESS_MULTI ≠ 1 then
    if c.phase x = phVoted then c.commit x else if c.ctxState x = ctxRinse then back c else c
  else if c.rinse.alone then back c
  else
    let v := c.rinse.view
    if v.ovf ∨ v.lost.contains c.coord then back (c.paramLoss x 0 p)
    else
      let e := match v.jobs.find? (fun j => j.1 == c.fld (Reg.TAT_JOB x) Fl.TAT_JOB_JOB) with
        | some j => j.2
        | none => p
      if p = e then back c
      else if (p + 1) % 2 ^ 32 = e ∧ c.phase x = phVoted then c.commit x
      else back (c.paramLoss x 0 e)

/-- The lost members of R466. -/
def Channel.agreeLost (c : Channel) : Channel :=
  let v := c.rinse.view
  if c.rinse.alone then c
  else if v.ovf then
    ((List.range 16).filter (fun x => c.fld (Reg.UPD_PRESS x) Fl.UPD_PRESS_MULTI == 1)).foldl (fun c x =>
      [0, 1, 2].foldl (fun c d => c.setFld (Reg.TAT_GRP x d) Fl.TAT_GRP_ELEN 0) c) c
  else (List.range 16).foldl (fun c x => [0, 1, 2].foldl (fun c d => v.lost.foldl (fun c a => c.loseMember x d a) c) c) c

/-- AGREE ends: the view has been quiet long enough. -/
def Channel.agreeEnd (c : Channel) : Channel :=
  let v := c.rinse.view
  let c1 := c.raiseFld Reg.FLT_AGREEMAX Fl.FLT_AGREEMAX_US (c.usSince c.rinse.began)
  let c2 := (List.range 16).foldl (fun c x => c.agreeCtx x) c1
  let c3 := (c2.agreeLost.setFld Reg.FLT_STATUS Fl.FLT_STATUS_NLOST v.lost.length).setRphase 3
  { c3 with rinse := { c3.rinse with lost := if c.rinse.alone then c.rinse.lost else v.lost } }

def execAgreeEnd (ch : Chan) (s : State) : Outc :=
  .next (s.onChan ch (fun c => if c.rphase = 2 then c.agreeEnd else c))

/-- Restores what the cores of a rinsed context keep from before the step (R118, R263, R467). -/
def Channel.restoreCore (c : Channel) (i : Nat) : Channel :=
  let k := c.core i
  let lo := Reg.CORE_DESC i 0 0
  let c1 := match k.descCopy with
    | some d =>
      let mine := d.filter (fun (e : Nat × Word) => decide (lo ≤ e.1) && decide (e.1 < lo + 0x8000))
      { c with regs := c.regs.filter (fun (e : Nat × Word) => decide (e.1 < lo)) ++ mine ++ c.regs.filter (fun (e : Nat × Word) => decide (lo + 0x8000 ≤ e.1)) }
    | none => c
  let c2 := (List.range 64).foldl (fun c t =>
    let r := mget (fun _ => 0) k.tack0 t
    (c.setTack i t (r % 2 ^ 16)).setFld (Reg.CORE_TACK i t) Fl.CORE_TACK_REMOTE (bits r 16 1)) c1
  let c3 := (c2.halfLive i).foldl (fun c n =>
    c.setSide i n (c.fld (Reg.CORE_HALF_CFG i n) Fl.CORE_HALF_CFG_INIT)) c2
  c3.setCore i { c3.core i with descCopy := none, pos := none, uStarted := false, uDone := false, normp := false, normSent := false, normed := false,
                                closed := [], hist := [], again := false }

/-- A context leaves RINSE; its commands end with RINSED. -/
def Channel.restoreCtx (c : Channel) (x : Nat) : Channel :=
  let c1 := (c.ownedSites x).foldl (fun c i => if c.usable i then c.restoreCore i else c) c
  let c2 := (c1.setStep x .reset).setCtxState x ctxReady
  (c2.cmdsOf x).foldl (fun c k => c.endCmd k.id 4 0 0) c2

/-- Every context has left RINSE: the rinse ends, and the one that waits begins (R468). -/
def Channel.restoreDone (c : Channel) : Channel :=
  let xs := (List.range 16).filter (fun x => c.ctxState x == ctxRinse)
  let c1 := xs.foldl (fun c x => c.restoreCtx x) c
  let c2 := ((List.range 100).filter (fun i => (c1.core i).owner.isNone && c1.usable i)).foldl (fun c i => c.restoreCore i) c1
  let c3 := c2.record fcRinseEnd none (c2.fld Reg.FLT_STATUS Fl.FLT_STATUS_NLOST) (c2.usSince c2.rinse.began)
  let c4 := (c3.setRphase 0).event 2
  if c4.fld Reg.FLT_STATUS Fl.FLT_STATUS_PENDING = 1 then
    (c4.setFld Reg.FLT_STATUS Fl.FLT_STATUS_PENDING 0).beginRinse c4.rinse.cause c4.dark (if c4.dark then [] else c4.rinse.held)
  else c4

def execRestoreDone (ch : Chan) (s : State) : Outc :=
  .next (s.onChan ch (fun c => if c.rphase = 3 then c.restoreDone else c))

/-- A VIEW packet (R461); after a STOP fault the channel takes part in no agreement (R452). -/
def Channel.takeView (c : Channel) (v : RView) : Channel :=
  if c.dark then c else
  let fresh := v.rids.any (fun r => !c.rinse.seen.contains r)
  if c.rphase = 1 ∨ c.rphase = 2 then (if c.rinse.alone then c else c.mergeView v)
  else if !fresh then c.count Reg.FLT_LATEVIEW 1
  else if c.rphase = 0 then c.beginRinse none false [v]
  else { c.setFld Reg.FLT_STATUS Fl.FLT_STATUS_PENDING 1 with rinse := { c.rinse with held := c.rinse.held ++ [v] } }

def execView (ch : Chan) (k : Port) (p : Pkt) (s : State) : Outc :=
  .next (s.onChan ch (fun c =>
    let c1 := c.takeRx k.val p
    if p.ptype ≠ 5 then c1
    else if p.fld 0x1C 8 ≠ 0 then c1.count (Reg.YLP_BAD k.val) 1
    else c1.takeView p.view))

/-! ### The deadlock detector (R190 to R193) -/

/-- The kind of wait of a stream, and its queue. -/
def Core.waitKind (k : Core) (st : Strm) : Option (Nat × Nat) :=
  let s := k.str st
  match s.wait with
  | .header _ _ => some (2, 0)
  | .tack _ => some (2, 0)
  | .fault => none
  | .none =>
    s.flights.findSome? (fun f =>
      match f.ph with
      | .recv => if (k.queue (immQueue f.w)).fifo.isEmpty then some (0, immQueue f.w) else none
      | .send => some (1, immQueue f.w)
      | .bobbins => some (3, 0)
      | .hazard => some (4, 0)
      | .version => some (4, 0)
      | .norm => some (4, 0)
      | .gather => some (4, 0)
      | .slot => some (4, 0)
      | .drain => some (4, 0)
      | _ => none)

/-- The lowest owned site with a waiting stream: site, kind, queue. -/
def Channel.firstWait (c : Channel) (x : Nat) : Option (Nat × Nat × Nat) :=
  (c.ownedSites x).findSome? (fun i => [Strm.f, .b, .u].findSome? (fun st => ((c.core i).waitKind st).map (fun w => (i, w))))

/-- Whether a collective of the context is in progress, a U stream waits for the norm, which counts as one (R321, R322), or its press is
pending. -/
def Channel.suspended (c : Channel) (x : Nat) : Bool :=
  (c.ownedSites x).any (fun i => (c.core i).u.flights.any (fun f => f.ph == .norm)) ||
  c.tat.passes.any (fun p => p.ctx == x) || c.tat.chains.any (fun h => h.ctx == x) || c.tat.gathers.any (fun g => g.ctx == x) || c.phase x == phVoted

def Channel.deadlock (c : Channel) (x : Nat) : Channel :=
  if c.ctxState x ≠ ctxStep ∨ c.fld Reg.SPAT_DLCFG Fl.SPAT_DLCFG_FATAL = 0 ∨ c.suspended x then c
  else
    let c1 :=
      if c.fld Reg.SPAT_DLSTAT Fl.SPAT_DLSTAT_VALID = 1 then c
      else match c.firstWait x with
        | some (i, k, q) => c.wr Reg.SPAT_DLSTAT (1 + x * 2 + i * 2 ^ 5 + k * 2 ^ 12 + q * 2 ^ 15)
        | none => c.wr Reg.SPAT_DLSTAT (1 + x * 2)
    (c1.count Reg.SPAT_DLFAULT 1).report (mkFault 100 fcDeadlock (some x) (c1.rd Reg.SPAT_DLSTAT) 0) false

def execDeadlock (ch : Chan) (x : Ctx) (s : State) : Outc := .next (s.onChan ch (fun c => c.deadlock x.val))

end Sys2Proof.Machine
end

