-- ==== Sys2Proof/Machine/Yelli.lean ====
section
/-! DEFINITION. The Yelli fabric's events: codewords, markers, timers, packets in flight, port training, routing, windows (R336 to R372). -/

namespace Sys2Proof.Machine

open Sys2Proof

/-! ### Remote writes and PERMUTE (R367, R396) -/

/-- Request i ends: its owner learns the status. -/
def Channel.rwEnd (c : Channel) (i : Nat) (r : RwReq) (status : Nat) : Channel :=
  let c1 := { c with yl := { c.yl with reqs := c.yl.reqs.eraseIdx i } }
  match r.owner with
  | .cmd id => if status = 0 then c1.endCmd id 0 0 r.len else c1.endCmd id 7 status 0
  | .perm x => { c1 with tat := { c1.tat with perms := c1.tat.perms.map (fun p =>
      if p.ctx = x ∧ p.det = 0 then { p with det := status } else p) } }

/-- Sends what there is room for and ends the requests that are answered. -/
def Channel.rwSettle : Nat → Channel → Channel
  | 0, c => c.rwPump
  | n + 1, c =>
    let c1 := c.rwPump
    match c1.yl.reqs.findIdx? RwReq.over with
    | none => c1
    | some i =>
      match c1.yl.reqs[i]? with
      | none => c1
      | some r => Channel.rwSettle n (c1.rwEnd i r r.status)

def Channel.setPerm (c : Channel) (p : Perm) : Channel :=
  { c with tat := { c.tat with perms := c.tat.perms.map (fun q => if q.ctx = p.ctx then p else q) } }

def Channel.dropPerm (c : Channel) (p : Perm) : Channel := { c with tat := { c.tat with perms := c.tat.perms.filter (fun q => q.ctx != p.ctx) } }

/-- Whether a bucket of the context is in states 1 to 5. -/
def Channel.bucketsBusy (c : Channel) (x : Nat) : Bool :=
  c.bkts.any (fun e => e.1 / 4096 == x && decide (1 ≤ e.2.st) && decide (e.2.st ≤ 5))

/-- Steps 5 and 6: the place records, in order, then the generation. -/
def Channel.permPlace (c : Channel) (p : Perm) : Channel :=
  let ns := c.ldN p.plan 4
  let np := c.ldN (p.plan + 4) 4
  let c1 := (List.range np).foldl (fun c j =>
    let a := p.plan + 32 + 32 * (ns + j)
    c.st (c.ldN (a + 8) 8) false (c.ld (c.ldN a 8) (c.ldN (a + 16) 4))) c
  let c2 := c1.setFld (Reg.TAT_BTCFG p.ctx) Fl.TAT_BTCFG_LGEN ((c1.lgen p.ctx + 1) % 16)
  (c2.dropPerm p).endCmd p.cmd 0 0 (c2.lgen p.ctx)

/-- One move of a PERMUTE, where it can move. -/
def Channel.permStep (c : Channel) (fr : Nat) (p : Perm) : Channel :=
  match p.step with
  | 1 => if c.bucketsBusy p.ctx then c else ((c.setPerm { p with step := 2 }).chainBegin p.ctx fr (.sum 0)).pumpHeld fr
  | 3 =>
    if c.yl.reqs.any (fun r => r.owner == .perm p.ctx) then c
    else
      match p.left with
      | j :: t =>
        let r := c.rwRecord (p.plan + 32 + 32 * j) (.perm p.ctx)
        { c.setPerm { p with left := t } with yl := { c.yl with reqs := c.yl.reqs ++ [r] } }
      | [] => ((c.setPerm { p with step := 4 }).chainBegin p.ctx fr (.sum (b2n (p.det != 0)))).pumpHeld fr
  | 5 => if p.bad = 0 then c.permPlace p else (c.dropPerm p).endCmd p.cmd 7 p.det 0
  | _ => c

/-- Moves every PERMUTE and remote write on as far as it goes. -/
def Channel.permPump (fr : Nat) : Nat → Channel → Channel
  | 0, c => c
  | n + 1, c =>
    let c1 := Channel.rwSettle c.yl.reqs.length c
    Channel.permPump fr n (c1.tat.perms.foldl (fun c p => match c.tat.perms.find? (fun q => q.cmd == p.cmd) with
      | some q => c.permStep fr q
      | none => c) c1)

/-- What follows of an event that may free a remote write, a barrier or a bucket. -/
def Channel.onward (c : Channel) (fr : Nat) : Channel :=
  Channel.permPump fr (c.yl.reqs.length + c.tat.perms.foldl (fun n p => n + p.left.length + 6) 0 + 1) c

/-- A channel function with the counter of free values, 128 of which it uses. -/
def State.onFree (s : State) (ch : Chan) (f : Nat → Channel → Channel) : State :=
  { s.onChan ch (f s.free) with free := s.free + 128 }

/-- An event of port k in one of the states given. -/
def State.onPort (s : State) (ch : Chan) (k : Port) (sts : List Nat) (f : Nat → Channel → Channel) : State :=
  s.onFree ch (fun fr c => if sts.contains (c.pstate k.val) then f fr c else c)

/-! ### Codewords and retry (R341, R349, R350) -/

/-- The port at the other end of an in-package link: P1 of channel n and P0 of channel (n + 1) % 4 (R21). -/
def partnerOf (ch : Chan) (k : Port) : Option (Chan × Port) := if k = 0 then some (ch - 1, 1) else if k = 1 then some (ch + 1, 0) else none

/-- What channel ch has sent on port k, oldest first: for each codeword whether it was a marker. -/
def Channel.sentOn (c : Channel) (k : Nat) : List Bool :=
  c.out.reverse.filterMap (fun o => match o with
    | .codeword _ p m _ _ => if p = k then some m else none
    | _ => none)

/-- The codewords that the package partner of a port has sent so far. -/
def State.partnerSent (s : State) (ch : Chan) (k : Port) : List Bool :=
  match partnerOf ch k with
  | some (d, j) => (s.chan d).sentOn j.val
  | none => []

/-- Whether a codeword can arrive: on P0 and P1 the next one that the partner sent, of that kind; on P2 to P5 whatever the cable brings
(R21, R22; log 83). -/
def State.onWay (s : State) (ch : Chan) (k : Port) (marker : Bool) : Bool :=
  (partnerOf ch k).isNone || (s.partnerSent ch k)[((s.chan ch).port k.val).seen]? == some marker

/-- A codeword of the package partner is taken. -/
def Channel.saw (c : Channel) (k : Port) : Channel := if k.val < 2 then c.setPort k.val { c.port k.val with seen := (c.port k.val).seen + 1 } else c

/-- A codeword at a port that carries codewords. -/
def State.rxCw (s : State) (ch : Chan) (k : Port) (marker : Bool) (f : Nat → Channel → Channel) : State :=
  let ok := s.onWay ch k marker
  s.onPort ch k [psActive, psMiswired] (fun fr c => if ok then f fr (c.saw k) else c)

def execDataCodewordRx (ch : Chan) (k : Port) (cw : BitVec 5440) (s : State) : Outc :=
  .next (s.rxCw ch k false (fun _ c => c.rxData k.val cw.toNat))

def execMarkerRx (ch : Chan) (k : Port) (cw : BitVec 5440) (s : State) : Outc :=
  .next (s.rxCw ch k true (fun fr c => (c.rxMarker k.val cw.toNat).onward fr))

def execMarkerSend (ch : Chan) (k : Port) (s : State) : Outc :=
  .next (s.onPort ch k [psTraining, psActive, psMiswired] (fun _ c => c.txMarker k.val))

/-- 16 marker intervals without an acknowledgement: the oldest codewords go again. -/
def execAckTimeout (ch : Chan) (k : Port) (s : State) : Outc :=
  .next (s.onPort ch k [psActive, psMiswired] (fun _ c => c.resend k.val))

def execMarkerLockLoss (ch : Chan) (k : Port) (s : State) : Outc :=
  .next (s.onPort ch k [psActive, psMiswired] (fun _ c => c.retrain k.val))

/-- The port is ACTIVE again: its scramblers start at 0 (log 170), it records its partner anew (R355), resends what is not acknowledged and
goes on. `seen`: what the package partner has sent so far, which is lost. -/
def Channel.retrainDone (c : Channel) (k seen : Nat) : Channel :=
  let c1 := c.setPstate k psActive
  ((c1.setPort k { c1.port k with scr := 0, dsc := 0, partnered := false, seen := seen }).resend k).pumpPort k

def execRetrainDone (ch : Chan) (k : Port) (s : State) : Outc :=
  let n := (s.partnerSent ch k).length
  .next (s.onPort ch k [psRetrain] (fun fr c => (c.retrainDone k.val n).onward fr))

def execRetrainTimeout (ch : Chan) (k : Port) (s : State) : Outc :=
  .next (s.onPort ch k [psRetrain] (fun fr c => ((c.portDead k.val psDown).onward fr).viewPorts))

/-- The LANEIDs of the marker as lanes wired straight, and wholly reversed, bring them (R339, R340). -/
def straightIds : List Nat := (List.range 8).map (0x3C0 + ·)
def reversedIds : List Nat := straightIds.reverse

/-- Training found the lanes: straight or wholly reversed by the LANEIDs, inverted or not, precoded or not; with any other permutation the
port stays in TRAINING (R337, R339, R355). -/
def Channel.portTrained (c : Channel) (k : Nat) (ids : List Nat) (inv pre seen : Nat) : Channel :=
  if ids ≠ straightIds ∧ ids ≠ reversedIds then c
  else
    let a := Reg.YLP_STAT k
    let c1 := ((c.setPstate k psActive).setFld a Fl.YLP_STAT_LANEREV (b2n (ids == reversedIds))).setFld a Fl.YLP_STAT_POLINV inv
    (c1.setPort k { c1.port k with lastPicot := c1.ts, pre := pre, seen := seen }).pumpPort k

def execPortTrained (ch : Chan) (k : Port) (ids : List Nat) (inv : Byte) (s : State) (pre : Byte := 0) : Outc :=
  let n := (s.partnerSent ch k).length
  .next (s.onPort ch k [psTraining] (fun _ c => c.portTrained k.val ids inv.toNat pre.toNat n))

/-! ### Packets (R357 to R368) -/

/-- A WRITE for this channel (R364); it stays in the buffer while the memory of its window cannot take it. -/
def execYlWrite (ch : Chan) (k : Port) (p : Pkt) (s : State) : Outc :=
  .next (s.onFree ch (fun fr c =>
    if p.ptype = 1 ∧ c.look p.dst = .here ∧ c.winHeld k.val p then c else
    let c1 := c.takeRx k.val p
    if p.ptype = 1 ∧ c1.look p.dst = .here then (c1.routePkt (some k.val) p).onward fr else c1))

/-- A WRESP for this channel (R367). -/
def execWresp (ch : Chan) (k : Port) (p : Pkt) (s : State) : Outc :=
  .next (s.onFree ch (fun fr c =>
    let c1 := c.takeRx k.val p
    if p.ptype = 2 ∧ c1.look p.dst = .here then (c1.routePkt (some k.val) p).onward fr else c1))

/-- A WRITE or WRESP for another channel (R358, R361). -/
def execPacketForward (ch : Chan) (k : Port) (p : Pkt) (s : State) : Outc :=
  .next (s.onFree ch (fun fr c =>
    let c1 := c.takeRx k.val p
    if (p.ptype = 1 ∨ p.ptype = 2) ∧ c1.look p.dst ≠ .here then (c1.routePkt (some k.val) p).onward fr else c1))

/-- The lookup that has waited longest is answered NOROUTE; those behind it look up again (R361). -/
def Channel.lookupTimeout (c : Channel) (fr : Nat) : Channel :=
  match c.yl.waits with
  | [] => c
  | w :: t => (((Channel.endWait { c with yl := { c.yl with waits := t } } w).noRoute w.pkt).retryWaits).onward fr

def execLookupWaitTimeout (ch : Chan) (s : State) : Outc := .next (s.onFree ch (fun fr c => c.lookupTimeout fr))

/-- Whether a VC of port k holds a packet: queued to leave, received, or waiting for a swap (R362). -/
def Channel.vcHolds (c : Channel) (k vc : Nat) : Bool :=
  (c.port k).txq.any (fun e => e.1 == vc) || (c.port k).rxq.any (fun e => e.1 == vc) || c.yl.waits.any (fun w => w.inp == some k && w.pkt.vc == vc)

/-- R362. -/
def execYlStuck (ch : Chan) (k : Port) (vc : Fin 4) (s : State) : Outc :=
  .next (s.onPort ch k [psActive] (fun _ c =>
    if c.fld Reg.YL_RCTRL Fl.YL_RCTRL_STUCK_US ≠ 0 ∧ c.vcHolds k.val vc.val then c.portFault k.val fcYlStuck else c))

/-! ### Picots (R352 to R354) -/

/-- Picots stop in C4 and after BRIDGE_LOST (R27, R369). -/
def execPicotSend (ch : Chan) (k : Port) (s : State) : Outc :=
  .next (s.onPort ch k [psActive, psMiswired] (fun _ c => if c.dark then c else c.sendPkt k.val 4 (c.picot k.val (decide (c.rphase ≠ 0)))))

def execPicot (ch : Chan) (k : Port) (p : Pkt) (s : State) : Outc :=
  .next (s.onFree ch (fun fr c =>
    let c1 := c.takeRx k.val p
    let c2 := (c1.rxPicot k.val p).onward fr
    if p.ptype ≠ 4 then c1
    else if c1.pstate k.val = psActive ∧ c2.pstate k.val = psMiswired then c2.viewPorts else c2))

def execYlLost (ch : Chan) (k : Port) (s : State) : Outc :=
  .next (s.onPort ch k [psActive] (fun fr c => (((c.portDead k.val psLost).portFault k.val fcYlLost).onward fr).viewPorts))

/-! ### Width (R370, R371) -/

/-- A WIDTH packet: the partner's answer, or a request that is answered. -/
def Channel.rxWidth (c : Channel) (k : Nat) (v : Nat) : Channel :=
  if v ≠ 1 ∧ v ≠ 8 then c
  else
    let y := c.port k
    if y.width = some v then c.setPort k { y with agreed := true }
    else let c1 := c.askWidth k v; c1.setPort k { c1.port k with agreed := true }

def execWidth (ch : Chan) (k : Port) (p : Pkt) (s : State) : Outc :=
  .next (s.onChan ch (fun c =>
    let c1 := c.takeRx k.val p
    if p.ptype = 8 then c1.rxWidth k.val (p.fld 0x1C 8) else c1))

/-- The port runs at the agreed width. -/
def Channel.widthDone (c : Channel) (k : Nat) : Channel :=
  let y := c.port k
  match y.width with
  | some v =>
    if y.agreed then (c.setFld (Reg.YLP_STAT k) Fl.YLP_STAT_NARROW (b2n (v == 1))).setPort k { y with width := none, agreed := false } else c
  | none => c

def execWidthChangeDone (ch : Chan) (k : Port) (s : State) : Outc := .next (s.onChan ch (fun c => c.widthDone k.val))

/-! ### Routing tables (R359, R360) -/

def Channel.fillBusy (c : Channel) : Bool := c.fld Reg.YL_RCTRL Fl.YL_RCTRL_FILL_BUSY == 1

/-- SWAP = 1. -/
def Channel.ylSwap (c : Channel) (fr : Nat) : Channel :=
  if c.fillBusy then c
  else (((c.setFld Reg.YL_RCTRL Fl.YL_RCTRL_GEN (b2n (!c.rtGen))).count Reg.YL_SWAPS 1).retryWaits).onward fr

/-- FILL = 1: the default routes go into the inactive generation. -/
def Channel.ylFill (c : Channel) : Channel :=
  if c.fillBusy then c
  else (List.range 8192).foldl (fun c d => c.setRtEntry (!c.rtGen) d (c.defaultEntry d)) (c.setFld Reg.YL_RCTRL Fl.YL_RCTRL_FILL_BUSY 1)

def execYlFillDone (ch : Chan) (s : State) : Outc :=
  .next (s.onChan ch (fun c => c.setFld Reg.YL_RCTRL Fl.YL_RCTRL_FILL_BUSY 0))

/-! ### Port control and windows (R355, R363, R366, R372) -/

/-- EN changes. -/
def Channel.portEnable (c : Channel) (k : Nat) (on : Bool) : Channel :=
  if on = (c.fld (Reg.YLP_CTRL k) Fl.YLP_CTRL_EN == 1) then c
  else
    let c1 := c.setFld (Reg.YLP_CTRL k) Fl.YLP_CTRL_EN (b2n on)
    if on then c1.portTrain k
    else ((c1.portDead k psDisabled).portClear k).setFld (Reg.YLP_PARTNER k) Fl.YLP_PARTNER_VALID 0

/-- RESTART = 1. -/
def Channel.portRestart (c : Channel) (k : Nat) : Channel :=
  let st := c.pstate k
  if st = psDown ∨ st = psLost ∨ st = psMiswired then c.portTrain k else c

/-- YL_WAKE. -/
def Channel.ylWake (c : Channel) (k : Nat) : Channel :=
  if k ≤ 5 ∧ c.pstate k = psActive then c.sendPkt k 4 (mkPkt 7 4 (c.neighbour k) c.coord 0 0 0 0 0 []) else c

/-- A write to YLWn_CTRL: opens, closes, or sets the fields of a closed window. -/
def Channel.winCtrl (c : Channel) (n v : Nat) : Channel :=
  let a := Reg.YLW_CTRL n
  let busy := c.winOpen n || c.fld a Fl.YLW_CTRL_CLOSING == 1
  if busy then
    if c.winOpen n ∧ !bit v 0 then (c.setFld a Fl.YLW_CTRL_OPEN 0).setFld a Fl.YLW_CTRL_CLOSING 1 else c
  else
    let c0 := if bit v 2 then c.setFld a Fl.YLW_CTRL_ERR 0 else c
    let c1 := c0.wr a (setBits (c0.rd a) 3 19 (bits v 3 19))
    if bit v 0 then (if c1.winOk n then c1.setFld a Fl.YLW_CTRL_OPEN 1 else c1.setFld a Fl.YLW_CTRL_ERR 1) else c1

def execWindowCloseDone (ch : Chan) (n : Que) (s : State) : Outc :=
  .next (s.onChan ch (fun c => c.setFld (Reg.YLW_CTRL n.val) Fl.YLW_CTRL_CLOSING 0))

/-! ### Remote-write timeouts (R367) -/

/-- A packet of request i has had no answer for YL_RWTO. -/
def Channel.rwTimeout (c : Channel) (i : Nat) : Channel :=
  match c.yl.reqs[i]? with
  | none => c
  | some r => if r.open_.isEmpty then c else (c.count Reg.YL_RWTIMEOUT 1).rwEnd i r 6

def execRemoteWriteTimeout (ch : Chan) (i : Nat) (s : State) : Outc := .next (s.onFree ch (fun fr c => (c.rwTimeout i).onward fr))

end Sys2Proof.Machine
end

