-- ==== Sys2Proof/Machine/Coll.lean ====
section
/-! DEFINITION. The rows of the tatting engine: collective packets, reductions, passes, delivery, timeouts, the press (R332, R333,
R380 to R392). -/

namespace Sys2Proof.Machine

open Sys2Proof

/-! ### Packets (R375, R385) -/

/-- A COLL packet of the kind given reaches the engine. -/
def Channel.collRx (c : Channel) (fr k kind : Nat) (p : Pkt) : Channel :=
  if p.ptype ≠ 3 ∨ p.kind ≠ kind ∨ c.storeFull then c
  else
    let c1 := c.takeRx k p
    if p.relay ∧ c1.carries p.ctx p.half k then c1.sendPkt (oppPort k) 0 p
    else if !p.crcOk then c1.tatFault p.ctx fcTatEcrc p.tag
    else if p.epoch ≠ c1.press p.ctx then c1.count Reg.TAT_EPDROP 1
    else (((c1.collDeliver fr k p).pumpHeld fr).wakeNorm p.ctx (fr + 1)).onward fr

def execCollScale (ch : Chan) (k : Port) (p : Pkt) (s : State) : Outc := .next (s.onFree ch (fun fr c => c.collRx fr k.val 0 p))
def execCollRs (ch : Chan) (k : Port) (p : Pkt) (s : State) : Outc := .next (s.onFree ch (fun fr c => c.collRx fr k.val 1 p))
def execCollAg (ch : Chan) (k : Port) (p : Pkt) (s : State) : Outc := .next (s.onFree ch (fun fr c => c.collRx fr k.val 2 p))
def execCollNorm (ch : Chan) (k : Port) (p : Pkt) (s : State) : Outc := .next (s.onFree ch (fun fr c => c.collRx fr k.val 3 p))
def execCollPg (ch : Chan) (k : Port) (p : Pkt) (s : State) : Outc := .next (s.onFree ch (fun fr c => c.collRx fr k.val 4 p))
def execCollBarrier (ch : Chan) (k : Port) (p : Pkt) (s : State) : Outc := .next (s.onFree ch (fun fr c => c.collRx fr k.val 5 p))

/-- A PRESS frame of the kind given (R351, R391). -/
def Channel.pressRx (c : Channel) (fr k kind : Nat) (p : Pkt) : Channel :=
  let c1 := c.takeRx k p
  if p.ptype ≠ 6 ∨ p.kind ≠ kind then c1
  else
    match c1.pressCtx p with
    | none => c1.count (Reg.YLP_BAD k) 1
    | some x => ((c1.chainPktRx x k fr p).pumpHeld fr).onward fr

def execVote (ch : Chan) (k : Port) (p : Pkt) (s : State) : Outc := .next (s.onFree ch (fun fr c => c.pressRx fr k.val 0 p))
def execCommit (ch : Chan) (k : Port) (p : Pkt) (s : State) : Outc := .next (s.onFree ch (fun fr c => c.pressRx fr k.val 1 p))

/-! ### The reduction queue (R379, R380) -/

/-- Whether a core has retired its last B run of the step; one that still walks the last step's list has not begun (R79, R80). -/
def Core.bDone (k : Core) : Bool :=
  let rest := match k.pos with
    | some p => k.runList.drop (p + 1)
    | none => k.runList
  let isB (r : Option RunInfo) : Bool := match r with
    | some i => i.kind == .b
    | none => false
  !k.again && !rest.any (fun e => entryKind e == 1) && !isB k.rc0 && !isB k.rc1

/-- What R380 does with valid bucket b. -/
def Channel.bucketJoin (c : Channel) (x b : Nat) : Channel :=
  let k := c.bkt x b
  if k.st = 1 then c.tatFault x fcTatContrib (b + c.lgen x * 4096)
  else if (k.st = 0 ∨ k.st = 6) ∧ !c.entryOk (c.bEntry x b) then c.tatFault x fcTatEntry b
  else { c with tat := { c.tat with queue := c.tat.queue ++ [(x, b)] } }

/-- The context's valid buckets join the queue, once a step. -/
def Channel.reductionStart (c : Channel) (x : Nat) : Channel :=
  let t := c.step x
  if c.ctxState x ≠ ctxStep ∨ t.reducing ∨ !(c.ownedSites x).all (fun i => (c.core i).bDone) then c
  else ((List.range (c.nbkt x)).filter (fun b => (c.bEntry x b).valid)).foldl (fun c b => c.bucketJoin x b) (c.setStep x { t with reducing := true })

def execReductionStart (ch : Chan) (x : Ctx) (s : State) : Outc := .next (s.onChan ch (fun c => c.reductionStart x.val))

/-- Whether a queued bucket may start: CLOSED, or untouched with a place free; a bucket that a previous step still holds waits. -/
def Channel.canStart (c : Channel) (e : Nat × Nat) : Bool :=
  let k := c.bkt e.1 e.2
  if k.st = 0 ∨ k.st = 6 then decide (c.inflight < 64) else k.st == 2

/-- The queued bucket of the lowest number that may start. -/
def Channel.nextBucket (c : Channel) : Option (Nat × Nat) :=
  (c.tat.queue.filter c.canStart).foldl (fun r e => match r with
    | some a => if e.2 < a.2 then some e else some a
    | none => some e) none

/-- Starts a bucket's first pass. -/
def Channel.bucketStart (c : Channel) (fr : Nat) : Channel :=
  if 4 ≤ c.tat.passes.length then c
  else
    match c.nextBucket with
    | none => c
    | some (x, b) =>
      let k := c.bkt x b
      let zero := k.st ≠ 2
      let c1 := { c with tat := { c.tat with queue := eraseFirst (x, b) c.tat.queue } }
      let c2 := if zero then c1.setBkt x b ⟨4, c.press x, [], [], []⟩ else c1
      if !c2.groupOk x then c2.tatFault x fcTatGroup b
      else
        let e := c2.bEntry x b
        let p : Pass := { ctx := x, b := b, tag := b + c2.lgen x * 4096, ep := (c2.bkt x b).ep, agree := e.wfmt == 3 && c2.gsize x != 1, dim := 0,
                          pass := 0, zero := zero, res := [], prev := none, scales := [], flags := [], ended := false, sdig := 0, rdig := 0 }
        let (c3, p1) := c2.startDim e 8 p
        ((c3.setPasses (c3.tat.passes ++ [p1])).passState p1).pumpHeld fr

def execBucketStart (ch : Chan) (s : State) : Outc := .next (s.onFree ch (fun fr c => (c.bucketStart fr).onward fr))

/-! ### The end of a pass, delivery (R381, R384, R387, R388) -/

def Channel.findPass (c : Channel) (x b : Nat) : Option Nat := c.tat.passes.findIdx? (fun p => p.ctx == x && p.b == b)

/-- The pass after one with flags: scales raised by 4, or BF16. -/
def Pass.again (p : Pass) : Pass :=
  { p with
    pass := p.pass + 1, dim := 0, res := [], prev := none, flags := [], ended := false,
    scales := if p.pass ≤ 2 then
        (p.scales.zip (List.range p.scales.length)).map (fun e => if p.flags.contains e.2 ∧ e.1 ≠ 0xFF then min 0xFE (e.1 + 4) else e.1)
      else p.scales }

def Channel.passEnd (c : Channel) (fr x b : Nat) : Channel :=
  match c.findPass x b with
  | none => c
  | some i =>
    match c.tat.passes[i]? with
    | none => c
    | some p =>
      if !p.ended ∨ (c.bkt x b).st ≠ 4 then c
      else if p.flags.isEmpty ∨ 4 ≤ p.pass then c.setBkt x b { c.bkt x b with st := 5 }
      else
        let c1 := if p.pass ≤ 2 then c.count Reg.TAT_RESTARTS 1 else c.count Reg.TAT_BF16 1
        let (c2, p1) := c1.startDim (c1.bEntry x b) 8 p.again
        ((c2.setPasses (c2.tat.passes.set i p1)).passState p1).pumpHeld fr

def execPassEnd (ch : Chan) (x : Ctx) (b : Fin 4096) (s : State) : Outc := .next (s.onFree ch (fun fr c => (c.passEnd fr x.val b.val).onward fr))

/-- The product that delivery writes for element n: FP32C for WFMT 0 or a group of one, FP32 otherwise. -/
def Channel.deliverVal (c : Channel) (p : Pass) (e : BEntry) (fr n : Nat) : Val :=
  match p.prev with
  | none =>
    let own := if p.zero then czero else cOfBits (c.ldN (e.acc + 8 * n) 8)
    cVal (cMul fr n own (cOf (f32Val e.post)))
  | some r =>
    let g := n / p.perPkt e
    let v := p.decWire e n (nth 0 (mget (fun _ => []) r g) (n - g * p.perPkt e))
    if e.wfmt = 0 then cVal (cMul fr n (cOf v) (cOf (f32Val e.post))) else f32Val (f32Mul (rn32 v) e.post)

/-- Writes OUT. -/
def Channel.deliver (c : Channel) (p : Pass) (e : BEntry) (fr : Nat) : Channel :=
  let w := fmtBits e.ofmt / 8
  (List.range e.len).foldl (fun d n =>
    let a := e.out + w * n
    let code := (convert e.ofmt false (some (c.tatSr (48 + p.pass) (8 * a) p.ep)) (c.deliverVal p e fr n)).1
    d.st a false (leBytes w code)) c

/-- Adds a bucket's digests to the running step digest (R388). -/
def Channel.digest (c : Channel) (x b sdig rdig : Nat) : Channel :=
  let rot (v : Nat) : Nat := let s := b % 64; (v <<< s) % 2 ^ 64 + v >>> (64 - s)
  [(0, sdig), (1, rdig), (2, rot sdig), (3, rot rdig)].foldl (fun c e =>
    c.setDigW Reg.TAT_CDIG x e.1 (c.digW Reg.TAT_CDIG x e.1 ^^^ e.2)) c

def Channel.bucketDone (c : Channel) (fr x b : Nat) : Channel :=
  match c.findPass x b with
  | none => c
  | some i =>
    match c.tat.passes[i]? with
    | none => c
    | some p =>
      if (c.bkt x b).st ≠ 5 then c
      else
        let e := c.bEntry x b
        let a := c.bktAddr x b
        let one := p.prev.isNone
        let stat := if one then 0 else min p.pass 3 + 4 * b2n (p.pass == 4)
        let c1 := c.deliver p e fr
        let c2 := if bit e.flags 1 then { c1 with cmsgs := c1.cmsgs ++ [barrierMsg e.osite 106 0 x e.otack 1] } else c1
        let c3 := c2.st (a + 0x20) false (leBytes 8 p.sdig ++ leBytes 8 p.rdig ++ leBytes 4 p.ep ++ leBytes 2 stat)
        let c4 := (c3.digest x b p.sdig p.rdig).setPasses (c3.tat.passes.eraseIdx i)
        (c4.setBkt x b { c4.bkt x b with st := 6 }).count Reg.TAT_BUCKETS 1

def execBucketDone (ch : Chan) (x : Ctx) (b : Fin 4096) (s : State) : Outc :=
  .next (s.onFree ch (fun fr c => (c.bucketDone fr x.val b.val).onward fr))

/-! ### Timeouts (R386) -/

/-- The epoch of a collective in progress, a chain collective having tag 0. -/
def Channel.collEpoch (c : Channel) (x tag : Nat) : Option Nat :=
  match c.tat.passes.find? (fun p => p.ctx == x && p.tag == tag && !p.ended) with
  | some p => some p.ep
  | none =>
    match c.tat.gathers.find? (fun g => g.ctx == x && g.tag == tag) with
    | some g => some g.ep
    | none => if tag = 0 then (c.tat.chains.find? (fun h => h.ctx == x)).map (·.ep) else none

def execCollTimeout (ch : Chan) (x : Ctx) (tag : BitVec 16) (s : State) : Outc :=
  .next (s.onChan ch (fun c =>
    match c.collEpoch x.val tag.toNat with
    | some ep => c.raise (mkFault 101 fcTatTimeout (some x.val) tag.toNat ep)
    | none => c))

/-! ### The press (R332, R333, R391) -/

/-- The press begins; a reduction that was due before it has joined the queue by then. -/
def Channel.pressBegin (c : Channel) (fr x : Nat) : Channel :=
  if c.ctxState x ≠ ctxStep ∨ c.phase x ≠ phLocal ∨ !(c.ownedSites x).all (fun i => (c.core i).uDone) then c
  else
    let c0 := c.reductionStart x
    let c1 := (c0.setFld (Reg.UPD_PRESS x) Fl.UPD_PRESS_PHASE phVoted).setStep x { c0.step x with voted := c.ts }
    if c1.fld (Reg.UPD_PRESS x) Fl.UPD_PRESS_MULTI = 1 then (c1.chainBegin x fr (.votes 1)).pumpHeld fr else c1.commitStep x

def execPressBegin (ch : Chan) (x : Ctx) (s : State) : Outc := .next (s.onFree ch (fun fr c => (c.pressBegin fr x.val).onward fr))

def execPressTimeout (ch : Chan) (x : Ctx) (s : State) : Outc :=
  .next (s.onChan ch (fun c =>
    if c.phase x.val = phVoted ∧ c.ctxState x.val = ctxStep ∧ c.fld (Reg.UPD_PRESS x.val) Fl.UPD_PRESS_MULTI = 1 then
      c.raise (mkFault 106 fcPressTimeout (some x.val) (c.fld (Reg.TAT_JOB x.val) Fl.TAT_JOB_JOB) ((c.press x.val + 1) % 2 ^ 32))
    else c))

end Sys2Proof.Machine
end

