-- ==== Sys2Proof/Machine/Mesh.lean ====
section
/-! DEFINITION. The data mesh and the control network: flits, routing tables and their swap, remote tacks (R42 to R68, R119, R122). -/

namespace Sys2Proof.Machine

open Sys2Proof

/-! ### Routing tables (R49, R51) -/

/-- A port as R49 encodes it. -/
def mportCode (p : MPort) : Nat :=
  match p with
  | .north => 0
  | .south => 1
  | .east => 2
  | .west => 3
  | .loc => 4

/-- What an entry names; the other codes act as UNREACH. -/
def mportOf (e : Nat) : Option MPort :=
  match e with
  | 0 => some .north
  | 1 => some .south
  | 2 => some .east
  | 3 => some .west
  | 4 => some .loc
  | _ => none

/-- The dimension-ordered route of reset: the column first. Rows are numbered from the north. -/
def meshDefault (k : Nat) : Nat :=
  let r := k / 128
  let d := k % 128
  if r % 10 < d % 10 then 2 else if d % 10 < r % 10 then 3 else if r < d then 1 else if d < r then 0 else 4

def Channel.meshGen (c : Channel) : Bool := c.fld Reg.MESH_CTRL Fl.MESH_CTRL_RT_GEN == 1

def Channel.meshEntry (c : Channel) (g : Bool) (r d : Nat) : Nat := mget meshDefault (if g then c.mesh.rt1 else c.mesh.rt0) (r * 128 + d)

def Channel.setMeshEntry (c : Channel) (g : Bool) (r d v : Nat) : Channel :=
  let m := c.mesh
  if g then { c with mesh := { m with rt1 := mset meshDefault m.rt1 (r * 128 + d) v } }
  else { c with mesh := { m with rt0 := mset meshDefault m.rt0 (r * 128 + d) v } }

/-- The router across a port, and the port it comes in by there; none at the die edge. -/
def meshNext (r : Nat) (p : MPort) : Option (Nat × MPort) :=
  match p with
  | .north => if 10 ≤ r then some (r - 10, .south) else none
  | .south => if r < 90 then some (r + 10, .north) else none
  | .east => if r % 10 < 9 then some (r + 1, .west) else none
  | .west => if 0 < r % 10 then some (r - 1, .east) else none
  | .loc => none

/-- Flits that an input may hold per virtual channel: 16 on a seam link (R46). -/
def meshRoom (r : Nat) (p : MPort) : Nat :=
  if (r % 10 = 5 ∧ p = .west) ∨ (r % 10 = 4 ∧ p = .east) then 16 else 8

/-- Flits of a virtual channel at an input. -/
def Channel.meshHeld (c : Channel) (r : Nat) (p : MPort) (vc : Bool) : List FlitAt :=
  c.mesh.flits.filter (fun f => f.router == r && f.inp == p && f.flit.vc == vc)

/-! ### Flits (R44 to R48, R58) -/

/-- The sideband of a flit with check bits e (R45). -/
def sideWord (f : Flit) (e : Nat) : Nat :=
  f.dst.val + f.sub.val * 2 ^ 7 + f.src.val * 2 ^ 10 + f.srcsub.val * 2 ^ 17 + b2n f.vc * 2 ^ 20 + b2n f.gen * 2 ^ 21
  + f.tag.toNat * 2 ^ 22 + f.kind.val * 2 ^ 38 + e % 128 * 2 ^ 41

/-- A fault of a router; the spec does not give the sideband's check bits (log 4). -/
def Channel.meshFault (c : Channel) (fr code r : Nat) (p : MPort) (f : Flit) : Channel :=
  c.raise (mkFault r code none (r + mportCode p * 2 ^ 7) (sideWord f (Config.openValue fr 0).toNat))

/-- The destinations of a flit: its mask for a multicast. -/
def flitDests (f : Flit) : List Nat :=
  if f.kind.val = 4 ∨ f.kind.val = 5 then setPositions f.mask.toNat 100 else [f.dst.val]

/-- The tags of a multicast header that belong to the sites kept: tag j to the j-th set bit of the mask. -/
def keepTags (data : Nat) (old new : List Nat) : Nat :=
  let ts := ((old.zip (List.range old.length)).filter (fun e => new.contains e.1)).map (fun e => bits data (112 + 16 * e.2) 16)
  (ts.zip (List.range ts.length)).foldl (fun x e => x + e.1 * 2 ^ (112 + 16 * e.2)) 0

def maskOf (l : List Nat) : Nat := l.foldl (fun m d => m + 2 ^ d) 0

/-- The part of a multicast flit that goes to some of its destinations. -/
def flitPart (f : Flit) (ds : List Nat) : Flit :=
  if f.kind.val = 4 then
    { f with mask := BitVec.ofNat 100 (maskOf ds), data := BitVec.ofNat 1024 (maskOf ds + keepTags f.data.toNat (flitDests f) ds) }
  else if f.kind.val = 5 then { f with mask := BitVec.ofNat 100 (maskOf ds) }
  else f

/-- Drives a flit onto a port of router r: into the next router's input, or to a sub-port. Requests and writes wait there for
their unit; what comes back to a requester is taken at once. -/
def Channel.meshDrive (c : Channel) (r : Nat) (p : MPort) (f : Flit) : Channel :=
  match meshNext r p with
  | some (n, q) => { c with mesh := { c.mesh with flits := c.mesh.flits ++ [⟨n, q, f⟩] } }
  | none =>
    if p = .loc ∧ (f.kind.val = 0 ∨ f.kind.val = 2) then { c with mesh := { c.mesh with eject := c.mesh.eject ++ [⟨r, .loc, f⟩] } } else c

/-- The ports that a flit's destinations need at router r under generation g, each with its destinations. -/
def Channel.meshPlan (c : Channel) (g : Bool) (r : Nat) (ds : List Nat) : List (Option MPort × List Nat) :=
  ([some MPort.north, some .south, some .east, some .west, some .loc, none].map (fun p =>
    (p, ds.filter (fun d => mportOf (c.meshEntry g r d) == p)))).filter (fun e => !e.2.isEmpty)

/-- Whether a port has a link and credit for a flit. -/
def Channel.meshFree (c : Channel) (r : Nat) (p : MPort) (vc : Bool) : Bool :=
  match meshNext r p with
  | some (n, q) => decide ((c.meshHeld n q vc).length < meshRoom n q)
  | none => p == .loc

/-- Routes a flit at router r: onto its ports, or discarded with MESH_UNREACH; none where a port has no credit. DESIGN CHOICE (log 160): of
a multicast, the part whose destinations are UNREACH is discarded and raised once, and the rest goes on. -/
def Channel.meshRoute (c : Channel) (fr r : Nat) (inp : MPort) (f : Flit) : Option Channel :=
  let plan := c.meshPlan f.gen r (flitDests f)
  if plan.all (fun e => match e.1 with | some p => c.meshFree r p f.vc | none => true) then
    some (plan.foldl (fun c e => match e.1 with
      | some p => c.meshDrive r p (flitPart f e.2)
      | none => c.meshFault fr fcMeshUnreach r inp f) c)
  else none

/-- A captured flit's checks: the flit as corrected, or none where it is uncorrectable, and the corrections. -/
def meshCheck (f : Flit) (side : Ecc) (raw : Option (BitVec 576 × BitVec 576)) : Option Flit × Nat :=
  let (d, n, bad) := match raw with
    | some (a, b) =>
      let x := dec36 a.toNat
      let y := dec36 b.toNat
      (BitVec.ofNat 1024 (x.1 + y.1 * 2 ^ 512), b2n (x.2 == 1) + b2n (y.2 == 1), x.2 == 2 || y.2 == 2)
    | none => (f.data, 0, false)
  (if bad || side == .double then none else some { f with data := d }, n + b2n (side == .single))

def Channel.dropFlit (c : Channel) (a : FlitAt) : Channel := { c with mesh := { c.mesh with flits := eraseFirst a c.mesh.flits } }

/-- A flit that a router's input register holds, the oldest of its input and virtual channel. -/
def Channel.meshCapture (c : Channel) (fr r : Nat) (inp : MPort) (f : Flit) (side : Ecc) (raw : Option (BitVec 576 × BitVec 576)) : Channel :=
  let a : FlitAt := ⟨r, inp, f⟩
  if (c.meshHeld r inp f.vc).head? ≠ some a then c
  else
    match meshCheck f side raw with
    | (none, n) => ((c.dropFlit a).addFld Reg.MESH_CORR Fl.MESH_CORR_CORR n).meshFault fr fcMeshUncorr r inp f
    | (some g, n) =>
      let c1 := (c.dropFlit a).addFld Reg.MESH_CORR Fl.MESH_CORR_CORR n
      if 99 < g.dst.val ∨ 5 < g.kind.val then c1.addFld Reg.MESH_CORR Fl.MESH_CORR_BAD 1
      else (c1.meshRoute fr r inp g).getD c

/-- Whether an entry names a port. -/
def entryOpen (e : Nat) : Bool := decide (e ≤ 4)

/-- The virtual channel of a kind: read requests and writes on VC0, all else on VC1 (R46). -/
def kindVc (f : Flit) : Bool := !(f.kind.val == 0 || f.kind.val == 2)

/-- The flits of a sub-port and virtual channel that wait at the source, the oldest first (R51). -/
def Channel.meshQueue (c : Channel) (r : Nat) (sub : Fin 8) (vc : Bool) : List FlitAt :=
  (c.meshHeld r .loc vc).filter (fun a => a.flit.srcsub == sub)

/-- The flit waits at its source: the last of its sub-port and virtual channel, where it did not wait already. -/
def Channel.meshWait (c : Channel) (a : FlitAt) : Channel :=
  if c.mesh.flits.contains a then c else { c with mesh := { c.mesh with flits := c.mesh.flits ++ [a] } }

/-- A sub-port injects a flit at router r under the active generation. It waits at the source while a swap runs, while its route waits
for one, for credit, and behind an earlier flit of its sub-port and virtual channel (R48, R50, R51). A core out of service makes no
request; what answers another's still leaves (R59, R60). -/
def Channel.meshInject (c : Channel) (fr r : Nat) (f0 : Flit) : Channel :=
  let g := c.meshGen
  let f : Flit := { f0 with vc := kindVc f0 }
  let a : FlitAt := ⟨r, .loc, f⟩
  let f1 := { f with gen := g }
  if f.srcsub.val = 0 ∧ f.vc = false ∧ !c.usable r then c
  else if c.fld Reg.MESH_CTRL Fl.MESH_CTRL_SWAP_BUSY = 1 ∨ ((c.meshQueue r f.srcsub f.vc).head?.getD a) ≠ a then c.meshWait a
  else if 99 < f.dst.val ∨ 5 < f.kind.val then (c.dropFlit a).addFld Reg.MESH_CORR Fl.MESH_CORR_BAD 1
  else if (flitDests f1).any (fun d => !entryOpen (c.meshEntry g r d) && entryOpen (c.meshEntry (!g) r d)) then c.meshWait a
  else ((c.dropFlit a).meshRoute fr r .loc f1).getD (c.meshWait a)

/-- MESH_FLIT_HOP: a flit in a router's input, or a flit that a sub-port injects. -/
def execMeshFlitHop (ch : Chan) (r : Site) (inp : MPort) (fl : Flit) (side : Ecc) (raw : Option (BitVec 576 × BitVec 576)) (s : State) : Outc :=
  .next (s.onFree ch (fun fr c => match inp with
    | .loc => c.meshInject fr r.val fl
    | p => c.meshCapture fr r.val p fl side raw))

/-- The write acknowledgement for a flit. -/
def flitAck (f : Flit) : Flit :=
  { dst := f.src, sub := f.srcsub, src := f.dst, srcsub := f.sub, vc := true, gen := false, tag := f.tag, kind := 3, data := 0, mask := 0 }

/-! ### The swap (R50) -/

/-- RT_SWAP = 1. -/
def Channel.meshSwap (c : Channel) : Channel :=
  if c.fld Reg.MESH_CTRL Fl.MESH_CTRL_SWAP_BUSY = 1 then c
  else
    let c1 := c.setFld Reg.MESH_CTRL Fl.MESH_CTRL_SWAP_BUSY 1
    { c1 with cmsgs := c1.cmsgs ++ [.table 0], mesh := { c1.mesh with swapAt := c1.ts } }

/-- Ends the swap in progress; its TABLE message has arrived. -/
def Channel.meshIdle (c : Channel) : Channel :=
  Channel.setFld { c with cmsgs := eraseFirst (.table 0) c.cmsgs } Reg.MESH_CTRL Fl.MESH_CTRL_SWAP_BUSY 0

/-- Whether no flit of the active generation is left between the routers. -/
def Channel.meshDrained (c : Channel) : Bool := !c.mesh.flits.any (fun f => f.inp != .loc && f.flit.gen == c.meshGen)

def execMeshSwapComplete (ch : Chan) (s : State) : Outc :=
  .next (s.onChan ch (fun c =>
    if c.fld Reg.MESH_CTRL Fl.MESH_CTRL_SWAP_BUSY = 1 ∧ c.meshDrained then
      (c.meshIdle.setFld Reg.MESH_CTRL Fl.MESH_CTRL_RT_GEN (b2n (!c.meshGen))).count Reg.MESH_SWAPS 1
    else c))

/-- MESH_STALL is QSEQ's own fault and acts at once. -/
def execMeshSwapTimeout (ch : Chan) (s : State) : Outc :=
  .next (s.onChan ch (fun c =>
    if c.fld Reg.MESH_CTRL Fl.MESH_CTRL_SWAP_BUSY = 1 then
      (c.meshIdle.setFld Reg.MESH_CTRL Fl.MESH_CTRL_SWAP_FAIL 1).report (mkFault 100 fcMeshStall none 100 0) false
    else c))

/-! ### Remote tacks (R63 to R66, R119, R122) -/

/-- A BARRIER message at core i. -/
def Channel.takeTack (c : Channel) (i hdr pay : Nat) : Channel :=
  let t := bits hdr 0 6
  let kind := bits hdr 10 3
  let v := bits pay 0 16
  if (c.core i).owner ≠ some (bits hdr 6 4) ∨ c.fld (Reg.CORE_TACK i t) Fl.CORE_TACK_REMOTE = 0 ∨ 1 < kind then
    c.count (Reg.CORE_TACKDROP i) 1
  else if kind = 0 then c.tackAdd i t v 0 0
  else c.setTack i t (max (c.tack i t) v)

/-- A BARRIER message arrives at its node: at a core, at every core in service, or nowhere (R64, R65). -/
def Channel.barrierRx (c : Channel) (hdr pay : Nat) (ecc : Ecc) : Channel :=
  let dst := bits hdr 22 7
  c.cnetRx dst hdr ecc (fun c1 =>
    if dst = 127 then ((List.range 100).filter (fun i => c.usable i)).foldl (fun c i => c.takeTack i hdr pay) c1
    else if dst < 100 then (if c.usable dst then c1.takeTack dst hdr pay else c1.addFld Reg.CNET_CORR Fl.CNET_CORR_LOST 1)
    else if 119 ≤ dst then c1.addFld Reg.CNET_CORR Fl.CNET_CORR_LOST 1
    else c1)

/-- The oldest BARRIER message of its way, of a kind that the row is for. -/
def Channel.barrierMsgRx (c : Channel) (release : Bool) (hdr pay : Word) (ecc : Ecc) : Channel :=
  if c.msgNext (.barrier hdr pay) ∧ (bits hdr.toNat 10 3 = 1 ↔ release) then
    Channel.barrierRx { c with cmsgs := eraseFirst (.barrier hdr pay) c.cmsgs } hdr.toNat pay.toNat ecc
  else c

def execRemoteTackAdd (ch : Chan) (hdr pay : Word) (ecc : Ecc) (s : State) : Outc :=
  .next (s.onChan ch (fun c => c.barrierMsgRx false hdr pay ecc))

def execRemoteTackRelease (ch : Chan) (hdr pay : Word) (ecc : Ecc) (s : State) : Outc :=
  .next (s.onChan ch (fun c => c.barrierMsgRx true hdr pay ecc))

end Sys2Proof.Machine
end

