-- ==== Sys2Proof/Machine/Tier.lean ====
section
/-! DEFINITION. The SRAM tier with its read merging, and LPDDR5X: reads, writes, scrubs, corrections (R56 to R58, R276 to R288). -/

namespace Sys2Proof.Machine

open Sys2Proof

/-! ### The tier (R56 to R58, R279 to R282) -/

def lineAddr (slice line : Nat) : Nat := sliceBase slice + line * 128

/-- Entries of a slice's merge table. -/
def Channel.mergeUsed (c : Channel) (slice : Nat) : Nat := (c.merges.filter (fun m => m.slice == slice)).length

/-- The read-request flit of a requester that waits at a slice. -/
def Channel.sliceReq (c : Channel) (slice : Nat) (src : Site) (sub : Fin 8) : Option FlitAt :=
  c.mesh.eject.find? (fun f => f.router == slice && f.flit.kind.val == 0 && f.flit.sub.val == 1 && f.flit.src.val == src.val && f.flit.srcsub == sub)

/-- A slice takes the request flit of a requester. -/
def Channel.sliceTake (c : Channel) (q : Option FlitAt) : Channel :=
  match q with
  | some f => { c with mesh := { c.mesh with eject := eraseFirst f c.mesh.eject } }
  | none => c

/-- A slice answers one requester: over the router with a reply, over the stream port without flits. -/
def Channel.sliceReply (c : Channel) (slice : Nat) (src : Site) (sub : Fin 8) (vert : Bool) (tag : BitVec 16) (data : Nat) : Channel :=
  if vert then c else c.meshOffer slice (sliceFlit slice src.val sub 1 tag data 0)

/-- A requester joins the merge entry of a line, which exists (R57). -/
def Channel.mergeJoin (c : Channel) (slice line : Nat) (e : Nat × Nat) : Channel :=
  { c with merges := c.merges.map (fun m => if m.slice == slice && m.line == line then { m with waiting := m.waiting ++ [e] } else m) }

/-- A read of a line at its slice (R57, R58, R281). The merge hint is TAG[15] of the request flit; over the stream port, which carries it
inside the core, `hint`. -/
def Channel.sliceRead (c : Channel) (slice line : Nat) (src : Site) (sub : Fin 8) (vert hint : Bool) (raws : RawWords) : Channel :=
  let a := lineAddr slice line
  let q := if vert then none else c.sliceReq slice src sub
  let tag : BitVec 16 := match q with | some f => f.flit.tag | none => 0
  let hinted := match q with | some f => f.flit.tag.getLsbD 15 | none => hint
  let may := (vert || sub.val == 0) && hinted && c.fld Reg.MESH_CTRL Fl.MESH_CTRL_MERGE_WIN != 0
  let me := (if vert then slice else src.val, tag.toNat)
  let c1 := c.sliceTake q
  if may && c1.merges.any (fun m => m.slice == slice && m.line == line) then (c1.count Reg.MESH_MERGED 1).mergeJoin slice line me
  else
    let rd := c1.tierRead slice (b2n (!vert)) a 128 raws
    if may && decide (rd.mergeUsed slice < 16) then { rd with merges := rd.merges ++ [⟨slice, line, [me]⟩] }
    else (if may then rd.count Reg.MESH_MERGEFULL 1 else rd).sliceReply slice src sub vert tag (rd.ldN a 128)

def execSliceRead (ch : Chan) (slice : Site) (line : Fin 327680) (src : Site) (sub : Fin 8) (vert hint : Bool) (raws : RawWords) (s : State) : Outc :=
  .next (s.onChan ch (fun c => c.sliceRead slice.val line.val src sub vert hint raws))

/-- The oldest write flit that waits at the router port of a slice. -/
def Channel.sliceWr (c : Channel) (slice : Nat) : Option FlitAt :=
  c.mesh.eject.find? (fun f => f.router == slice && f.flit.kind.val == 2 && f.flit.sub.val == 1)

/-- A write at its slice: merge entries of its lines close with the old data, partial words are read first (R57, R280). Over the router
port it is the oldest write flit that waits there, and is acknowledged (R48, R56). -/
def Channel.sliceWrite (c : Channel) (slice off : Nat) (data : List Byte) (vert : Bool) (raws : RawWords) : Channel :=
  let q := if vert then none else c.sliceWr slice
  let c0 := c.sliceTake q
  let n := min data.length (0x280_0000 - off)
  let a := sliceBase slice + off
  let ws := touched 64 a n
  let c1 := (touched 128 off n).foldl (fun c l => c.mergeShut slice (l.1 / 128)) c0
  let c2 := (ws.filter (fun w => !w.2)).foldl (fun c w => c.tierRead slice (b2n (!vert)) w.1 64 raws) c1
  let c3 := c2.st a false (data.take n)
  match q with
  | some f => c3.meshOffer slice (flitAck f.flit)
  | none => c3

def execSliceWrite (ch : Chan) (slice : Site) (off : Fin 41943040) (data : List Byte) (vert : Bool) (raws : RawWords) (s : State) : Outc :=
  .next (s.onChan ch (fun c => c.sliceWrite slice.val off.val data vert raws))

def execMergeWindowClose (ch : Chan) (slice : Site) (line : Fin 327680) (s : State) : Outc :=
  .next (s.onChan ch (fun c => c.mergeShut slice.val line.val))

/-- One patrol-scrub read of a slice: its next line; the pass ends when every slice has ended (R282). -/
def Channel.tierScrub (c : Channel) (slice : Nat) (raws : RawWords) : Channel :=
  let n := mget (fun _ => 0) c.scrub slice
  if c.fld Reg.TIER_CTRL Fl.TIER_CTRL_SCRUB_EN = 0 ∨ 327680 ≤ n then c
  else
    let c1 := c.tierRead slice 2 (lineAddr slice n) 128 raws
    let m := mset (fun _ => 0) c1.scrub slice (n + 1)
    if (List.range 100).all (fun i => mget (fun _ => 0) m i == 327680) then Channel.count { c1 with scrub := [] } Reg.TIER_SCRUBS 1
    else { c1 with scrub := m }

def execTierScrub (ch : Chan) (slice : Site) (raws : RawWords) (s : State) : Outc :=
  .next (s.onChan ch (fun c => c.tierScrub slice.val raws))

/-- A corrected word goes back into the array, unless a write came first. -/
def execTierCorrectWriteback (ch : Chan) (addr : BitVec 48) (s : State) : Outc :=
  .next (s.onChan ch (fun c => match c.row addr.toNat with | .tier _ => c.wroteWord addr.toNat | _ => c))

/-! ### LPDDR5X (R283 to R288) -/

/-- The LPDDR5X offset of a controller's 256-byte unit. -/
def memUnit (ctrl n : Nat) : Nat :=
  let u := n * 4
  (u + (ctrl ^^^ bits u 8 2 ^^^ bits u 16 2 ^^^ bits u 24 2)) * 256

def Channel.memReady (c : Channel) (k : Nat) : Bool :=
  c.fld (Reg.MEMC_STATUS k) Fl.MEMC_STATUS_READY == 1 && c.fld (Reg.MEMC_STATUS k) Fl.MEMC_STATUS_SREF == 0

/-- An access of LPDDR5X bytes that its controllers serve: within the row, every controller ready. -/
def Channel.memServed (c : Channel) (a n : Nat) : Bool :=
  (touched 256 a n).all (fun u => match c.row u.1 with | .lp o => c.memReady (memCtrl o) | _ => false)

/-- Link-ECC corrections, each seen by the controller named (R287). -/
def Channel.leccs (c : Channel) (l : List (Fin 4)) : Channel := l.foldl (fun c k => c.count (Reg.MEMC_LECC k.val) 1) c

def execMemRead (ch : Chan) (addr : BitVec 48) (len : Nat) (raws : RawWords) (lecc : List (Fin 4)) (s : State) : Outc :=
  .next (s.onChan ch (fun c =>
    let a := addr.toNat
    if c.memServed a len then (c.memRaws 0 (a / 64 * 64) (roundUp (a % 64 + len) 64) raws).leccs lecc
    else c))

/-- A write: units it covers in part are read, merged and written back (R286). -/
def Channel.memWrite (c : Channel) (a : Nat) (data : List Byte) (raws : RawWords) (lecc : List (Fin 4)) : Channel :=
  let us := touched 256 a data.length
  let c1 := (us.filter (fun u => !u.2)).foldl (fun c u =>
    (c.memRaws 1 u.1 256 raws).count (Reg.MEMC_RMW (memCtrl (u.1 - lpBase))) 1) c
  (c1.st a false data).leccs lecc

def execMemWrite (ch : Chan) (addr : BitVec 48) (data : List Byte) (raws : RawWords) (lecc : List (Fin 4)) (s : State) : Outc :=
  .next (s.onChan ch (fun c => if c.memServed addr.toNat data.length then c.memWrite addr.toNat data raws lecc else c))

/-- Units of 256 bytes on a controller. -/
def memUnits : Nat := 48 * 2 ^ 30 / 256

/-- One patrol-scrub read of a controller: its next unit (R287). -/
def execMemScrub (ch : Chan) (ctrl : Fin 4) (raws : RawWords) (s : State) (lecc : Nat := 0) : Outc :=
  .next (s.onChan ch (fun c =>
    let k := ctrl.val
    let n := mget (fun _ => 0) c.mscrub k
    if c.fld (Reg.MEMC_CTRL k) Fl.MEMC_CTRL_SCRUB_EN = 1 ∧ c.memReady k then
      let c1 := (c.memRaws 2 (lpBase + memUnit k n) 256 raws).leccs (List.replicate lecc ctrl)
      { c1 with mscrub := mset (fun _ => 0) c1.mscrub k ((n + 1) % memUnits) }
    else c))

def execMemCorrectWriteback (ch : Chan) (addr : BitVec 48) (s : State) : Outc :=
  .next (s.onChan ch (fun c => match c.row addr.toNat with | .lp _ => c.wroteWord addr.toNat | _ => c))

end Sys2Proof.Machine
end

