-- ==== Sys2Proof/Machine/Flash.lean ====
section
/-! DEFINITION. The flash controller: accesses, the write buffer, programs, the map and its generations, wear (R289 to R304). -/

namespace Sys2Proof.Machine

open Sys2Proof

/-! ### Accesses (R290, R291, R293) -/

/-- One write into the buffer. -/
def Channel.flashServeW (c : Channel) (off : Nat) (data : List Byte) (offl : Bool) : Channel := c.st (flashBase + off) offl data

def Channel.flashWait (c : Channel) (r : FlashReq) : Channel :=
  let c1 := { c with flash := { c.flash with waiting := c.flash.waiting ++ [r] } }
  if c1.flash.stale.isEmpty then c1 else c1.swapStart

/-- An access: dropped, waiting, or served. -/
def Channel.flashGo (c : Channel) (r : FlashReq) (res : FlashRes) : Channel :=
  match r with
  | .read off len stream =>
    if c.fstat Fl.FLASH_STATUS_FAILED then c.count Reg.FLASH_DROP 1
    else if c.flashWaits (unitsOf off len) false then c.flashWait r
    else c.flashServeR off len stream res
  | .write off data offl =>
    if c.fstat Fl.FLASH_STATUS_FAILED ∨ c.fstat Fl.FLASH_STATUS_RO then c.count Reg.FLASH_DROP 1
    else if c.flashWaits (unitsOf off data.length) true then c.flashWait r
    else c.flashServeW off data offl

/-- Accesses that waited go on, in order. -/
def Channel.flashRetry (c : Channel) : Channel :=
  c.flash.waiting.foldl (fun c r => c.flashGo r .clean) { c with flash := { c.flash with waiting := [] } }

def execFlashRead (ch : Chan) (addr : BitVec 48) (len : Nat) (stream : Bool) (res : FlashRes) (s : State) : Outc :=
  .next (s.onChan ch (fun c => match c.row addr.toNat with
    | .flash o => c.flashGo (.read o (min len (0x400_0000_0000 - o)) stream) res
    | _ => c))

def execFlashWrite (ch : Chan) (addr : BitVec 48) (data : List Byte) (offl : Bool) (s : State) : Outc :=
  .next (s.onChan ch (fun c => match c.row addr.toNat with
    | .flash o => c.flashGo (.write o (data.take (0x400_0000_0000 - o)) offl) .clean
    | _ => c))

/-! ### Programs (R290 to R292, R300) -/

def Channel.dropUnit (c : Channel) (u : Nat) : Channel :=
  let l := c.flash.buf.filter (fun b => b.unit != u)
  let c1 := { c with flash := { c.flash with buf := l, stale := c.flash.stale.filter (fun x => x != u) } }
  if l.isEmpty then c1.setFstat Fl.FLASH_STATUS_DIRTY false else c1

/-- The unit as the buffer has it over its durable contents. -/
def Channel.unitBytes (c : Channel) (u : Nat) (b : BufUnit) : List Byte :=
  (List.range 0x4000).map (fun i => match b.bytes.find? (fun e => e.1 == i) with
    | some e => e.2
    | none => mget memDefault c.mem (flashUnit u + i))

/-- A unit's program has succeeded: its contents are durable, both generations map it to the block, and it counts; a unit of zeros is
unmapped instead (R290, R295, R304). -/
def Channel.unitDone (c : Channel) (b : BufUnit) (blk : Nat) : Channel :=
  let bs := c.unitBytes b.unit b
  let c1 := c.putUnit b.unit bs
  if bs.all (· == 0) then (c1.setFmap false b.unit 0).setFmap true b.unit 0
  else (((c1.setFmap false b.unit (blk + 1)).setFmap true b.unit (blk + 1)).pageIn blk b.off).hostW 1

/-- A due unit is programmed into a block; `ok` false: the program fails, the block is retired, and the buffer keeps the unit. -/
def Channel.unitProgram (c : Channel) (u blk : Nat) (ok : Bool) (res : FlashRes) : Channel :=
  match c.flashBuf u with
  | none => c
  | some b =>
    if !(b.due || decide (2048 ≤ c.flash.buf.length)) || !c.blkTakes blk b.off || c.fstat Fl.FLASH_STATUS_FAILED || !c.fstat Fl.FLASH_STATUS_READY then c
    else
      let c1 := if b.bytes.length < 0x4000 ∧ c.fmap c.fgen u ≠ 0 then c.nandRead u 1 res else c
      if !ok ∧ !(c1.unitBytes u b).all (· == 0) then (c1.retireBlk blk).nandW 1
      else ((c1.unitDone b blk).dropUnit u).flashRetry

/-- Makes the units that `p` picks due. -/
def Channel.flashDue (c : Channel) (p : Nat → Bool) : Channel :=
  { c with flash := { c.flash with buf := c.flash.buf.map (fun b => if p b.unit then { b with due := true } else b) } }

def execUnitIdleTimeout (ch : Chan) (unit : Fin 268435456) (s : State) : Outc :=
  .next (s.onChan ch (fun c => c.flashDue (fun u => u == unit.val)))

/-- FLUSH = 1. -/
def Channel.flashFlush (c : Channel) : Channel := c.flashDue (fun _ => true)

/-! ### Swaps (R296, R297) -/

def execFlashSwapInterval (ch : Chan) (s : State) : Outc := .next (s.onChan ch (fun c => c.swapStart))

/-- Map pages that differ between the generations, and the directory record. -/
def Channel.mapPages (c : Channel) : Nat :=
  let us := ((c.flash.map0 ++ c.flash.map1).map (·.1)).filter (fun u => c.fmap false u != c.fmap true u)
  ((us.map (· / 4096)).foldl (fun l p => if l.contains p then l else p :: l) []).length + 1

/-- `n` programs of map pages have failed: each retires a block of the map and is repeated elsewhere (R300). -/
def Channel.mapRetire (c : Channel) (n : Nat) : Channel := if n = 0 then c else ((c.count Reg.FLASH_GROWN n).nandW n).roCheck

/-- The pending generation becomes active, and the new pending one starts equal to it. `fails`: map-page programs that failed. -/
def Channel.swapDone (c : Channel) (fails : Nat) : Channel :=
  if !c.fstat Fl.FLASH_STATUS_SWAP_BUSY then c
  else
    let c1 := (c.mapRetire fails).nandW c.mapPages
    let m := if c.fgen then c1.flash.map0 else c1.flash.map1
    let c2 := { c1 with flash := { c1.flash with map0 := m, map1 := m, stale := [], lastSwap := c1.ts } }
    (((c2.setFstat Fl.FLASH_STATUS_MAP_GEN (!c.fgen)).setFstat Fl.FLASH_STATUS_SWAP_BUSY false).count Reg.FLASH_SWAPS 1).flashRetry

def execFlashSwapComplete (ch : Chan) (s : State) (fails : Nat := 0) : Outc := .next (s.onChan ch (fun c => c.swapDone fails))

/-! ### Background work (R295, R298 to R300) -/

/-- FSEQ relocates a unit. A program that fails retires the block and leaves the unit where it was, to be relocated elsewhere (R300). -/
def execFlashRelocate (ch : Chan) (unit : Fin 268435456) (blk : Nat) (res : FlashRes) (s : State) (ok : Bool := true) : Outc :=
  .next (s.onChan ch (fun c =>
    if c.fmap (!c.fgen) unit.val = 0 ∨ !c.blkTakes blk (c.unitKind unit.val) ∨ !c.fstat Fl.FLASH_STATUS_READY ∨ c.fstat Fl.FLASH_STATUS_SWAP_BUSY then c
    else
      let d := c.nandRead unit.val 2 res
      if !ok then (d.nandW 1).retireBlk blk
      else if d.blkTakes blk (d.unitKind unit.val) then d.moveUnit unit.val blk
      else d))

/-- Whether a page read needed soft decoding (R299, R300, R302). -/
def FlashRes.softened : FlashRes → Bool
  | .clean => false
  | .retry => false
  | .soft => true
  | .uncorr _ => true

/-- A scrub pass over a block: its pages' units are read, and all of them relocated where a page needed read retry or soft decoding; more than
one soft decoding retires the block: its units are STALE before they are copied, and the swap starts. A block that holds no unit any more is erased. -/
def Channel.blockScrub (c : Channel) (b : Nat) (pages : List FlashRes) (eraseOk : Bool) : Channel :=
  let us := c.unitsIn c.fgen b
  if us.isEmpty ∧ (c.unitsIn (!c.fgen) b).isEmpty then
    if !eraseOk then c.retireBlk b
    else if (c.blk b).bad then c
    else c.setBlk b { c.blk b with reads := 0, erases := (c.blk b).erases + 1, pages := 0 }
  else
    let read := us.zip pages
    let c1 := read.foldl (fun c e => c.nandRead e.1 2 e.2) c
    if 1 < (read.filter (fun e => FlashRes.softened e.2)).length then
      let c2 := c1.retireBlk b
      let c3 := { c2 with flash := { c2.flash with stale := c2.flash.stale ++ us.filter (fun u => !c2.flash.stale.contains u) } }
      (c3.relocBlk b).swapStart
    else if read.any (fun e => e.2 != .clean) then c1.relocBlk b
    else c1

/-- While a swap runs the pending generation is being written, and FSEQ scrubs nothing (DESIGN CHOICE, log 151). -/
def execRetentionScrub (ch : Chan) (blk : Nat) (pages : List FlashRes) (eraseOk : Bool) (s : State) : Outc :=
  .next (s.onChan ch (fun c => if c.fstat Fl.FLASH_STATUS_READY ∧ !c.fstat Fl.FLASH_STATUS_SWAP_BUSY then c.blockScrub blk pages eraseOk else c))

/-- Blocks in use: mapped by the active generation. -/
def Channel.usedBlocks (c : Channel) : List Nat :=
  ((if c.fgen then c.flash.map1 else c.flash.map0).map (fun e => e.2 - 1)).foldl (fun l b => if l.contains b then l else b :: l) []

def Channel.erasures (c : Channel) : List Nat := c.usedBlocks.map (fun b => (c.blk b).erases)

/-- The largest erase count of the blocks that are not retired (R298). -/
def Channel.eraseMax (c : Channel) : Nat := (c.flash.blocks.filter (fun b => !b.2.bad)).foldl (fun n b => max n b.2.erases) 0

/-- The units of a block with the fewest erasures move when the spread exceeds WL_SPREAD: as many as the other block takes. Static levelling
fills any block that is not retired, not the least erased. `ok` false: the first program fails and retires it (R298, R300). -/
def Channel.wearLevel (c : Channel) (src dst : Nat) (ok : Bool) : Channel :=
  let e := (c.blk src).erases
  let us := c.unitsIn (!c.fgen) src
  if c.fld Reg.FLASH_CTRL Fl.FLASH_CTRL_WL_SPREAD < c.eraseMax - e ∧ c.erasures.all (fun x => decide (e ≤ x)) ∧ !(c.blk dst).bad
      ∧ !c.fstat Fl.FLASH_STATUS_SWAP_BUSY then
    if !ok ∧ !us.isEmpty then (c.nandW 1).retireBlk dst
    else (us.take (blkPages - (c.blk dst).pages)).foldl (fun c u => c.moveUnit u dst) c
  else c

def execStaticWearLevel (ch : Chan) (src dst : Nat) (s : State) (ok : Bool := true) : Outc := .next (s.onChan ch (fun c => c.wearLevel src dst ok))

/-- The controller fails; what waits completes without effect (R303). -/
def Channel.flashFail (c : Channel) : Channel :=
  if c.fstat Fl.FLASH_STATUS_FAILED then c
  else
    let c1 := c.setFstat Fl.FLASH_STATUS_FAILED true
    (c1.flashFault fcFlashDown (c1.rd Reg.FLASH_STATUS) 0).flashRetry

def execLunBusyTimeout (ch : Chan) (s : State) : Outc := .next (s.onChan ch (fun c => c.flashFail))

/-- The map is rebuilt (R293, R301). -/
def Channel.flashReady (c : Channel) : Channel :=
  if c.fstat Fl.FLASH_STATUS_READY ∨ c.fstat Fl.FLASH_STATUS_FAILED then c
  else ((c.setFstat Fl.FLASH_STATUS_READY true).roCheck).flashRetry

def execFlashMapReady (ch : Chan) (s : State) : Outc := .next (s.onChan ch (fun c => c.flashReady))

/-- What becomes of the write buffer when it is lost: each unit is kept whole or lost whole, as `Config.openValue` chooses (R292,
log 4). -/
def Channel.bufferLoss (c : Channel) (fr : Nat) : Channel :=
  let keep := (c.flash.buf.zip (List.range c.flash.buf.length)).filter (fun e => (Config.openValue fr e.2).toNat % 2 == 1)
  let c1 := keep.foldl (fun c e => c.unitDone e.1 (c.pickBlk e.1.off)) c
  Channel.setFstat { c1 with flash := { c1.flash with buf := [], waiting := [], cache := [] } } Fl.FLASH_STATUS_DIRTY false

end Sys2Proof.Machine
end

