-- ==== Sys2Proof/Machine/Kt5.lean ====
section
/-! DEFINITION. The KT5 compatibility range: accesses, heat, migration, flushing (R306 to R310). -/

namespace Sys2Proof.Machine

open Sys2Proof

def Channel.ktAccess (c : Channel) (o len : Nat) (data : Option (List Byte)) (cold : Bool) : Channel :=
  if !c.ktOn then c
  else (linePieces o len).foldl (fun c e =>
    match data with
    | some d => c.ktLine e.1 ((d.drop e.2.1).take e.2.2) cold
    | none => c.ktLine e.1 [] cold) c

/-- An access within the range in service; otherwise it has no effect (R306). -/
def execKt5Access (ch : Chan) (addr : BitVec 48) (len : Nat) (data : Option (List Byte)) (pin stream : Bool) (s : State) : Outc :=
  .next (s.onChan ch (fun c => match c.row addr.toNat with
    | .flat o => c.ktAccess o (min (match data with | some d => d.length | none => len) (c.flatSize * 2 ^ 30 - o)) data (pin || stream)
    | _ => c))

/-- Copies n bytes. -/
def Channel.copyMem (c : Channel) (src dst n : Nat) : Channel := c.st dst false (c.ld src n)

/-- The page that a way holds. -/
def Channel.ktPage (c : Channel) (h st : Nat) (y : KtWay) : Nat := (y.tag * max 1 (c.fld Reg.KT5_CTRL Fl.KT5_CTRL_TMB) + st) * 100 + h

/-- Writes a dirty page back; its words in the tier may be found bad (R278, R309). -/
def Channel.ktBackWrite (c : Channel) (h st w : Nat) (raws : RawWords) : Channel :=
  match c.kt h st w with
  | some y => if y.dirty then (((c.tierRead h 3 (c.ktWayAddr h st w) 0x1_0000 raws).copyMem (c.ktWayAddr h st w) (c.ktBack (c.ktPage h st y * 2 ^ 16)) 0x1_0000).count Reg.KT5_EVICT 1).setKt h st w (some { y with dirty := false }) else c
  | none => c

/-- The least recently used way; an empty one first. -/
def Channel.ktVictim (c : Channel) (h st : Nat) : Nat :=
  let age (w : Nat) : Nat := match c.kt h st w with | some y => y.used + 1 | none => 0
  (List.range 16).foldl (fun v w => if age w < age v then w else v) 0

/-- A page that has reached HEAT is copied into the tier. `raws`: words as its reads of LPDDR5X and of a victim's way find them (R278). -/
def Channel.ktMigrate (c : Channel) (p : Nat) (raws : RawWords) : Channel :=
  if !c.kt5.pend.contains p ∨ c.fld Reg.KT5_CTRL Fl.KT5_CTRL_EN = 0 then c
  else
    let (h, st, tg) := c.ktPlace p
    let w := c.ktVictim h st
    let c0 := c.ktBackWrite h st w raws
    let c1 := c0.memRaws 0 (c0.ktBack (p * 2 ^ 16)) 0x1_0000 raws
    let c2 := (c1.copyMem (c1.ktBack (p * 2 ^ 16)) (c1.ktWayAddr h st w) 0x1_0000).count Reg.KT5_MIGR 1
    let c3 := (c2.setKt h st w (some ⟨tg, false, c2.kt5.clock⟩)).setCands h st ((c2.cands h st).filter (fun e => e.1 != p))
    { c3 with kt5 := { c3.kt5 with pend := c3.kt5.pend.filter (fun x => x != p) } }

def execKt5Migration (ch : Chan) (page : Nat) (s : State) (raws : RawWords := []) : Outc := .next (s.onChan ch (fun c => c.ktMigrate page raws))

def execKt5HeatHalve (ch : Chan) (s : State) : Outc :=
  .next (s.onChan ch (fun c => { c with kt5 := { c.kt5 with cands := c.kt5.cands.map (fun e => (e.1, e.2.map (fun k => (k.1, k.2 / 2)))) } }))

/-- Writes every dirty page back and invalidates every way. -/
def Channel.ktClean (c : Channel) : Channel :=
  let c1 := c.kt5.ways.foldl (fun c e => c.ktBackWrite (e.1 / 1024) (e.1 / 16 % 64) (e.1 % 16) []) c
  { c1 with kt5 := { c1.kt5 with ways := [], pend := [] } }

/-- FLUSH = 1, or EN = 0 while EN is 1. -/
def Channel.ktFlush (c : Channel) (disable : Bool) : Channel :=
  let c1 := c.ktClean.setFld Reg.KT5_CTRL Fl.KT5_CTRL_BUSY 1
  { c1 with kt5 := { c1.kt5 with disabling := c1.kt5.disabling || disable } }

/-- The flush ends; pages made dirty meanwhile are written back too. -/
def Channel.ktFlushDone (c : Channel) : Channel :=
  if c.fld Reg.KT5_CTRL Fl.KT5_CTRL_BUSY = 0 then c
  else
    let c1 := c.ktClean.setFld Reg.KT5_CTRL Fl.KT5_CTRL_BUSY 0
    let c2 := if c1.kt5.disabling then c1.setFld Reg.KT5_CTRL Fl.KT5_CTRL_EN 0 else c1
    { c2 with kt5 := { c2.kt5 with disabling := false } }

def execKt5FlushDone (ch : Chan) (s : State) : Outc := .next (s.onChan ch (fun c => c.ktFlushDone))

/-- A write to KT5_CTRL, where no context is in STEP or RINSE (R306, R310). -/
def Channel.ktCtrl (c : Channel) (v : Nat) : Channel :=
  if c.anyBusy then c
  else
    let a := Reg.KT5_CTRL
    let en := c.fld a Fl.KT5_CTRL_EN = 1
    let busy := c.fld a Fl.KT5_CTRL_BUSY = 1
    let c1 := if en ∨ busy then c else (c.setFld a Fl.KT5_CTRL_HEAT (bits v 4 4)).setFld a Fl.KT5_CTRL_TMB (bits v 8 6)
    let sz := c1.fld Reg.KT5_MAP Fl.KT5_MAP_SIZE
    let tmb := c1.fld a Fl.KT5_CTRL_TMB
    let ok := decide (1 ≤ sz) && decide (c1.fld Reg.KT5_MAP Fl.KT5_MAP_LBASE + sz ≤ 192) && decide (1 ≤ tmb) && decide (tmb ≤ 32)
    let c2 := if bit v 0 then (if !en ∧ ok then c1.setFld a Fl.KT5_CTRL_EN 1 else c1)
              else if en ∧ !c1.kt5.disabling then c1.ktFlush true else c1
    if bit v 1 ∧ !busy ∧ c2.fld a Fl.KT5_CTRL_BUSY = 0 then c2.ktFlush false else c2

/-- A write to KT5_MAP. -/
def Channel.ktMapWrite (c : Channel) (v : Nat) : Channel :=
  if c.anyBusy ∨ c.fld Reg.KT5_CTRL Fl.KT5_CTRL_EN = 1 ∨ c.fld Reg.KT5_CTRL Fl.KT5_CTRL_BUSY = 1 then c else c.wr Reg.KT5_MAP (v % 2 ^ 16)

end Sys2Proof.Machine
end

