-- ==== Sys2Proof/Machine/Sm3.lean ====
section
/-! DEFINITION. SM3, the digest of bundles and images (R82, R434). The spec names the standard; its functions and constants are
PRESUMED from the published standard (log 25). -/

namespace Sys2Proof.Machine

open Sys2Proof

namespace Sm3

def w32 : Nat := 2 ^ 32

def rotl (x n : Nat) : Nat := let k := n % 32; ((x <<< k) % w32) ||| (x >>> (32 - k))

def p0 (x : Nat) : Nat := x ^^^ rotl x 9 ^^^ rotl x 17
def p1 (x : Nat) : Nat := x ^^^ rotl x 15 ^^^ rotl x 23

def iv : List Nat := [0x7380166F, 0x4914B2B9, 0x172442D7, 0xDA8A0600, 0xA96F30BC, 0x163138AA, 0xE38DEE4D, 0xB0FB0E4E]

/-- Words 16 to 67 of the message expansion, one at a time. -/
def expandGo : Nat → List Nat → List Nat
  | 0, w => w
  | n + 1, w =>
    let j := w.length
    let x := p1 (nth 0 w (j - 16) ^^^ nth 0 w (j - 9) ^^^ rotl (nth 0 w (j - 3)) 15) ^^^ rotl (nth 0 w (j - 13)) 7 ^^^ nth 0 w (j - 6)
    expandGo n (w ++ [x])

/-- The eight registers of the compression. -/
structure Regs where
  a : Nat
  b : Nat
  c : Nat
  d : Nat
  e : Nat
  f : Nat
  g : Nat
  h : Nat

def round (w : List Nat) (r : Regs) (j : Nat) : Regs :=
  let t := if j < 16 then 0x79CC4519 else 0x7A879D8A
  let ss1 := rotl ((rotl r.a 12 + r.e + rotl t j) % w32) 7
  let ss2 := ss1 ^^^ rotl r.a 12
  let ff := if j < 16 then r.a ^^^ r.b ^^^ r.c else (r.a &&& r.b) ||| (r.a &&& r.c) ||| (r.b &&& r.c)
  let gg := if j < 16 then r.e ^^^ r.f ^^^ r.g else (r.e &&& r.f) ||| ((w32 - 1 - r.e) &&& r.g)
  let tt1 := (ff + r.d + ss2 + (nth 0 w j ^^^ nth 0 w (j + 4))) % w32
  let tt2 := (gg + r.h + ss1 + nth 0 w j) % w32
  ⟨tt1, r.a, rotl r.b 9, r.c, p0 tt2, r.e, rotl r.f 19, r.g⟩

/-- One block of 64 bytes. -/
def block (v : List Nat) (bs : List Byte) : List Nat :=
  let w0 := (List.range 16).map (fun i => ((bs.drop (4 * i)).take 4).foldl (fun x b => x * 256 + b.toNat) 0)
  let w := expandGo 52 w0
  let r := (List.range 64).foldl (round w) ⟨nth 0 v 0, nth 0 v 1, nth 0 v 2, nth 0 v 3, nth 0 v 4, nth 0 v 5, nth 0 v 6, nth 0 v 7⟩
  v.zipWith (· ^^^ ·) [r.a, r.b, r.c, r.d, r.e, r.f, r.g, r.h]

def blocks : Nat → List Byte → List Nat → List Nat
  | 0, _, v => v
  | n + 1, m, v => blocks n (m.drop 64) (block v (m.take 64))

end Sm3

/-- The 32 bytes of the digest of a message. -/
def sm3 (m : List Byte) : List Byte :=
  let z := (119 - m.length % 64) % 64
  let p := m ++ [0x80] ++ List.replicate z 0 ++ (leBytes 8 (8 * m.length)).reverse
  (Sm3.blocks (p.length / 64) p Sm3.iv).flatMap (fun x => (leBytes 4 x).reverse)

end Sys2Proof.Machine
end

