-- ==== Sys2Proof/Machine/Prick.lean ====
section
/-! DEFINITION. Pricking bundles: their layout, the checks of R85, loading, reconfiguration, release (R82 to R90, R194 to R196). -/

namespace Sys2Proof.Machine

open Sys2Proof

/-! ### Layout (R82 to R84) -/

/-- A little-endian field of n bytes in a list of bytes. -/
def fieldAt (m : List Byte) (off n : Nat) : Nat := leNat ((m.drop off).take n)

/-- A bundle's bytes. -/
structure Bundle where
  m : List Byte

def Bundle.f (b : Bundle) (off n : Nat) : Nat := fieldAt b.m off n
def Bundle.ncores (b : Bundle) : Nat := b.f 6 2
def Bundle.mb (b : Bundle) : Nat := b.f 8 2
def Bundle.stages (b : Bundle) : Nat := b.f 0xA 2
def Bundle.length (b : Bundle) : Nat := b.f 0xC 4
def Bundle.site (b : Bundle) (i : Nat) : Nat := b.f (0x40 + 16 * i) 1
def Bundle.imgLen (b : Bundle) (i : Nat) : Nat := b.f (0x44 + 16 * i) 4
def Bundle.imgOff (b : Bundle) (i : Nat) : Nat := b.f (0x48 + 16 * i) 8
def Bundle.sites (b : Bundle) : List Nat := (List.range b.ncores).map b.site

/-- A field of core image i. -/
def Bundle.g (b : Bundle) (i off n : Nat) : Nat := b.f (b.imgOff i + off) n

/-- Its sections: offset and bytes. -/
def Bundle.sections (b : Bundle) (i : Nat) : List (Nat × Nat) :=
  [(b.g i 0x40 4, 512 * b.g i 6 2), (b.g i 0x44 4, 32768), (b.g i 0x48 4, 256), (b.g i 0x4C 4, 4 * b.g i 0x24 4), (b.g i 0x50 4, b.g i 0x20 4)]

/-- A schedule entry of core image i: PE n, position pos. -/
def Bundle.sched (b : Bundle) (i n pos : Nat) : Nat := b.g i (b.g i 0x40 4 + (n * b.g i 6 2 + pos) * 8) 8
def Bundle.tack (b : Bundle) (i t : Nat) : Nat := b.g i (b.g i 0x48 4 + 4 * t) 4
def Bundle.run (b : Bundle) (i j : Nat) : Nat := b.g i (b.g i 0x4C 4 + 4 * j) 4
def Bundle.runs (b : Bundle) (i : Nat) : List Nat := (List.range (b.g i 0x24 4)).map (b.run i)

/-- The bundle at an address, as long as its header says. -/
def Channel.bundleAt (c : Channel) (a : Nat) : Bundle := ⟨c.ld a (max 64 (c.ldN (a + 0xC) 4))⟩

/-! ### The checks of R85 -/

/-- Check 2. -/
def Bundle.headerOk (b : Bundle) : Bool :=
  b.f 0 4 == 0x4B37_5052 && b.f 4 2 == 1 && decide (1 ≤ b.ncores) && decide (b.ncores ≤ 100) && decide (1 ≤ b.mb) && decide (b.mb ≤ 4095)
  && decide (1 ≤ b.stages) && decide (b.stages ≤ 100) && b.f 0x30 16 == 0 && decide (0x40 + 16 * b.ncores ≤ b.length)
  && (List.range b.ncores).all (fun i => b.f (0x41 + 16 * i) 3 == 0 && b.imgOff i % 64 == 0 && decide (b.imgOff i + b.imgLen i ≤ b.length))

/-- Check 3. -/
def Bundle.digestOk (b : Bundle) : Bool := (b.m.drop 0x10).take 32 == sm3 (b.m.drop 0x40)

/-- Check 4. -/
def Channel.sitesOk (c : Channel) (b : Bundle) : Bool := b.sites.all (fun s => c.usable s && decide (b.sites.count s = 1))

/-- Check 5. -/
def Bundle.peersOk (b : Bundle) : Bool :=
  (List.range b.ncores).all (fun i => (setPositions (b.g i 8 16) 100).all (fun s => b.sites.contains s))

/-- Whether two sections share a byte. -/
def overlap (x y : Nat × Nat) : Bool := decide (x.1 < y.1 + y.2) && decide (y.1 < x.1 + x.2) && x.2 != 0 && y.2 != 0

def sectionsApart : List (Nat × Nat) → Bool
  | [] => true
  | x :: t => t.all (fun y => !overlap x y) && sectionsApart t

/-- A schedule entry's reserved bits, sources and operation (R167 to R169, R171). -/
def schedOk (e : Nat) : Bool := decide (e < 2 ^ 26) && (List.range 8).all (fun k => entOut e k != 7) && entOp e != 3

/-- Check 6 for image i. -/
def Bundle.imageOk (b : Bundle) (i : Nat) : Bool :=
  let len := b.imgLen i
  let dst := b.g i 0x18 8
  let n := b.g i 0x20 4
  let s := b.site i
  let per := b.g i 6 2
  let ip (x : Nat) : Bool := decide (dst ≤ x) && decide (x < dst + n)
  decide (128 ≤ len) && b.g i 0 1 == s && b.g i 1 1 == 0 && decide (b.g i 2 2 < b.stages) && decide (b.g i 4 2 ≤ 99) && decide (1 ≤ per) && decide (per ≤ 1024)
  && decide (b.g i 8 16 < 2 ^ 100) && n % 16 == 0 && decide (2 ≤ b.g i 0x24 4) && decide (b.g i 0x24 4 ≤ 8192) && b.g i 0x54 44 == 0
  && (b.sections i).all (fun x => x.1 % 64 == 0 && decide (0x80 ≤ x.1) && decide (x.1 + x.2 ≤ len)) && sectionsApart (b.sections i)
  && (decide (spadBase s ≤ dst ∧ dst + n ≤ spadBase (s + 1)) || decide (sliceBase s ≤ dst ∧ dst + n ≤ sliceBase (s + 1)))
  && ip (b.g i 0x28 8) && ip (b.g i 0x30 8) && ip (b.g i 0x38 8)
  && (List.range 64).all (fun t => decide (b.tack i t < 2 ^ 17))
  && (List.range 64).all (fun pe => (List.range per).all (fun pos => schedOk (b.sched i pe pos)))

def eCount (l : List Nat) : Nat := (l.filter (fun e => entryKind e == 2)).length

/-- Check 7 for one run list. -/
def runListOk (m : Nat) (l : List Nat) : Bool :=
  let f (k mb : Nat) : List Nat := (List.range l.length).filter (fun j => entryKind (nth 0 l j) == k && entryMb (nth 0 l j) == mb)
  l.all (fun e => decide (e < 2 ^ 14) && (if entryKind e ≤ 1 then decide (entryMb e < m) else entryMb e == 0))
  && (List.range m).all (fun mb => match f 0 mb, f 1 mb with
    | [x], [y] => decide (x < y)
    | _, _ => false)
  && decide ((l.filter (fun e => entryKind e == 3)).length = 1) && entryKind (nth 0 l (l.length - 1)) == 3

def Bundle.runsOk (b : Bundle) : Bool :=
  (List.range b.ncores).all (fun i => runListOk b.mb (b.runs i) && eCount (b.runs i) == eCount (b.runs 0))

/-- The status of the first check that fails, 0 where none does. -/
def Channel.bundleCheck (c : Channel) (x : Nat) (b : Bundle) (unread : Bool) : Nat :=
  if c.ctxState x ≠ ctxEmpty ∧ c.ctxState x ≠ ctxReady then 1
  else if !b.headerOk ∨ unread ∨ !b.digestOk then 2
  else if !c.sitesOk b then 3
  else if !b.peersOk ∨ !(List.range b.ncores).all b.imageOk ∨ !b.runsOk then 2
  else if b.sites.any (fun s => match (c.core s).owner with | some y => y != x | none => false) then 1
  else 0

/-! ### Loading and release (R86 to R90, R194 to R196) -/

/-- Closes the windows that `p` picks, an earlier close of theirs done. -/
def Channel.winsShut (c : Channel) (p : Nat → Bool) : Channel :=
  (List.range 64).foldl (fun c n => if p n then (c.winClose n).setFld (Reg.YLW_CTRL n) Fl.YLW_CTRL_CLOSING 0 else c) c

/-- Takes every line out of a queue, counted in CORE_EPFLUSH, and forgets its producer. -/
def Channel.queueFlush (i q : Nat) : Nat → Channel → Channel
  | 0, c => c.setCore i ((c.core i).setQueue q Queue.reset)
  | n + 1, c =>
    match c.qPop i q with
    | some (_, c1) => Channel.queueFlush i q n (c1.count (Reg.CORE_EPFLUSH i) 1)
    | none => c.setCore i ((c.core i).setQueue q Queue.reset)

def Channel.queuesFlush (c : Channel) (i : Nat) : Channel := (List.range 8).foldl (fun c q => Channel.queueFlush i q (c.queueLines i q) c) c

/-- Clears VALID in every half-table entry of a core that a load takes or releases (R263). -/
def Channel.halvesOff (c : Channel) (i : Nat) : Channel :=
  (List.range 16).foldl (fun c n => c.setFld (Reg.CORE_HALF_CFG i n) Fl.CORE_HALF_CFG_VALID 0) c

/-- Releases a core of context x: the windows into its scratchpad close, its queues are emptied; its credits and the number of eligible
bobbins since reset stay (R221). -/
def Channel.releaseCore (c : Channel) (x i : Nat) : Channel :=
  let c1 := c.winsShut (fun n => c.winSite n == some i && c.winCtx n == x)
  let c2 := c1.queuesFlush i
  c2.setCore i { Core.reset with pools := (c2.core i).pools, elig := (c2.core i).elig }

/-- A core as a bundle loads it: no queue has a producer in the new epoch yet (R181). -/
def Bundle.core (b : Bundle) (x i : Nat) (old : Core) : Core :=
  let per := b.g i 6 2
  { Core.reset with
    owner := some x, stage := b.g i 2 2, replica := b.g i 4 2, period := per, peers := b.g i 8 16, codeLo := b.g i 0x18 8, codeLen := b.g i 0x20 4,
    fIp := b.g i 0x28 8, bIp := b.g i 0x30 8, uIp := b.g i 0x38 8, runList := b.runs i,
    sched := (List.range 64).flatMap (fun n => (List.range per).filterMap (fun pos => let e := b.sched i n pos; if e = 0 then none else some (n * 1024 + pos, e))),
    tack0 := (List.range 64).filterMap (fun t => let v := b.tack i t; if v = 0 then none else some (t, v)),
    queues := old.queues.filterMap (fun e => let q := { e.2 with psite := none }; if q = Queue.reset then none else some (e.1, q)),
    pools := old.pools, elig := old.elig }

/-- Writes the tables of core image i (R86 step 2). -/
def Channel.loadCore (c : Channel) (x : Nat) (b : Bundle) (i : Nat) : Channel :=
  let s := b.site i
  let c1 := (c.halvesOff s).setCore s (b.core x i (c.core s))
  let c2 := (List.range 512).foldl (fun c d => c.setDesc s d (b.g i (b.g i 0x44 4 + 64 * d) 64)) c1
  let c3 := (List.range 64).foldl (fun c t =>
    (c.setTack s t (b.tack i t % 2 ^ 16)).setFld (Reg.CORE_TACK s t) Fl.CORE_TACK_REMOTE (bits (b.tack i t) 16 1)) c2
  c3.st (b.g i 0x18 8) false ((b.m.drop (b.imgOff i + b.g i 0x50 4)).take (b.g i 0x20 4))

/-- A load whose checks have passed and whose queues have drained or are flushed (R86). -/
def Channel.loadGo (c : Channel) (id x : Nat) (b : Bundle) (flush : Bool) : Channel :=
  let c1 := ((c.ownedSites x).filter (fun i => !b.sites.contains i)).foldl (fun c i => (c.halvesOff i).releaseCore x i) c
  let c2 := (List.range b.ncores).foldl (fun c i => c.loadCore x b i) c1
  let c3 := (List.range 8).foldl (fun c k => c.wr (Reg.CTX_DIGEST x k) (b.f (0x10 + 4 * k) 4)) c2
  let c4 := c3.setFld (Reg.CTX_EPOCH x) Fl.CTX_EPOCH_CONFIG ((c3.config x + 1) % 256)
  let c5 := if flush then b.sites.foldl (fun c i => c.queuesFlush i) c4 else c4
  let c6 := ((c5.setFld (Reg.CTX_STATE x) Fl.CTX_STATE_MB b.mb).setFld (Reg.CTX_STATE x) Fl.CTX_STATE_STAGES b.stages).setCtxState x ctxReady
  c6.endCmd id 0 0 (c6.config x)

/-- Whether the context's queues are empty and its lines acknowledged (R195). -/
def Channel.drained (c : Channel) (x : Nat) : Bool :=
  (c.ownedSites x).all (fun i => (List.range 8).all (fun q => c.queueLines i q == 0) && !c.qlines.any (fun e => e.src == i))

/-- LOAD_PRICKING, started (R85, R87, R195, R196). `raws`: words of the bundle as it is read. -/
def Channel.loadStart (c0 : Channel) (id x a : Nat) (flush : Bool) (raws : RawWords) : Channel :=
  let (c, unread) := c0.readRaws a (max 64 (c0.ldN (a + 0xC) 4)) raws
  let b := c.bundleAt a
  let st := c.bundleCheck x b unread
  if st ≠ 0 then c.endCmd id st 0 0
  else if c.ctxState x = ctxReady ∧ !flush ∧ !c.drained x then
    if c.fld Reg.SPAT_DRAINTO Fl.SPAT_DRAINTO_US = 0 then c.endCmd id 1 0 0
    else { c with host := { c.host with loads := c.host.loads ++ [⟨id, x, a⟩] } }
  else c.loadGo id x b flush

/-- The wait of context x's load ends: the load goes on where the queues are empty, or ends with STATE. -/
def Channel.loadWaitEnd (c : Channel) (x : Nat) (late : Bool) : Channel :=
  match c.host.loads.find? (fun l => l.ctx == x) with
  | none => c
  | some l =>
    let c1 := { c with host := { c.host with loads := c.host.loads.filter (fun e => e.ctx != x) } }
    if late then c1.endCmd l.id 1 0 0
    else if c.drained x then c1.loadGo l.id x (c.bundleAt l.bundle) false
    else c

def execReconfigDrainDone (ch : Chan) (x : Ctx) (s : State) : Outc := .next (s.onChan ch (fun c => c.loadWaitEnd x.val false))
def execReconfigDrainTimeout (ch : Chan) (x : Ctx) (s : State) : Outc := .next (s.onChan ch (fun c => c.loadWaitEnd x.val true))

/-- A context becomes EMPTY: its shape and digest read 0. -/
def Channel.ctxEmptied (c : Channel) (x : Nat) : Channel :=
  let c1 := (List.range 8).foldl (fun c k => c.wr (Reg.CTX_DIGEST x k) 0) c
  ((c1.setFld (Reg.CTX_STATE x) Fl.CTX_STATE_MB 0).setFld (Reg.CTX_STATE x) Fl.CTX_STATE_STAGES 0).setCtxState x ctxEmpty

/-- UNLOAD of a READY context (R90). -/
def Channel.unload (c : Channel) (x : Nat) : Channel :=
  let c1 := (c.ownedSites x).foldl (fun c i => c.releaseCore x i) c
  (c1.winsShut (fun n => c1.winCtx n == x && (c1.winOpen n || c1.fld (Reg.YLW_CTRL n) Fl.YLW_CTRL_CLOSING == 1))).ctxEmptied x

end Sys2Proof.Machine
end

