-- ==== Sys2Proof/Machine/Power.lean ====
section
/-! DEFINITION. Power states, wake events, DVFS, throttling, emergencies, the POWER messages (R476 to R496). -/

namespace Sys2Proof.Machine

open Sys2Proof

def Channel.pst (c : Channel) : Nat := c.fld Reg.PWR_STATUS Fl.PWR_STATUS_STATE
def Channel.setPst (c : Channel) (v : Nat) : Channel := c.setFld Reg.PWR_STATUS Fl.PWR_STATUS_STATE v
def Channel.setBusy (c : Channel) (b : Bool) : Channel := c.setFld Reg.PWR_STATUS Fl.PWR_STATUS_BUSY (b2n b)

/-- The gated halves: bit 0 west, bit 1 east. -/
def Channel.gated (c : Channel) : Nat := c.fld Reg.PWR_STATUS Fl.PWR_STATUS_GATED_W + 2 * c.fld Reg.PWR_STATUS Fl.PWR_STATUS_GATED_E
def Channel.setGated (c : Channel) (h : Nat) : Channel :=
  (c.setFld Reg.PWR_STATUS Fl.PWR_STATUS_GATED_W (h % 2)).setFld Reg.PWR_STATUS Fl.PWR_STATUS_GATED_E (h / 2 % 2)

/-- The sites of the halves named: columns 0 to 4 are west, 5 to 9 east (R52). -/
def halfSites (h : Nat) : List Nat := (List.range 100).filter (fun i => bit h (if i % 10 < 5 then 0 else 1))

/-- The code of R405 of a master at channel n; cores and agents without a code have none. -/
def masterId (n : Nat) : Master → Nat
  | .pf0 => 0x10
  | .pf => 0x11 + n
  | .qseq => 0x20
  | .tseq => 0x21
  | .pseq => 0x22
  | .fseq => 0x23
  | .dwegar => 0x24
  | .core => 0
  | .other => 0

/-! ### POWER messages (R495) -/

def pwrMsg (dst cmd arg : Nat) : CMsg := .power (BitVec.ofNat 32 (2 ^ 29 + dst * 2 ^ 22 + 102 * 2 ^ 15 + arg * 16 + cmd)) []

/-- PSEQ sends a command and waits for the acknowledgements of the nodes given. -/
def Channel.pwrSend (c : Channel) (dst cmd arg : Nat) (nodes : List Nat) : Channel :=
  { c with
    cmsgs := c.cmsgs ++ [pwrMsg dst cmd arg]
    pwr := { c.pwr with acks := c.pwr.acks ++ nodes.map (fun n => (n, cmd)) } }

def Channel.sitesOf (c : Channel) (h : Nat) : List Nat := (halfSites h).filter c.usable

/-- A command to the halves h, broadcast to the core sites. -/
def Channel.pwrHalves (c : Channel) (cmd h : Nat) : Channel := if h = 0 then c else c.pwrSend 127 cmd h (c.sitesOf h)

/-- A command to every core site. -/
def Channel.pwrSites (c : Channel) (cmd : Nat) : Channel := (c.sitesOf 3).foldl (fun c i => c.pwrSend i cmd 0 [i]) c

/-- A POWER message on its way reaches its node, the oldest first; at a site out of service it is lost (R65, R68). -/
def Channel.pwrTake (c : Channel) (dst cmd arg : Nat) (ecc : Ecc) (f : Channel → Channel) : Channel :=
  let m := pwrMsg dst cmd arg
  if !c.msgNext m then c
  else
    let c1 := { c with cmsgs := eraseFirst m c.cmsgs }
    c1.cnetRx dst (2 ^ 29 + dst * 2 ^ 22 + 102 * 2 ^ 15 + arg * 16 + cmd) ecc (fun d =>
      if dst < 100 ∧ !c.usable dst then d.addFld Reg.CNET_CORR Fl.CNET_CORR_LOST 1 else f d)

/-- The gated set changes; the channel is in C1 while it is not empty and no deeper state applies. -/
def Channel.gateTo (c : Channel) (h : Nat) : Channel :=
  let c1 := c.setGated h
  if 2 ≤ c.pst then c1
  else
    let v := if h = 0 then 0 else 1
    if v = c.pst then c1 else (c1.setPst v).event 6

def execGate (ch : Chan) (halves : BitVec 2) (s : State) (ecc : Ecc := .clean) : Outc :=
  .next (s.onChan ch (fun c => c.pwrTake 127 0 halves.toNat ecc (fun c => c.gateTo (c.gated ||| halves.toNat))))

def execUngate (ch : Chan) (halves : BitVec 2) (s : State) (ecc : Ecc := .clean) : Outc :=
  .next (s.onChan ch (fun c => c.pwrTake 127 1 halves.toNat ecc (fun c => c.gateTo (c.gated &&& (3 - halves.toNat)))))

/-- What a core loses when its island goes off for C2: array and bobbins (R478). -/
def Channel.coreOff (c : Channel) (i : Nat) : Channel :=
  (List.range 16).foldl (fun c j => c.bobClear i j) (c.setCore i { c.core i with arr := .reset })

def execIslandOff (ch : Chan) (halves : BitVec 2) (s : State) (ecc : Ecc := .clean) : Outc :=
  .next (s.onChan ch (fun c => c.pwrTake 127 2 halves.toNat ecc (fun c => (c.sitesOf halves.toNat).foldl (fun c i => c.coreOff i) c)))

/-- CORE_SPRET.EFF: the segments that core i retains in C2 (R260). -/
def Channel.spretEff (c : Channel) (i : Nat) : Nat :=
  let k := c.core i
  let lo := spadBase i
  let seg (s : Span) (g : Nat) : Bool := decide (s.lo < lo + (g + 1) * 0x2_0000) && decide (lo + g * 0x2_0000 < s.lo + s.len)
  let spans : List Span := (if k.owner.isSome then [⟨k.codeLo, k.codeLen⟩] else []) ++
    (if c.ringLines i = 0 then [] else [⟨c.ringAddr i 0 0, 8 * c.darnQsz i * 4096⟩])
  (List.range 16).foldl (fun x g => setBits x g 1 (b2n (bit (c.fld (Reg.CORE_SPRET i) Fl.CORE_SPRET_MASK) g || spans.any (fun s => s.len != 0 && seg s g)))) 0

/-- A core comes back from C2: what was not retained is zero. -/
def Channel.coreOn (c : Channel) (i : Nat) : Channel :=
  let e := c.spretEff i
  { c with mem := (List.range 16).foldl (fun m g => if bit e g then m else mclear m (spadBase i + g * 0x2_0000) (spadBase i + (g + 1) * 0x2_0000)) c.mem }

def execIslandOn (ch : Chan) (halves : BitVec 2) (s : State) (ecc : Ecc := .clean) : Outc :=
  .next (s.onChan ch (fun c => c.pwrTake 127 3 halves.toNat ecc (fun c =>
    if c.pst = 2 then (c.sitesOf halves.toNat).foldl (fun c i => c.coreOn i) c else c)))

def Channel.setQuiet (c : Channel) (i : Nat) (b : Bool) : Channel := c.setCore i { c.core i with quiet := b }

def execQuiesce (ch : Chan) (site : Site) (s : State) (ecc : Ecc := .clean) : Outc :=
  .next (s.onChan ch (fun c => c.pwrTake site.val 4 0 ecc (fun c => c.setQuiet site.val true)))

def execResume (ch : Chan) (site : Site) (s : State) (ecc : Ecc := .clean) : Outc :=
  .next (s.onChan ch (fun c => c.pwrTake site.val 5 0 ecc (fun c => c.setQuiet site.val false)))

/-- Whether a core that no longer issues is idle. -/
def Core.idle (k : Core) : Bool := k.f.flights.isEmpty && k.b.flights.isEmpty && k.u.flights.isEmpty

/-- An acknowledgement reaches PSEQ: the command has reached the node and has taken effect. -/
def Channel.ackRx (c : Channel) (node cmd : Nat) (ecc : Ecc) : Channel :=
  let onWay := c.cmsgs.any (fun m => match m with
    | .power h _ => bits h.toNat 0 4 == cmd && (bits h.toNat 22 7 == node || bits h.toNat 22 7 == 127)
    | _ => false)
  if (node, cmd) ∉ c.pwr.acks ∨ onWay ∨ (cmd = 4 ∧ !(c.core node).idle) then c
  else c.cnetRx 102 (2 ^ 29 + 102 * 2 ^ 22 + node * 2 ^ 15 + 15 + cmd * 16) ecc (fun c => { c with pwr := { c.pwr with acks := eraseFirst (node, cmd) c.pwr.acks } })

def execAck (ch : Chan) (node : Fin 128) (cmd : BitVec 4) (s : State) (ecc : Ecc := .clean) : Outc := .next (s.onChan ch (fun c => c.ackRx node.val cmd.toNat ecc))

/-! ### Refusals and wakes (R480 to R485) -/

/-- A request is refused. -/
def Channel.pwrRefuse (c : Channel) (refuser who reason target : Nat) (dvfs : Bool) : Channel :=
  let c1 := c.count (if dvfs then Reg.PWR_ORDERREF else Reg.PWR_REFUSED) 1
  let c2 := if c1.fld Reg.PWR_REFREC Fl.PWR_REFREC_VALID = 1 then c1
    else c1.wr Reg.PWR_REFREC (1 + refuser % 2 ^ 8 * 2 + who % 2 ^ 8 * 2 ^ 9 + reason % 2 ^ 4 * 2 ^ 17 + target % 2 ^ 3 * 2 ^ 21 + b2n dvfs * 2 ^ 24)
  c2.event 6

/-- The lowest port that is enabled. -/
def Channel.firstPort (c : Channel) : Option Nat := (List.range 6).find? (fun k => c.fld (Reg.YLP_CTRL k) Fl.YLP_CTRL_EN == 1)

/-- The checks of R480 for an entry: refuser and reason of the first that fails. An exit under way refuses with BUSY (R482). -/
def Channel.entryCheck (c : Channel) (target : Nat) : Option (Nat × Nat) :=
  if c.pwr.exit then some (0x22, 1)
  else if 2 ≤ c.pst then some (0x22, 0)
  else if c.pwr.entry.isSome then some (0x22, 1)
  else if target = 1 then none
  else if c.anyBusy ∨ c.rphase ≠ 0 then some (0x20, 2)
  else if 3 ≤ target ∧ c.fld Reg.DWG_STATUS Fl.DWG_STATUS_OP ≠ 0 then some (0x24, 3)
  else if target = 4 then c.firstPort.map (fun k => (0x40 + k, 4))
  else none

/-- An exit begins (R483). -/
def Channel.exitBegin (c : Channel) : Channel :=
  let c1 := Channel.setBusy { c with pwr := { c.pwr with exit := true } } true
  let c2 := c1.pwrHalves 1 c.gated
  if c.pst = 2 ∨ c.pst = 3 then (c2.pwrHalves 3 3).pwrSites 5 else c2

/-- A wake event of a source, at a port for LINK (R482 to R484, R494). -/
def Channel.wakeEvent (c : Channel) (src port : Nat) : Channel :=
  if c.pwr.stop ∨ c.pwr.removed then c
  else
    match c.pwr.entry with
    | some e => if e.wake.isSome then c else { c with pwr := { c.pwr with entry := some { e with wake := some (src, port) } } }
    | none => if c.pwr.exit ∨ c.pst = 0 ∨ (c.pst = 4 ∧ src ≠ 0) then c else c.exitBegin

/-- A demand wake that an access makes which waits `us` microseconds. -/
def Channel.demand (c : Channel) (us : Nat) : Channel :=
  if c.pst = 0 ∨ c.pst = 4 then c
  else (((c.count Reg.PWR_DEMAND 1).raiseFld Reg.PWR_DEMMAX Fl.PWR_DEMMAX_US us).wakeEvent 3 0)

def execDemandWake (ch : Chan) (us : BitVec 16) (s : State) : Outc := .next (s.onChan ch (fun c => c.demand us.toNat))

/-- The wake pin has been asserted for 1 µs. -/
def Channel.pinOn (c : Channel) : Channel :=
  let c1 := c.setFld Reg.PWR_STATUS Fl.PWR_STATUS_PIN 1
  if !c.pwr.armed then c1
  else
    let c2 := { c1 with pwr := { c1.pwr with armed := false } }
    if c2.fld Reg.PWR_WAKECFG Fl.PWR_WAKECFG_PINEN = 1 then c2.wakeEvent 0 0 else c2

def execWakePin (ch : Chan) (s : State) : Outc := .next (s.onChan ch (fun c => c.pinOn))

def execWakePinDeassert (ch : Chan) (s : State) : Outc :=
  .next (s.onChan ch (fun c => Channel.setFld { c with pwr := { c.pwr with armed := true } } Reg.PWR_STATUS Fl.PWR_STATUS_PIN 0))

/-- A WAKE packet (R372, R483). -/
def execWake (ch : Chan) (k : Port) (p : Pkt) (s : State) : Outc :=
  .next (s.onChan ch (fun c =>
    let c1 := c.takeRx k.val p
    if p.ptype = 7 ∧ c1.fld Reg.PWR_WAKECFG Fl.PWR_WAKECFG_LINKEN = 1 then c1.wakeEvent 1 k.val else c1))

/-! ### Entries (R479 to R482) -/

/-- A request to gate the halves given, and no others. -/
def Channel.gateReq (c : Channel) (who halves : Nat) : Channel :=
  match c.entryCheck 1 with
  | some (r, n) => c.pwrRefuse r who n 1 false
  | none => (c.pwrHalves 0 (halves &&& (3 - c.gated))).pwrHalves 1 (c.gated &&& (3 - halves))

/-- An entry request; entry into C2 has no drain and no flush. -/
def Channel.enterReq (c : Channel) (who target : Nat) : Channel :=
  match c.entryCheck target with
  | some (r, n) => c.pwrRefuse r who n target false
  | none =>
    let c1 := Channel.setBusy { c with pwr := { c.pwr with entry := some ⟨target, who, if target = 2 then 3 else 1, none⟩ } } true
    if target = 2 then c1.pwrSites 4 else c1

/-- A write to PWR_REQ (R479, R483). -/
def Channel.pwrReq (c : Channel) (who v : Nat) : Channel :=
  match bits v 0 3 with
  | 0 => c.wakeEvent 2 0
  | 1 => c.gateReq who (bits v 3 2)
  | 2 => c.enterReq who 2
  | 3 => c.enterReq who 3
  | 4 => c.enterReq who 4
  | _ => c

/-- The entry is undone: fetching and the cores go on. -/
def Channel.entryUndo (c : Channel) : Channel :=
  let q := (c.sitesOf 3).any (fun i => (c.core i).quiet)
  let sent := c.cmsgs.filter (fun m => !(match m with | .power h _ => bits h.toNat 0 4 == 4 | _ => false))
  let c1 := { c with cmsgs := sent, pwr := { c.pwr with entry := none, acks := c.pwr.acks.filter (fun a => a.2 != 4) } }
  (if q then c1.pwrSites 5 else c1).setBusy false

/-- An entry is abandoned at an abort point. -/
def Channel.entryAbort (c : Channel) (e : PwrEntry) (ap : Nat) : Channel :=
  let (src, port) := e.wake.getD (0, 0)
  let c1 := c.entryUndo.count Reg.PWR_ABORTED 1
  let c2 := if c1.fld Reg.PWR_ABREC Fl.PWR_ABREC_VALID = 1 then c1 else c1.wr Reg.PWR_ABREC (1 + src * 2 + e.target * 8 + ap * 2 ^ 6 + port * 2 ^ 9)
  c2.event 6

def Channel.setEntry (c : Channel) (e : PwrEntry) : Channel := { c with pwr := { c.pwr with entry := some e } }

/-- An abort point: the entry goes on unless a wake event has come. -/
def Channel.abortPoint (c : Channel) (e : PwrEntry) (ap : Nat) (f : Channel → Channel) : Channel :=
  if e.wake.isSome then c.entryAbort e ap else f c

/-- Step 3 ends once the flash write buffer is clean, or the flash takes no more programs; then QUIESCE goes out. -/
def Channel.flushGo (c : Channel) : Channel :=
  match c.pwr.entry with
  | none => c
  | some e =>
    if e.step ≠ 2 ∨ (!c.flash.buf.isEmpty ∧ !c.fstat Fl.FLASH_STATUS_FAILED ∧ !c.fstat Fl.FLASH_STATUS_RO) then c
    else c.abortPoint e 3 (fun c => (c.setEntry { e with step := 3 }).pwrSites 4)

/-- Step 2 ends: no command is in progress. -/
def Channel.entryDrained (c : Channel) : Channel :=
  match c.pwr.entry with
  | none => c
  | some e =>
    if e.step ≠ 1 ∨ !c.host.cmds.isEmpty then c
    else c.abortPoint e 2 (fun c => (Channel.flashFlush (c.setEntry { e with step := 2 })).flushGo)

def execEntryDrainDone (ch : Chan) (s : State) : Outc := .next (s.onChan ch (fun c => c.entryDrained))

def execEntryDrainTimeout (ch : Chan) (s : State) : Outc :=
  .next (s.onChan ch (fun c =>
    match c.pwr.entry with
    | some e => if e.step = 1 ∧ !c.host.cmds.isEmpty then c.entryUndo.pwrRefuse 0x20 e.who 1 e.target false else c
    | none => c))

/-- A programmed unit may end the flush of an entry. -/
def execFlashUnitProgram (ch : Chan) (unit : Fin 268435456) (blk : Nat) (ok : Bool) (res : FlashRes) (s : State) : Outc :=
  .next (s.onChan ch (fun c => (c.unitProgram unit.val blk ok res).flushGo))

/-- Step 4 ends: every core has acknowledged QUIESCE. The windows close and the islands go off. -/
def Channel.entryQuiet (c : Channel) : Channel :=
  match c.pwr.entry with
  | none => c
  | some e =>
    if e.step ≠ 3 ∨ c.pwr.acks.any (fun a => a.2 == 4) then c
    else c.abortPoint e 4 (fun c =>
      let c1 := c.setEntry { e with step := 4 }
      let c2 := if 3 ≤ e.target then c1.winsShut (fun n => c1.winOpen n || c1.fld (Reg.YLW_CTRL n) Fl.YLW_CTRL_CLOSING == 1) else c1
      let c3 := if e.target = 3 then (List.range 6).foldl (fun c k => c.askWidth k 1) c2 else c2
      c3.pwrHalves 2 3)

def execEntryQuiesced (ch : Chan) (s : State) : Outc := .next (s.onChan ch (fun c => c.entryQuiet))

/-! ### What the states lose (R29, R478) -/

/-- Flash as it stands when its controller stops: what was durable, the active map, the blocks. -/
def Channel.flashDurable (c : Channel) (fr : Nat) : Channel :=
  let d := c.bufferLoss fr
  let m := if d.fgen then d.flash.map1 else d.flash.map0
  { d with flash := { FlashSt.reset with map0 := m, map1 := m, blocks := d.flash.blocks } }

/-- Registers of flash that tell of its whole life (R300, R304). -/
def lifeReg (a : Nat) : Bool := decide (0x280C ≤ a) && decide (a < 0x281C) || a == Reg.FLASH_GROWN

/-- The trouble log and its pointers (R472). -/
def logReg (a : Nat) : Bool := decide (0x2_0000 ≤ a) && decide (a < 0x4_0000) || a == Reg.FLT_LOGSEQ || a == Reg.FLT_LOGACK || a == Reg.FLT_LOGLOST

def pwrReg (a : Nat) : Bool := decide (0xE000 ≤ a) && decide (a < 0xF000)

/-- The counters of the PWR block that reset at power-up only. -/
def pwrCounter (a : Nat) : Bool := decide (Reg.PWR_ENTRIES ≤ a) && pwrReg a && a != Reg.PWR_DEMMAX

/-- Whether a register belongs to an always-on block that is served in C3 without a wake (R62, R515). -/
def alwaysOn (a : Nat) : Bool :=
  decide (0x2A00 ≤ a) && decide (a < 0x2B00) || decide (0x6000 ≤ a) && decide (a < 0x7000) || decide (0x8000 ≤ a) && decide (a < 0xA000)
  || decide (0xC000 ≤ a) && decide (a < 0xE000) || pwrReg a || decide (0x2_0000 ≤ a) && decide (a < 0x4_0000)

/-- Registers whose values outlast C3: the always-on blocks, what the sequencers hold, the fences. -/
def keptC3 (a : Nat) : Bool :=
  alwaysOn a || decide (0xA000 ≤ a) && decide (a < 0xC000) || lifeReg a || decide (Reg.MESH_FENCE 0 ≤ a) && decide (a ≤ Reg.MESH_FENCE 3)

/-- What C3 loses. The flash controller stays failed or read-only, as no reset has ended that (R301, R303); the LPDDR5X devices are in
self-refresh (R285). -/
def Channel.loseC3 (c : Channel) (fr : Nat) : Channel :=
  let d := c.flashDurable fr
  let fst := [Fl.FLASH_STATUS_RO, Fl.FLASH_STATUS_FAILED].foldl (fun (c : Channel) f => c.setFld Reg.FLASH_STATUS f (d.fld Reg.FLASH_STATUS f))
  let sref (c : Channel) : Channel := [0, 1, 2, 3].foldl (fun c n => c.setFld (Reg.MEMC_STATUS n) Fl.MEMC_STATUS_SREF 1) c
  sref (fst { d with
    regs := d.regs.filter (fun e => keptC3 e.1), mem := d.mem.filter (fun e => decide (lpBase ≤ e.1)), cores := [], mesh := .reset, merges := [],
    qlines := [], qcreds := [], corr := [], scrub := [], mscrub := [], kt5 := .reset, bkts := [], steps := [], tat := .reset })

/-- A channel that starts again, with the registers and memory that `kr` and `km` keep; the wake pin is as it was. -/
def Channel.wipe (c : Channel) (fr : Nat) (kr km : Nat → Bool) : Channel :=
  let d := c.flashDurable fr
  let r := { Channel.reset c.num with
    regs := d.regs.filter (fun e => kr e.1 || lifeReg e.1), mem := d.mem.filter (fun e => km e.1), flash := d.flash, bflash := c.bflash, otp := c.otp,
    way := c.way, vecs := c.vecs, ts := c.ts, out := c.out, pwr := { PwrSt.reset with armed := c.pwr.armed } }
  r.setFld Reg.PWR_STATUS Fl.PWR_STATUS_PIN (c.fld Reg.PWR_STATUS Fl.PWR_STATUS_PIN)

/-- C4 keeps flash, the trouble log and the PWR block. -/
def Channel.loseC4 (c : Channel) (fr : Nat) : Channel :=
  { c.wipe fr (fun a => logReg a || pwrReg a) (fun a => decide (flashBase ≤ a)) with pwr := { c.pwr with entry := none, acks := [] } }

/-- A state has been entered. -/
def Channel.entered (c : Channel) (fr target : Nat) : Channel :=
  let c1 := match target with
    | 3 => c.loseC3 fr
    | 4 => c.loseC4 fr
    | _ => c
  ((((Channel.setPst { c1 with pwr := { c1.pwr with entry := none, acks := [] } } target).setGated 0).setBusy false).count Reg.PWR_ENTRIES 1).event 6

/-- Step 7 of an entry, whose islands are off; or C4 after the rinse of a STOP fault (R481, R482, R494). -/
def Channel.entryDone (c : Channel) (fr : Nat) : Channel :=
  if c.pwr.stop then (if c.rphase = 0 ∧ c.pst ≠ 4 then c.entered fr 4 else c)
  else
    match c.pwr.entry with
    | none => c
    | some e =>
      if e.step ≠ 4 ∨ pwrMsg 127 2 3 ∈ c.cmsgs then c
      else
        let d := c.entered fr e.target
        match e.wake with
        | some (src, port) => d.wakeEvent src port
        | none => d

/-- DESIGN CHOICE (log 159): MOD_STATUS.CH_RUN and CH_LINK keep their values while the channel is in C4. -/
def execPowerEntryDone (ch : Chan) (s : State) : Outc := .next (s.onFree ch (fun fr c => c.entryDone fr))

/-- 1 ms after a STOP fault without C4: the rails go (R494). -/
def execAonRailRemove (ch : Chan) (s : State) : Outc :=
  .next (s.onFree ch (fun fr c =>
    if c.pwr.stop ∧ c.pst ≠ 4 then
      let d := c.loseC4 fr
      ((Channel.setPst { d with pwr := { d.pwr with removed := true, exit := false } } 4).setGated 0).setBusy false
    else c))

/-- Automatic gating of a half whose array is empty (R486). -/
def Channel.autoGate (c : Channel) (east : Bool) : Channel :=
  let h := if east then 2 else 1
  if c.fld Reg.PWR_CTRL Fl.PWR_CTRL_AUTOC1 = 1 ∧ (c.entryCheck 1).isNone ∧ c.gated &&& h = 0 then c.pwrHalves 0 h else c

def execAutoGate (ch : Chan) (east : Bool) (s : State) : Outc := .next (s.onChan ch (fun c => c.autoGate east))

/-! ### Voltage and frequency (R487 to R490) -/

/-- The lowest VSEL of a divisor; none for a number that is no divisor. -/
def vmin (d : Nat) : Option Nat :=
  match d with
  | 2 => some 50
  | 3 => some 36
  | 4 => some 28
  | 6 => some 20
  | 8 => some 16
  | _ => none

def Channel.hf (c : Channel) (h : Nat) (f : Fld) : Nat := c.fld (Reg.PWR_HALF h) f
def Channel.setHf (c : Channel) (h : Nat) (f : Fld) (v : Nat) : Channel := c.setFld (Reg.PWR_HALF h) f v
def Channel.half (c : Channel) (h : Nat) : HalfSt := if h = 0 then c.pwr.west else c.pwr.east
def Channel.setHalf (c : Channel) (h : Nat) (x : HalfSt) : Channel :=
  if h = 0 then { c with pwr := { c.pwr with west := x } } else { c with pwr := { c.pwr with east := x } }

/-- The checks of a DVFS request: the reason of the first that fails. A DIV counts with SETDIV, a VSEL with SETV. -/
def Channel.dvfsCheck (c : Channel) (h div vsel : Nat) (sd sv : Bool) : Option Nat :=
  let lo (d : Nat) : Nat := (vmin d).getD 0
  let order := if sd && sv then decide (vsel < lo div)
    else if sd then decide (c.hf h Fl.PWR_HALF_VSEL < lo div)
    else decide (vsel < lo (c.hf h Fl.PWR_HALF_DIV))
  if 2 ≤ c.pst then some 0
  else if c.pwr.exit ∨ c.pwr.entry.isSome ∨ (c.half h).tr.isSome then some 1
  else if order then some 5
  else if (sd ∧ (vmin div).isNone) ∨ (sv ∧ (vsel < 16 ∨ 56 < vsel)) then some 6
  else if sd ∧ div < c.hf h Fl.PWR_HALF_CAP then some 7
  else none

/-- A DVFS request of a half: accepted with its transition begun, or refused. -/
def Channel.dvfsReq (c : Channel) (who h div vsel : Nat) (sd sv : Bool) : Channel :=
  if !sd ∧ !sv then c
  else
    match c.dvfsCheck h div vsel sd sv with
    | some r => c.pwrRefuse 0x22 who r h true
    | none =>
      let x := c.half h
      let c1 := if sd then c.setHf h Fl.PWR_HALF_TGT div else c
      c1.setHalf h { x with
        tr := some ⟨if sd then some div else none, if sv then some vsel else none, who⟩
        vselT := if sv then vsel else x.vselT }

/-- A write to PWR_DVFSh. -/
def Channel.dvfsWrite (c : Channel) (who h v : Nat) : Channel := c.dvfsReq who h (bits v 0 4) (bits v 4 8) (bit v 12) (bit v 13)

/-- The next change of a transition takes effect: the divider first when it does not rise in speed, else the rail first (R488). -/
def Channel.dvfsStep (c : Channel) (h : Nat) : Channel :=
  let x := c.half h
  match x.tr with
  | none => c
  | some t =>
    match t.div, t.vsel with
    | some d, some v =>
      if c.hf h Fl.PWR_HALF_DIV ≤ d then (c.setHf h Fl.PWR_HALF_DIV d).setHalf h { x with tr := some { t with div := none } }
      else (c.setHf h Fl.PWR_HALF_VSEL v).setHalf h { x with tr := some { t with vsel := none } }
    | some d, none => (c.setHf h Fl.PWR_HALF_DIV d).setHalf h { x with tr := none }
    | none, some v => (c.setHf h Fl.PWR_HALF_VSEL v).setHalf h { x with tr := none }
    | none, none => c.setHalf h { x with tr := none }

def execDvfsDone (ch : Chan) (east : Bool) (s : State) : Outc := .next (s.onChan ch (fun c => c.dvfsStep (b2n east)))

/-! ### Throttle and emergencies (R491 to R494) -/

/-- A throttle cap below full speed stands for some half. -/
def Channel.capped (c : Channel) : Bool := decide (2 < c.hf 0 Fl.PWR_HALF_CAP) || decide (2 < c.hf 1 Fl.PWR_HALF_CAP)
def Channel.emerg (c : Channel) : Channel := c.setFld Reg.PWR_STATUS Fl.PWR_STATUS_EMERG (b2n c.capped)

/-- The cap cancels a transition that would raise the divider; it is captured as refused with CAP (R490). -/
def Channel.capCancel (c : Channel) (h : Nat) : Channel :=
  let x := c.half h
  match x.tr with
  | some t =>
    match t.div with
    | some d => if d < c.hf h Fl.PWR_HALF_DIV then (c.setHalf h { x with tr := none }).pwrRefuse 0x22 t.who 7 h true else c
    | none => c
  | none => c

/-- The half runs no faster than its cap; PSEQ lowers the rail to what the divider needs. -/
def Channel.capApply (c : Channel) (h : Nat) : Channel :=
  let cap := c.hf h Fl.PWR_HALF_CAP
  let c1 := if c.hf h Fl.PWR_HALF_DIV < cap then c.setHf h Fl.PWR_HALF_DIV cap else c
  let x := c1.half h
  if x.tr.isSome then c1 else c1.setHalf h { x with tr := some ⟨none, vmin (c1.hf h Fl.PWR_HALF_DIV), 0x22⟩ }

/-- Step 1 and 2 of R492. -/
def Channel.capHalf (c : Channel) (h : Nat) : Channel :=
  let c1 := (c.capCancel h).setHf h Fl.PWR_HALF_CAP (max 4 (c.hf h Fl.PWR_HALF_CAP))
  (c1.capApply h).emerg.event 7

/-- The temperature thresholds in 1/8 degree. -/
def Channel.warnAt (c : Channel) : Int := 8 * c.fld Reg.PWR_THCFG Fl.PWR_THCFG_WARN
def Channel.throtAt (c : Channel) : Int := 8 * c.fld Reg.PWR_THCFG Fl.PWR_THCFG_THROT
def Channel.tripAt (c : Channel) : Int := 8 * (min 115 (c.fld Reg.PWR_THCFG Fl.PWR_THCFG_TRIP) : Nat)
def Channel.coolAt (c : Channel) : Int := c.throtAt - 8 * c.fld Reg.PWR_THCFG Fl.PWR_THCFG_HYST

/-- A fault of the power sequencer or the AON hardware (R521). -/
def Channel.pwrFault (c : Channel) (code arg0 : Nat) : Channel := c.raise (mkFault 102 code none arg0 0)

/-- One sample of a half. -/
def Channel.tempHalf (c : Channel) (h raw : Nat) : Channel :=
  let old := (c.half h).temp
  let t := signed 12 raw
  let c1 := (c.setHf h Fl.PWR_HALF_TEMP raw).setHalf h { c.half h with temp := t }
  let c2 := if old < c1.warnAt ∧ c1.warnAt ≤ t then c1.event 7 else c1
  let c3 := if c2.throtAt ≤ t ∧ !(c2.half h).hot then
      ((c2.setHalf h { c2.half h with hot := true }).capHalf h).count Reg.PWR_THROTTLES 1
    else c2
  if old < c3.tripAt ∧ c3.tripAt ≤ t then c3.pwrFault fcThermalTrip (h + raw * 2 ^ 4) else c3

def execThermalSample (ch : Chan) (west east : BitVec 12) (s : State) : Outc :=
  .next (s.onChan ch (fun c => (c.tempHalf 0 west.toNat).tempHalf 1 east.toNat))

/-- The next divisor slower, and the next faster. -/
def slower (d : Nat) : Nat := if d ≤ 2 then 3 else if d = 3 then 4 else if d ≤ 5 then 6 else 8
def faster (d : Nat) : Nat := if 8 ≤ d then 6 else if 5 ≤ d then 4 else if d = 4 then 3 else 2

/-- Steps 3 to 5 of R492: the cap moves; when it reaches 2, the half returns to TGT at the VSEL last accepted, rail first. -/
def Channel.throttle (c : Channel) (h : Nat) (slow : Bool) : Channel :=
  let x := c.half h
  let cap := c.hf h Fl.PWR_HALF_CAP
  if cap ≤ 2 then c
  else if slow then
    if x.temp < c.throtAt then c else ((c.setHf h Fl.PWR_HALF_CAP (slower cap)).capCancel h).capApply h
  else if c.coolAt ≤ x.temp ∨ x.rail ∨ c.pwr.alarm then c
  else
    let n := faster cap
    let d := max n (c.hf h Fl.PWR_HALF_TGT)
    let v := if n = 2 then x.vselT else (vmin d).getD 50
    let c1 := (c.setHf h Fl.PWR_HALF_CAP n).setHalf h { x with tr := some ⟨some d, some v, 0x22⟩, hot := x.hot && n != 2 }
    if n = 2 then c1.emerg.event 7 else c1

def execThrottleStep (ch : Chan) (east : Bool) (slower : Bool) (s : State) : Outc :=
  .next (s.onChan ch (fun c => c.throttle (b2n east) slower))

/-- The input alarm caps both halves of a channel. -/
def Channel.alarmOn (c : Channel) : Channel :=
  if c.pwr.alarm then c
  else (((Channel.count { c with pwr := { c.pwr with alarm := true } } Reg.PWR_EMERGS 1).capHalf 0).capHalf 1)

def execInputAlarm (s : State) : Outc := .next (s.onAll (fun c => c.alarmOn))

/-- A core rail above its limit caps its half alone. -/
def Channel.railOver (c : Channel) (h : Nat) : Channel :=
  if (c.half h).rail then c
  else ((c.setHalf h { c.half h with rail := true }).count Reg.PWR_EMERGS 1).capHalf h

def execRailOvercurrent (ch : Chan) (east : Bool) (s : State) : Outc := .next (s.onChan ch (fun c => c.railOver (b2n east)))

/-- The power emergency of a half clears; its cap steps back by THROTTLE_STEP. -/
def execEmergencyClear (ch : Chan) (east : Bool) (s : State) : Outc :=
  .next (s.onChan ch (fun c =>
    let d := { c with pwr := { c.pwr with alarm := false } }
    d.setHalf (b2n east) { d.half (b2n east) with rail := false }))

def execRailFault (ch : Chan) (rail : Fin 8) (s : State) : Outc := .next (s.onChan ch (fun c => c.pwrFault fcRailFault rail.val))

def execPllUnlock (ch : Chan) (pll : Fin 6) (s : State) : Outc := .next (s.onChan ch (fun c => c.pwrFault fcPllUnlock pll.val))

end Sys2Proof.Machine
end

