-- ==== Sys2Proof/Machine/Bus.lean ====
section
/-! DEFINITION. The way between the host and a channel: the MOD block, the bridge die, reads and writes of channel memory from outside
(R20 to R32, R401, R403, R422). -/

namespace Sys2Proof.Machine

open Sys2Proof

/-! ### The MOD block (R31) -/

def modRow (a : Nat) : Option RegRow := regTable_mod.find? (rowHit a)
def modDefault (a : Nat) : Word := match modRow a with | some r => BitVec.ofNat 32 (rowReset r) | none => 0
def State.mrd (s : State) (a : Nat) : Nat := (mget modDefault s.mod a).toNat
def State.mwr (s : State) (a v : Nat) : State := { s with mod := mset modDefault s.mod a (BitVec.ofNat 32 v) }
def State.mfld (s : State) (a : Nat) (f : Fld) : Nat := bits (s.mrd a) f.lo f.w

/-- Whether PF0 may send MSI-X messages. -/
def State.pf0Up (s : State) : Bool := s.ch0.way.pcie && !s.pins.d3 && !s.pins.mrst && s.pins.conv

/-- MOD_STATUS takes a value; PF0 sends vector 0 at each change (R422). Its messages stand under channel number 4. -/
def State.setModStatus (s : State) (v : Nat) : State :=
  if v % 2 ^ 32 = s.mrd Reg.MOD_STATUS then s
  else
    let t := s.mwr Reg.MOD_STATUS v
    if t.pf0Up then t.emit (.msix 4 0) else t

/-- One bit of a field of MOD_STATUS. -/
def State.setModBit (s : State) (f : Fld) (n : Nat) (b : Bool) : State :=
  s.setModStatus (setBits (s.mrd Reg.MOD_STATUS) (f.lo + n) 1 (b2n b))

/-! ### The way to a channel (R26, R401, R437, R501) -/

/-- What becomes of a host request to a channel. -/
inductive Way where
  | none     -- not decoded: no PCIe link, or the function in D3hot
  | bridge   -- answered by the bridge die
  | failed   -- the channel failed to boot: only its DWG block is served
  | open
deriving DecidableEq, Repr

def Channel.hostWay (c : Channel) : Way :=
  if !c.way.pcie ∨ c.way.d3 then .none
  else if c.way.held ∨ !c.way.link ∨ c.pst = 4 then .bridge
  else if c.fld Reg.DWG_STATUS Fl.DWG_STATUS_PHASE = 8 then .failed
  else .open

/-- n bytes of ones. -/
def ones (n : Nat) : List Byte := (List.range n).map (fun _ => 0xFF)
def zeros (n : Nat) : List Byte := (List.range n).map (fun _ => 0)

/-- The bridge die answers a request of `tlps` TLPs itself: a read returns ones (R26). -/
def State.bridgeAnswer (s : State) (ch : Chan) (read : Option Nat) (tlps : Nat) : State :=
  let a := Reg.MOD_DROP ch.val
  let t := s.mwr a (satAdd 32 (s.mrd a) tlps)
  match read with
  | some n => t.emit (.readData ch.val (ones n))
  | none => t

/-- A host request to channel ch that comes as `tlps` TLPs: served by `f`, answered on the way, or lost. `read`: bytes asked for. -/
def State.hostToAs (s : State) (ch : Chan) (read : Option Nat) (tlps : Nat) (f : Channel → Channel) : State :=
  match (s.chan ch).hostWay with
  | .none => s
  | .bridge => s.bridgeAnswer ch read tlps
  | .failed => match read with
    | some n => s.emit (.readData ch.val (zeros n))
    | none => s
  | .open => s.onChan ch f

/-- A host request of one TLP. -/
def State.hostTo (s : State) (ch : Chan) (read : Option Nat) (f : Channel → Channel) : State := s.hostToAs ch read 1 f

/-- Whether writes and reads of host memory by a channel get through. -/
def Channel.hostReach (c : Channel) : Bool := c.way.pcie && c.way.link && !c.way.held

/-! ### Channel memory from outside (R59, R293, R308, R403) -/

/-- A write by a bus master: flash, LPDDR5X and the KT5 range by their controllers, fenced windows counted. -/
def Channel.busWrite (c : Channel) (a : Nat) (data : List Byte) : Channel :=
  match c.row a with
  | .lp _ => c.memWrite a data [] []
  | .flash o => c.flashGo (.write o data false) .clean
  | .flat o => c.ktAccess o data.length (some data) false
  | _ => if c.fencedWindow a then c.count Reg.MESH_FENCEDROP 1 else c.st a false data

/-- What a read by a bus master does beside returning data. -/
def Channel.busTouch (c : Channel) (a n : Nat) : Channel :=
  match c.row a with
  | .flash o => c.flashGo (.read o n false) .clean
  | .flat o => c.ktAccess o n none false
  | _ => if c.fencedWindow a then c.count Reg.MESH_FENCEDROP 1 else c

def Channel.busRead (c : Channel) (a n : Nat) : Channel × List Byte :=
  let d := c.busTouch a n
  (d, d.ld a n)

/-- A read by the host. -/
def Channel.hostRead (c : Channel) (a n : Nat) : Channel :=
  let (d, l) := c.busRead a n
  d.emit (.readData c.num l)

/-- Whether a memory access needs a domain that does not run (R485). -/
def Channel.memAsleep (c : Channel) (a : Nat) : Bool :=
  match c.pst with
  | 2 => match c.row a with
    | .spad _ _ => true
    | .bob _ _ => true
    | _ => false
  | 3 => true
  | _ => false

/-- An access that waits for the channel to wake. -/
def Channel.waitWake (c : Channel) (x : HostAcc) : Channel :=
  Channel.demand { c with pwr := { c.pwr with waits := c.pwr.waits ++ [(c.ts, x)] } } 0

end Sys2Proof.Machine
end

