-- ==== Sys2Proof/Machine/Host.lean ====
section
/-! DEFINITION. The host port: queues, doorbells, commands and their checks, completions, interrupts, BAR2 (R81, R90, R399 to R422). -/

namespace Sys2Proof.Machine

open Sys2Proof

/-! ### Queues (R406 to R409) -/

def Channel.sq (c : Channel) (q : Nat) (f : Fld) : Nat := c.fld (Reg.HIF_SQ_CFG q) f
def Channel.cq (c : Channel) (q : Nat) (f : Fld) : Nat := c.fld (Reg.HIF_CQ_CFG q) f
def Channel.sqOn (c : Channel) (q : Nat) : Bool := c.sq q Fl.HIF_SQ_CFG_EN == 1
def Channel.cqOn (c : Channel) (q : Nat) : Bool := c.cq q Fl.HIF_CQ_CFG_EN == 1
def Channel.sqSize (c : Channel) (q : Nat) : Nat := 2 ^ c.sq q Fl.HIF_SQ_CFG_LOG2SIZE
def Channel.cqSize (c : Channel) (q : Nat) : Nat := 2 ^ c.cq q Fl.HIF_CQ_CFG_LOG2SIZE
def Channel.sqHead (c : Channel) (q : Nat) : Nat := c.fld (Reg.HIF_SQ_STAT q) Fl.HIF_SQ_STAT_HEAD
def Channel.sqTail (c : Channel) (q : Nat) : Nat := mget (fun _ => 0) c.host.tails q
def Channel.cqHead (c : Channel) (q : Nat) : Nat := mget (fun _ => 0) c.host.heads q
def Channel.cqTail (c : Channel) (q : Nat) : Nat := c.fld (Reg.HIF_CQ_STAT q) Fl.HIF_CQ_STAT_TAIL
def Channel.marks (c : Channel) (q : Nat) : Nat := mget (fun _ => 0) c.host.marks q
def Channel.uncovered (c : Channel) (q : Nat) : Nat := mget (fun _ => 0) c.host.uncovered q

def Channel.setTail (c : Channel) (q v : Nat) : Channel := { c with host := { c.host with tails := mset (fun _ => 0) c.host.tails q v } }
def Channel.setHead (c : Channel) (q v : Nat) : Channel := { c with host := { c.host with heads := mset (fun _ => 0) c.host.heads q v } }
def Channel.setMarks (c : Channel) (q v : Nat) : Channel := { c with host := { c.host with marks := mset (fun _ => 0) c.host.marks q v } }
def Channel.setUncovered (c : Channel) (q v : Nat) : Channel :=
  { c with host := { c.host with uncovered := mset (fun _ => 0) c.host.uncovered q v } }

/-- Entries of an SQ not yet fetched. -/
def Channel.sqPending (c : Channel) (q : Nat) : Nat := (c.sqTail q + c.sqSize q - c.sqHead q) % c.sqSize q

def Channel.cqFull (c : Channel) (q : Nat) : Bool := (c.cqTail q + 1) % c.cqSize q == c.cqHead q

/-- The part of a configuration word that is neither EN nor ERR. -/
def cfgBody (w v : Nat) : Nat := setBits v 0 2 0 % 2 ^ w

/-- A write to HIF_SQq_CFG (R406, R407). -/
def Channel.sqCfg (c : Channel) (q v : Nat) : Channel :=
  let a := Reg.HIF_SQ_CFG q
  let c1 := if bit v 1 then c.setFld a Fl.HIF_SQ_CFG_ERR 0 else c
  if c1.sqOn q then
    if bit v 0 then c1 else (c1.setFld a Fl.HIF_SQ_CFG_EN 0).setMarks q 0
  else
    let c2 := c1.wr a (cfgBody 19 v + 2 * c1.sq q Fl.HIF_SQ_CFG_ERR)
    if !bit v 0 then c2
    else
      let n := c2.sq q Fl.HIF_SQ_CFG_LOG2SIZE
      if 4 ≤ n ∧ n ≤ 16 ∧ c2.cqOn (c2.sq q Fl.HIF_SQ_CFG_CQ) then
        (((c2.setFld a Fl.HIF_SQ_CFG_EN 1).setFld (Reg.HIF_SQ_STAT q) Fl.HIF_SQ_STAT_HEAD 0).setTail q 0).setMarks q 0
      else c2.setFld a Fl.HIF_SQ_CFG_ERR 1

/-- A write to HIF_CQq_CFG. -/
def Channel.cqCfg (c : Channel) (q v : Nat) : Channel :=
  let a := Reg.HIF_CQ_CFG q
  let c1 := if bit v 1 then c.setFld a Fl.HIF_CQ_CFG_ERR 0 else c
  if c1.cqOn q then
    if bit v 0 then c1
    else if (List.range 64).any (fun s => c1.sqOn s && c1.sq s Fl.HIF_SQ_CFG_CQ == q) then c1.setFld a Fl.HIF_CQ_CFG_ERR 1
    else c1.setFld a Fl.HIF_CQ_CFG_EN 0
  else
    let c2 := c1.wr a (cfgBody 19 v + 2 * c1.cq q Fl.HIF_CQ_CFG_ERR)
    if !bit v 0 then c2
    else
      let n := c2.cq q Fl.HIF_CQ_CFG_LOG2SIZE
      if 4 ≤ n ∧ n ≤ 16 then
        (((c2.setFld a Fl.HIF_CQ_CFG_EN 1).wr (Reg.HIF_CQ_STAT q) (2 ^ 16)).setHead q 0).setUncovered q 0
      else c2.setFld a Fl.HIF_CQ_CFG_ERR 1

/-- A doorbell error (R408). -/
def Channel.dbErr (c : Channel) : Channel := (c.count Reg.HIF_DBERR 1).event 9

def Channel.sqBell (c : Channel) (q v : Nat) : Channel := if c.sqOn q ∧ v < c.sqSize q then c.setTail q v else c.dbErr

/-- A completion-queue doorbell: the entries that it does not cover count on (R421). -/
def Channel.cqBell (c : Channel) (q v : Nat) : Channel :=
  if c.cqOn q ∧ v < c.cqSize q then
    (c.setHead q v).setUncovered q (min (c.uncovered q) ((c.cqTail q + c.cqSize q - v) % c.cqSize q))
  else c.dbErr

/-- A doorbell is hardware of the host port: it works in C3 without a wake (log 30). -/
def execSqDoorbell (ch : Chan) (q : Que) (v : Word) (s : State) : Outc := .next (s.hostTo ch none (fun c => c.sqBell q.val v.toNat))
def execCqDoorbell (ch : Chan) (q : Que) (v : Word) (s : State) : Outc := .next (s.hostTo ch none (fun c => c.cqBell q.val v.toNat))

/-! ### Completions (R409, R415, R421) -/

/-- The vector of a completion queue. -/
def Channel.cqVector (c : Channel) (q : Nat) : Channel := (c.msix (c.cq q Fl.HIF_CQ_CFG_VEC)).setUncovered q 0

/-- A completion's 16 bytes. -/
def Channel.complBytes (c : Channel) (e : Compl) : List Byte :=
  leBytes 2 e.cid ++ leBytes 2 (c.sqHead e.sq) ++ leBytes 1 e.sq ++ leBytes 1 e.status ++ leBytes 1 e.detail
    ++ leBytes 1 (c.fld (Reg.HIF_CQ_STAT e.cq) Fl.HIF_CQ_STAT_PHASE) ++ leBytes 8 e.res

/-- The host address of a completion queue's next entry. -/
def Channel.cqAddr (c : Channel) (q : Nat) : Nat :=
  c.rd (Reg.HIF_CQ_BASEL q) / 4096 * 4096 + c.rd (Reg.HIF_CQ_BASEH q) * 2 ^ 32 + 16 * c.cqTail q

/-- Advances a completion queue past the entry just written. -/
def Channel.cqNext (c : Channel) (q : Nat) : Channel :=
  let t := (c.cqTail q + 1) % c.cqSize q
  let c1 := c.setFld (Reg.HIF_CQ_STAT q) Fl.HIF_CQ_STAT_TAIL t
  let c2 := if t = 0 then c1.setFld (Reg.HIF_CQ_STAT q) Fl.HIF_CQ_STAT_PHASE (1 - c1.fld (Reg.HIF_CQ_STAT q) Fl.HIF_CQ_STAT_PHASE) else c1
  let c3 := c2.setUncovered q (c2.uncovered q + 1)
  let th := max 1 (c3.fld (Reg.HIF_CQ_COAL q) Fl.HIF_CQ_COAL_THRESH)
  if c3.cq q Fl.HIF_CQ_CFG_IEN = 1 ∧ (th ≤ c3.uncovered q ∨ c3.fld (Reg.HIF_CQ_COAL q) Fl.HIF_CQ_COAL_TIME_US = 0) then c3.cqVector q else c3

/-- The oldest completion for a queue is written; for a queue no longer enabled it is discarded; a full queue holds it. -/
def Channel.complete (c : Channel) (q : Nat) : Channel :=
  match c.host.compl.find? (fun e => e.cq == q) with
  | none => c
  | some e =>
    let c1 := { c with host := { c.host with compl := eraseFirst e c.host.compl } }
    if !c.cqOn q then c1
    else if c.cqFull q ∨ !c.way.link then c
    else (if c1.hostReach then c1.emit (.hostWrite c.num (c.cqAddr q) (c.complBytes e)) else c1).cqNext q

def execCompletionWrite (ch : Chan) (cq : Que) (s : State) : Outc := .next (s.onChan ch (fun c => c.complete cq.val))

def execCqCoalesceTimeout (ch : Chan) (cq : Que) (s : State) : Outc :=
  .next (s.onChan ch (fun c =>
    if c.cqOn cq.val ∧ c.cq cq.val Fl.HIF_CQ_CFG_IEN = 1 ∧ 0 < c.uncovered cq.val then c.cqVector cq.val else c))

/-- Writing 1 clears an event (R421). -/
def Channel.evClear (c : Channel) (v : Nat) : Channel :=
  let p := c.fld Reg.HIF_EVPEND Fl.HIF_EVPEND_PEND
  c.setFld Reg.HIF_EVPEND Fl.HIF_EVPEND_PEND (p - (p &&& v))

/-! ### The checks of R413 -/

/-- A field of a command: n bytes from offset o. -/
def cf (w : BitVec 512) (o n : Nat) : Nat := bits w.toNat (8 * o) (8 * n)

/-- Check 1 without the operands: opcode, flags, reserved bytes, unused bytes from `used` on. -/
def cmdForm (w : BitVec 512) (used : Nat) : Bool :=
  decide (cf w 1 1 < 4) && (!bit (cf w 1 1) 1 || cf w 0 1 == 1) && cf w 4 4 == 0 && cf w used (64 - used) == 0

/-- The remote-write record of a command (R367). -/
def cmdReq (w : BitVec 512) (id : Nat) : RwReq :=
  { owner := .cmd id, src := cf w 8 8, len := cf w 0x10 4, dst := cf w 0x14 2, win := cf w 0x16 1, ctx := cf w 0x17 1 % 16, offset := cf w 0x18 8,
    tag := cf w 0x20 2, pos := 0, sentAll := false, open_ := [], bad := none }

/-- Check 1. -/
def cmdValid (w : BitVec 512) (x : Nat) : Bool :=
  match cf w 0 1 with
  | 0 => cmdForm w 8
  | 1 => cmdForm w 0x10 && cf w 8 8 % 64 == 0
  | 2 => cmdForm w 8
  | 3 => cmdForm w 0x18 && cf w 8 8 % 128 == 0 && decide (cf w 0x10 4 ≤ 65535) && decide (1 ≤ cf w 0x14 2) && decide (cf w 0x14 2 ≤ 4095)
  | 4 => cmdForm w 0x10 && cf w 8 8 % 64 == 0
  | 5 => cmdForm w 0x22 && cf w 0x17 1 == x && decide (cf w 0x14 2 < 2 ^ 13) && cf w 8 8 % 64 == 0 && cf w 0x10 4 % 64 == 0 && decide (cf w 0x10 4 ≤ 2 ^ 30) && cf w 0x18 8 % 64 == 0
  | 6 => cmdForm w 0x1D && cf w 8 8 % 64 == 0 && cf w 0x10 8 % 64 == 0 && cf w 0x18 4 % 64 == 0 && decide (cf w 0x1C 1 ≤ 1)
  | _ => false

/-- E entries of the context's run lists. -/
def Channel.eEntries (c : Channel) (x : Nat) : Nat := match c.ownedSites x with | i :: _ => eCount (c.core i).runList | [] => 0

/-- Check 2: whether the context's state permits the command. -/
def Channel.cmdState (c : Channel) (w : BitVec 512) (x : Nat) : Bool :=
  let st := c.ctxState x
  match cf w 0 1 with
  | 1 => decide (st ≤ 1)
  | 2 => st == ctxReady
  | 3 => st == ctxReady && cf w 0x14 2 == c.mbs x && decide (cf w 0x16 2 ≤ c.eEntries x)
  | 4 => st == ctxReady
  | _ => true

/-- The row of the address map that an address lies in: the KT5 row by its size alone (R513). -/
def Channel.mapRow (c : Channel) (a : Nat) : Nat :=
  match c.row a with
  | .regs => 0
  | .spad _ _ => 1
  | .bob _ _ => 2
  | .tier _ => 3
  | .lp _ => 4
  | .flash _ => 5
  | .flat _ => 6
  | .hole => if flatBase ≤ a ∧ a - flatBase < c.fld Reg.KT5_MAP Fl.KT5_MAP_SIZE * 2 ^ 30 then 6 else 0

/-- A span of check 4: within one row, and not of registers. -/
def Channel.spanIn (c : Channel) (a n : Nat) : Bool :=
  n == 0 || decide (a + n ≤ 2 ^ 48) && c.mapRow a != 0 && c.mapRow a == c.mapRow (a + n - 1)

/-- Check 4. -/
def Channel.cmdSpans (c : Channel) (w : BitVec 512) : Bool :=
  let a := cf w 8 8
  match cf w 0 1 with
  | 1 => c.spanIn a 64 && c.spanIn a (max 64 (c.ldN (a + 0xC) 4))
  | 3 => c.spanIn a (cf w 0x10 4 * 128)
  | 4 => c.spanIn a 32 && c.spanIn a (32 + 32 * (c.ldN a 4 + c.ldN (a + 4) 4))
  | 5 => c.spanIn a (cf w 0x10 4)
  | 6 => c.spanIn (cf w 0x10 8) (cf w 0x18 4)
  | _ => true

/-- Check 5 for record n of a step list: the status. -/
def Channel.recCheck (c : Channel) (x a n : Nat) : Nat :=
  let r := a + 128 * n
  if c.ldN (r + 1) 1 ≠ 0 ∨ 511 < c.ldN (r + 2) 2 ∨ c.ldN (r + 4) 60 ≠ 0 then 5
  else if (c.core (c.ldN r 1)).owner ≠ some x ∨ 100 ≤ c.ldN r 1 then 3
  else 0

/-- Check 5. -/
def Channel.listCheck (c : Channel) (w : BitVec 512) (x : Nat) : Nat :=
  if cf w 0 1 ≠ 3 then 0
  else match (List.range (cf w 0x10 4)).find? (fun n => c.recCheck x (cf w 8 8) n != 0) with
    | some n => c.recCheck x (cf w 8 8) n
    | none => 0

/-- The status of the first of checks 1 to 5 that fails, 0 where none does (R413, R414). -/
def Channel.cmdCheck (c : Channel) (w : BitVec 512) (x : Nat) : Nat :=
  if !cmdValid w x then 5
  else if !c.cmdState w x then 1
  else if cf w 0 1 = 3 ∧ (c.ownedSites x).any c.fenced then 3
  else if !c.cmdSpans w then 6
  else c.listCheck w x

/-! ### What the commands do (R79, R90, R396, R411) -/

/-- A core walks its run list for a step, or does so once it has reached the end of the last one (R80). -/
def Core.toStep (k : Core) (fillers : Nat) : Core :=
  let ended := match k.pos with
    | some p => entryKind (nth 3 k.runList p) == 3
    | none => true
  if ended then k.newStep fillers else { k with again := true, uDone := false }

/-- STEP, its checks passed: the step list is written and the context steps. DESIGN CHOICE (log 154): the descriptors of the step list are
written at once, also for a core whose E entries of the step before still run. -/
def Channel.stepGo (c : Channel) (w : BitVec 512) (x id : Nat) : Channel :=
  let a := cf w 8 8
  let n := cf w 0x16 2
  let c1 := (List.range (cf w 0x10 4)).foldl (fun c j =>
    let r := a + 128 * j
    c.setDesc (c.ldN r 1) (c.ldN (r + 2) 2) (c.ldN (r + 64) 64)) c
  let c2 := [0, 1, 2, 3].foldl (fun c k => c.setDigW Reg.TAT_CDIG x k 0) c1
  let c3 := (c2.setStep x { StepSt.reset with fillers := n, cmd := some id }).setFld (Reg.UPD_PRESS x) Fl.UPD_PRESS_PHASE phLocal
  (c3.ownedSites x).foldl (fun c i => c.setCore i ((c.core i).toStep n)) (c3.setCtxState x ctxStep)

/-- PERMUTE, its checks passed. -/
def Channel.permGo (c : Channel) (w : BitVec 512) (x id fr : Nat) : Channel :=
  let a := cf w 8 8
  let only := bit (c.ldN (a + 8) 4) 0
  let p : Perm := ⟨x, id, a, List.range (c.ldN a 4), 0, if only then 5 else 1, 0⟩
  Channel.onward { c with tat := { c.tat with perms := c.tat.perms ++ [p] } } fr

/-- DMA: `data` is what the host memory returned, `fail` that the read failed after it (R400, R414). -/
def Channel.dmaGo (c : Channel) (w : BitVec 512) (id : Nat) (data : List Byte) (fail : Bool) : Channel :=
  let ca := cf w 0x10 8
  let n := cf w 0x18 4
  if cf w 0x1C 1 = 1 then
    let (d, l) := c.busRead ca n
    (if d.hostReach then d.emit (.hostWrite c.num (cf w 8 8) l) else d).endCmd id 0 0 n
  else
    let d := c.busWrite ca (data.take n)
    if fail ∨ data.length < n ∨ !c.hostReach then d.endCmd id 6 1 0 else d.endCmd id 0 0 n

/-- A command that has started, by its opcode. -/
def Channel.cmdGo (c : Channel) (w : BitVec 512) (x id fr : Nat) (data : List Byte) (fail : Bool) (raws : RawWords) : Channel :=
  let st := c.cmdCheck w x
  if st ≠ 0 then c.endCmd id st 0 0
  else
    match cf w 0 1 with
    | 1 => c.loadStart id x (cf w 8 8) (bit (cf w 1 1) 1) raws
    | 2 => (c.unload x).endCmd id 0 0 0
    | 3 => c.stepGo w x id
    | 4 => c.permGo w x id fr
    | 5 => Channel.onward { c with yl := { c.yl with reqs := c.yl.reqs ++ [cmdReq w id] } } fr
    | 6 => c.dmaGo w id data fail
    | _ => c.endCmd id 0 0 0

/-! ### Scheduling (R416, R418) -/

/-- Whether QSEQ fetches commands: not while an entry past step 1 drains or a mend parks it, nor before it runs (R446, R481). -/
def Channel.fetching (c : Channel) : Bool :=
  c.hostReach && (match c.pwr.entry with | some e => e.target == 2 | none => true) && c.fw.mend != 4 && decide (c.pst ≤ 3)

/-- Whether the next command of queue q may start. -/
def Channel.mayStart (c : Channel) (q : Nat) : Bool :=
  c.fetching && c.sqOn q && decide (0 < c.sqPending q) && !c.cqFull (c.sq q Fl.HIF_SQ_CFG_CQ) && !c.host.blocked.contains q
  && decide (c.host.cmds.length < 64) && !c.host.cmds.any (fun k => k.sq == q && (k.opc == 1 || k.opc == 2 || k.opc == 4))

/-- The queues of a level, in turn from the one after the queue last served. -/
def turn (last : Nat) : List Nat := (List.range 64).map (fun i => (last + 1 + i) % 64)

/-- The queue that is served next. -/
def Channel.pickSq (c : Channel) : Option Nat :=
  [3, 2, 1, 0].findSome? (fun p => (turn (nth 63 c.host.last p)).find? (fun q => c.sq q Fl.HIF_SQ_CFG_PRIO == p && c.mayStart q))

/-- Whether a command needs a domain that does not run (R485). -/
def Channel.cmdAsleep (c : Channel) (opc : Nat) : Bool :=
  match c.pst with
  | 2 => opc != 0 && opc != 5 && opc != 6
  | 3 => opc != 0
  | _ => false

/-- A command that cannot start yet holds its queue until some command ends. -/
def Channel.blockSq (c : Channel) (q : Nat) : Channel := { c with host := { c.host with blocked := q :: c.host.blocked } }

/-- Queue q is served: its head advances and the command is in progress. -/
def Channel.serve (c : Channel) (q : Nat) (w : BitVec 512) : Channel × Nat :=
  let p := c.sq q Fl.HIF_SQ_CFG_PRIO
  let c1 := c.setFld (Reg.HIF_SQ_STAT q) Fl.HIF_SQ_STAT_HEAD ((c.sqHead q + 1) % c.sqSize q)
  let k : Cmd := ⟨c.host.next, q, cf w 2 2, c.sq q Fl.HIF_SQ_CFG_CQ, cf w 0 1, c.sq q Fl.HIF_SQ_CFG_CTX⟩
  ({ c1 with host := { c1.host with cmds := c1.host.cmds ++ [k], next := c1.host.next + 1, last := c1.host.last.set p q } }, c.host.next)

/-- The entry at the head of queue q is fetched as `w`: it starts, waits, or ends with RINSED. -/
def Channel.cmdStart (c : Channel) (q : Nat) (w : BitVec 512) (fr : Nat) (data : List Byte) (fail : Bool) (raws : RawWords) : Channel :=
  let x := c.sq q Fl.HIF_SQ_CFG_CTX
  let opc := cf w 0 1
  if c.cmdAsleep opc then c.demand 0
  else if 0 < c.marks q then
    let (c1, id) := c.serve q w
    (c1.setMarks q (c.marks q - 1)).endCmd id 4 0 0
  else if (bit (cf w 1 1) 0 ∧ c.host.cmds.any (fun k => k.sq == q)) ∨ ((opc = 3 ∨ opc = 4) ∧ c.ctxState x = ctxStep) then c.blockSq q
  else
    let (c1, id) := c.serve q w
    c1.cmdGo w x id fr data fail raws

/-- COMMAND_START: the next command by the scheduling rules, as it was fetched. -/
def execCommandStart (ch : Chan) (cmd : BitVec 512) (data : List Byte) (s : State) (raws : RawWords := []) : Outc :=
  .next (s.onFree ch (fun fr c => match c.pickSq with | some q => c.cmdStart q cmd fr data false raws | none => c))

/-- A command of a given opcode starts from queue q. -/
def State.startRow (s : State) (ch : Chan) (q : Que) (cmd : BitVec 512) (opc : Nat) (data : List Byte) (fail : Bool) (raws : RawWords) : State :=
  s.onFree ch (fun fr c => if c.mayStart q.val ∧ cf cmd 0 1 = opc then c.cmdStart q.val cmd fr data fail raws else c)

def execCmdNop (ch : Chan) (q : Que) (cmd : BitVec 512) (s : State) : Outc := .next (s.startRow ch q cmd 0 [] false [])
def execLoadPricking (ch : Chan) (q : Que) (cmd : BitVec 512) (s : State) (raws : RawWords := []) : Outc := .next (s.startRow ch q cmd 1 [] false raws)
def execUnload (ch : Chan) (q : Que) (cmd : BitVec 512) (s : State) : Outc := .next (s.startRow ch q cmd 2 [] false [])
def execCmdStep (ch : Chan) (q : Que) (cmd : BitVec 512) (s : State) : Outc := .next (s.startRow ch q cmd 3 [] false [])
def execPermute (ch : Chan) (q : Que) (cmd : BitVec 512) (s : State) : Outc := .next (s.startRow ch q cmd 4 [] false [])
def execRwrite (ch : Chan) (q : Que) (cmd : BitVec 512) (s : State) : Outc := .next (s.startRow ch q cmd 5 [] false [])
def execDma (ch : Chan) (q : Que) (cmd : BitVec 512) (data : List Byte) (s : State) : Outc := .next (s.startRow ch q cmd 6 data false [])

/-- A host read that a DMA made fails after `got` (R400). -/
def execHostReadFail (ch : Chan) (q : Que) (cmd : BitVec 512) (got : List Byte) (s : State) : Outc := .next (s.startRow ch q cmd 6 got true [])

/-! ### BAR2 and requests that go nowhere (R26, R400, R403) -/

/-- The channel address of a BAR2 offset. -/
def Channel.aperture (c : Channel) (o : Nat) : Nat := c.fld Reg.HIF_APBASE Fl.HIF_APBASE_BASE * 2 ^ 30 + o

/-- Whether BAR2 reaches something there: not the register row, a hole, or past the address space. -/
def Channel.apertureHole (c : Channel) (a : Nat) : Bool :=
  decide (2 ^ 48 ≤ a) || (match c.row a with
    | .regs => true
    | .hole => decide (a < flatBase) || decide (flatBase + 192 * 2 ^ 30 ≤ a)
    | _ => false)

/-- What a read of `len` bytes through the window of bobbins finds in the elements that it reads (R228). -/
def Channel.bobReadEcc (c : Channel) (a len : Nat) (ecc : List (Fin 4096 × Ecc)) : Channel :=
  match c.row a with
  | .bob i off => ecc.foldl (fun c e =>
      let n := off / 8 + e.1.val
      if n * 8 < off + len then c.bobEcc i (n / 4096) [(n % 4096, e.2)] else c) c
  | _ => c

/-- A BAR2 access at channel address a. -/
def Channel.bar2 (c : Channel) (a len : Nat) (wr : Option (List Byte)) (ecc : List (Fin 4096 × Ecc)) : Channel :=
  if c.apertureHole a then
    let d := c.count Reg.HIF_APHOLE 1
    match wr with
    | some _ => d
    | none => d.emit (.readData c.num (zeros len))
  else if c.memAsleep a then
    match wr with
    | some data => c.waitWake (.memWr a data)
    | none => c.waitWake (.memRd a len)
  else
    match wr with
    | some data => if (match c.row a with | .bob i _ => !c.hostMayWrite i | _ => false) then c else c.busWrite a data
    | none => (c.hostRead a len).bobReadEcc a len ecc

def execBar2Access (ch : Chan) (off : Fin 68719476736) (len : Nat) (wr : Option (List Byte)) (s : State) (tlps : Nat := 1) (ecc : List (Fin 4096 × Ecc) := []) : Outc :=
  .next (s.hostToAs ch (match wr with | some _ => none | none => some len) tlps (fun c => c.bar2 (c.aperture off.val) len wr ecc))

/-- A request that the bridge die answers itself, where it does (R26). -/
def execHostRequestDropped (ch : Chan) (len : Nat) (wr : Bool) (s : State) (tlps : Nat := 1) : Outc :=
  .next (if (s.chan ch).hostWay = .bridge then s.bridgeAnswer ch (if wr then none else some len) tlps else s)

/-- A poisoned write changes nothing and is reported through AER. -/
def execPoisonedWrite (ch : Chan) (s : State) : Outc := .next (if (s.chan ch).way.pcie then s.emit (.aer ch.val) else s)

end Sys2Proof.Machine
end

