-- ==== Sys2Proof/Machine/Mail.lean ====
section
/-! DEFINITION. Mailboxes and the requests that the sequencers answer (R425 to R430, R439, R496). -/

namespace Sys2Proof.Machine

open Sys2Proof

def Channel.bindF (c : Channel) (n : Nat) (f : Fld) : Nat := c.fld (Reg.MBX_BIND n) f
def Channel.isTx (c : Channel) (n id : Nat) : Bool := c.bindF n Fl.MBX_BIND_VALID == 1 && c.bindF n Fl.MBX_BIND_SENDER == id
def Channel.isRx (c : Channel) (n id : Nat) : Bool := c.bindF n Fl.MBX_BIND_VALID == 1 && c.bindF n Fl.MBX_BIND_RECEIVER == id
def Channel.mbxFull (c : Channel) (n : Nat) : Bool := c.fld (Reg.MBX_STAT n) Fl.MBX_STAT_FULL == 1

/-- The identity of the host at this channel (R405). -/
def Channel.hostId (c : Channel) : Nat := 0x11 + c.num

def Channel.badMbx (c : Channel) : Channel := c.count Reg.MBX_BADW 1

/-- A word enters an empty mailbox; the receiver learns of it. -/
def Channel.mbxFill (c : Channel) (n v : Nat) : Channel :=
  let c1 := (c.wr (Reg.MBX_DATA n) v).setFld (Reg.MBX_STAT n) Fl.MBX_STAT_FULL 1
  if c1.isRx n c1.hostId then c1.event 3 else c1

/-- A write of a mailbox word by the identity given (R426). -/
def Channel.mbxWrite (c : Channel) (id n v : Nat) : Channel :=
  if !c.isTx n id then c.badMbx
  else if c.mbxFull n then c.setFld (Reg.MBX_STAT n) Fl.MBX_STAT_OVR 1
  else c.mbxFill n v

/-- The next reply that waits for a mailbox enters it. -/
def Channel.mbxNext (c : Channel) (n : Nat) : Channel :=
  match c.host.replies.find? (fun r => r.1 == n) with
  | some r => Channel.mbxFill { c with host := { c.host with replies := eraseFirst r c.host.replies } } n r.2
  | none => c

/-- A full mailbox is released; the sender learns FREE. -/
def Channel.mbxFree (c : Channel) (n : Nat) : Channel :=
  if !c.mbxFull n then c
  else
    let c1 := c.setFld (Reg.MBX_STAT n) Fl.MBX_STAT_FULL 0
    (if c1.isTx n c1.hostId then c1.event 4 else c1).mbxNext n

/-- A write to MBXm_STAT. -/
def Channel.mbxStat (c : Channel) (id n v : Nat) : Channel :=
  let rx := c.isRx n id
  let tx := c.isTx n id
  if !((rx && bit v 0) || (tx && (bit v 1 || bit v 2))) then c.badMbx
  else
    let c1 := if tx ∧ bit v 1 then c.setFld (Reg.MBX_STAT n) Fl.MBX_STAT_TIMEOUT 0 else c
    let c2 := if tx ∧ bit v 2 then c1.setFld (Reg.MBX_STAT n) Fl.MBX_STAT_OVR 0 else c1
    if rx ∧ bit v 0 then c2.mbxFree n else c2

/-- A register access by a master at channel ch: the host by its bus, PF0 nowhere (R24). -/
def State.masterTo (s : State) (ch : Chan) (m : Master) (f : Channel → Channel) : State :=
  match m with
  | .pf => s.hostTo ch none f
  | .pf0 => s
  | _ => s.onChan ch f

/-- The control-network node of a master (R64). -/
def masterNode : Master → Nat
  | .qseq => 100
  | .tseq => 101
  | .pseq => 102
  | .fseq => 103
  | .dwegar => 104
  | _ => 105

/-- Hosts write a mailbox word as a register; the sequencers and the boot block by a WRITE message (R63, R428). -/
def execMbxWrite (ch : Chan) (m : Master) (n : Fin 16) (v : Word) (s : State) (ecc : Ecc := .clean) : Outc :=
  .next (s.masterTo ch m (fun c =>
    let f (c : Channel) : Channel := c.mbxWrite (masterId ch.val m) n.val v.toNat
    if masterNode m = 105 then f c
    else c.cnetRx 105 (4 * 2 ^ 29 + 105 * 2 ^ 22 + masterNode m * 2 ^ 15 + 2 ^ 13 + n.val) ecc f))

def execMbxClear (ch : Chan) (m : Master) (n : Fin 16) (s : State) : Outc :=
  .next (s.masterTo ch m (fun c => c.mbxStat (masterId ch.val m) n.val 1))

/-- R427. -/
def Channel.mbxLate (c : Channel) (n : Nat) : Channel :=
  if c.mbxFull n ∧ c.bindF n Fl.MBX_BIND_VALID = 1 then
    let c1 := c.setFld (Reg.MBX_STAT n) Fl.MBX_STAT_TIMEOUT 1
    if c1.isTx n c1.hostId then c1.event 5 else c1
  else c

def execMbxTimeout (ch : Chan) (n : Fin 16) (s : State) : Outc := .next (s.onChan ch (fun c => c.mbxLate n.val))

/-! ### Requests (R429, R430) -/

/-- Reply states. -/
def rsOk : Nat := 0
def rsBusy : Nat := 1
def rsUnknown : Nat := 2
def rsDenied : Nat := 3

/-- A sequencer's answer: state and result. -/
structure Reply where
  stat : Nat
  res : Nat

def ok (v : Nat) : Reply := ⟨rsOk, v⟩

/-- The function and argument of a request word. -/
def reqFunc (w : Nat) : Nat := bits w 20 8
def reqArg (w : Nat) : Nat := bits w 0 20

/-- The mailbox with a host request for receiver r. -/
def Channel.reqBox (c : Channel) (r : Nat) : Option Nat := (List.range 16).find? (fun n => c.isTx n c.hostId && c.isRx n r && c.mbxFull n)

/-- The mailbox for replies of r to the host. -/
def Channel.repBox (c : Channel) (r : Nat) : Option Nat := (List.range 16).find? (fun n => c.isTx n r && c.isRx n c.hostId)

/-- A reply is written, or waits for its mailbox. -/
def Channel.reply (c : Channel) (r w : Nat) (a : Reply) : Channel :=
  match c.repBox r with
  | none => c
  | some n =>
    let v := bits w 28 4 * 2 ^ 28 + a.stat * 2 ^ 24 + a.res % 2 ^ 24
    if c.mbxFull n then { c with host := { c.host with replies := c.host.replies ++ [(n, v)] } } else c.mbxFill n v

/-- The request of a function in `fs` that waits for receiver r is served. -/
def Channel.serveReq (c : Channel) (r : Nat) (fs : Nat → Bool) (act : Nat → Channel → Channel × Reply) : Channel :=
  match c.reqBox r with
  | none => c
  | some n =>
    let w := c.rd (Reg.MBX_DATA n)
    if !fs (reqFunc w) then c
    else
      let (d, a) := act (reqArg w) (c.mbxFree n)
      d.reply r w a

/-- A request whose answer changes nothing but the mailboxes. -/
def Channel.askReq (c : Channel) (r func : Nat) (f : Channel → Nat → Reply) : Channel :=
  c.serveReq r (· == func) (fun a c => (c, f c a))

/-- The receivers of host requests in the order of R405: QSEQ, TSEQ, PSEQ, FSEQ, Dwegar. -/
def recvId (r : Nat) : Nat := 0x20 + r

/-- The functions that a receiver has beside PING. -/
def hasFunc (r f : Nat) : Bool :=
  match r with
  | 0x20 => f == 0x10 || f == 0x11
  | 0x21 => f == 0x40
  | 0x22 => decide (0x20 ≤ f) && decide (f ≤ 0x24)
  | 0x23 => f == 0x30 || f == 0x31
  | 0x24 => decide (1 ≤ f) && decide (f ≤ 4)
  | _ => false

/-- PING; a function that the receiver does not have is answered UNKNOWN (R439). -/
def execPing (ch : Chan) (r : Fin 5) (s : State) : Outc :=
  .next (s.onChan ch (fun c =>
    let id := recvId r.val
    let unknown : Bool := match c.reqBox id with
      | some n => reqFunc (c.rd (Reg.MBX_DATA n)) != 0
      | none => false
    c.serveReq id (fun f => f == 0 || !hasFunc id f) (fun _ c => (c, ⟨if unknown then rsUnknown else rsOk, 0⟩))))

def execVersion (ch : Chan) (s : State) : Outc :=
  .next (s.onChan ch (fun c => c.askReq 0x20 0x10 (fun c _ =>
    let v := c.rd Reg.DWG_UCVER
    ok (bits v 24 8 * 2 ^ 16 + bits v 16 8 * 2 ^ 8 + bits v 0 8))))

def execCtxstate (ch : Chan) (s : State) : Outc :=
  .next (s.onChan ch (fun c => c.askReq 0x20 0x11 (fun c a => ok (c.ctxState (a % 16) + 4 * min 7 (c.cmdsOf (a % 16)).length))))

/-- Buckets in state REDUCING (R379, R439). -/
def Channel.reducing (c : Channel) : Nat := (c.bkts.filter (fun e => e.2.st == 4)).length

/-- Buckets in states 3 to 5, as TAT_STATUS counts them. -/
def Channel.inPass (c : Channel) : Nat := (c.bkts.filter (fun e => decide (3 ≤ e.2.st) && decide (e.2.st ≤ 5))).length

def execInflight (ch : Chan) (s : State) : Outc :=
  .next (s.onChan ch (fun c => c.askReq 0x21 0x40 (fun c _ => ok (c.inflight + 2 ^ 7 * c.reducing))))

def execSpare (ch : Chan) (s : State) : Outc :=
  .next (s.onChan ch (fun c => c.askReq 0x23 0x30 (fun c _ => ok (min c.spare 0xFF_FFFF))))

/-- FLUSH: answered OK with 1 where nothing is left to program; else the flush starts and the answer is BUSY (R430, log 32). -/
def execFlush (ch : Chan) (s : State) : Outc :=
  .next (s.onChan ch (fun c => c.serveReq 0x23 (· == 0x31) (fun _ c =>
    if c.flash.buf.isEmpty then (c, ok 1) else (c.flashFlush, ⟨rsBusy, 0⟩))))

/-! ### PSEQ (R496) -/

def execPwrState (ch : Chan) (s : State) : Outc :=
  .next (s.onChan ch (fun c => c.askReq 0x22 0x20 (fun c _ =>
    ok (c.pst + 8 * c.gated + 2 ^ 5 * c.hf 0 Fl.PWR_HALF_DIV + 2 ^ 9 * c.hf 1 Fl.PWR_HALF_DIV
      + 2 ^ 13 * c.fld Reg.PWR_STATUS Fl.PWR_STATUS_EMERG))))

/-- ENTER: the target and halves of ARG. -/
def Channel.enterFn (c : Channel) (a : Nat) : Channel × Reply :=
  let t := bits a 0 3
  if t = 0 ∨ 4 < t then (c, ⟨rsDenied, 0⟩)
  else
    let r : Reply := match c.entryCheck t with
      | some (who, why) => ⟨rsDenied, who + why * 2 ^ 8⟩
      | none => ok 0
    (c.pwrReq c.hostId (bits a 0 5), r)

def execPwrEnter (ch : Chan) (s : State) : Outc :=
  .next (s.onChan ch (fun c => c.serveReq 0x22 (· == 0x21) (fun a c => c.enterFn a)))

def execPwrExitReq (ch : Chan) (s : State) : Outc :=
  .next (s.onChan ch (fun c => c.serveReq 0x22 (· == 0x22) (fun _ c => (c.wakeEvent 2 0, ok 0))))

/-- DVFS: half, divisor, VSEL and flags of ARG. -/
def Channel.dvfsFn (c : Channel) (a : Nat) : Channel × Reply :=
  let h := bits a 0 1
  let div := bits a 1 4
  let vsel := bits a 5 8
  let sd := bit a 13
  let sv := bit a 14
  let r : Reply := if !sd ∧ !sv then ok 0 else match c.dvfsCheck h div vsel sd sv with
    | some why => ⟨rsDenied, 0x22 + why * 2 ^ 8⟩
    | none => ok 0
  (c.dvfsReq c.hostId h div vsel sd sv, r)

def execDvfs (ch : Chan) (s : State) : Outc :=
  .next (s.onChan ch (fun c => c.serveReq 0x22 (· == 0x23) (fun a c => c.dvfsFn a)))

def execTemp (ch : Chan) (s : State) : Outc :=
  .next (s.onChan ch (fun c => c.askReq 0x22 0x24 (fun c _ => ok (c.hf 0 Fl.PWR_HALF_TEMP + 2 ^ 12 * c.hf 1 Fl.PWR_HALF_TEMP))))

end Sys2Proof.Machine
end

