-- ==== Sys2Proof/Machine/Sm2.lean ====
section
/-! DEFINITION. Verification of SM2 signatures (R435): the curve and the procedure of the public standard, which the manual names and
does not repeat (PRESUMED, log 25). -/

namespace Sys2Proof.Machine

open Sys2Proof

namespace Sm2

def p : Nat := 0xFFFFFFFEFFFFFFFFFFFFFFFFFFFFFFFFFFFFFFFF00000000FFFFFFFFFFFFFFFF
def a : Nat := p - 3
def b : Nat := 0x28E9FA9E9D9F5E344D5A9E4BCF6509A7F39789F515AB8F92DDBCBD414D940E93
def n : Nat := 0xFFFFFFFEFFFFFFFFFFFFFFFFFFFFFFFF7203DF6B21C6052B53BBF40939D54123
def gx : Nat := 0x32C4AE2C1F1981195F9904466A39C9948FE30BBFF2660BE1715A4589334C74C7
def gy : Nat := 0xBC3736A2F4F6779C59BDCEE36B692153D0A9877CC62A474002DF32E52139F0A0

/-- A point in Jacobian coordinates; z = 0 is the point at infinity. -/
structure Pt where
  x : Nat
  y : Nat
  z : Nat
deriving DecidableEq, Repr

def zero : Pt := ⟨1, 1, 0⟩
def mul (x y : Nat) : Nat := x * y % p
def sub (x y : Nat) : Nat := (x + p - y % p) % p

/-- x to the power of the e low bits, most significant first. -/
def powGo (x e : Nat) : Nat → Nat → Nat
  | 0, r => r
  | k + 1, r =>
    let r2 := mul r r
    powGo x e k (if e.testBit k then mul r2 x else r2)

def inv (x : Nat) : Nat := powGo x (p - 2) 256 1

def dbl (q : Pt) : Pt :=
  if q.z = 0 ∨ q.y = 0 then zero
  else
    let yy := mul q.y q.y
    let s := mul 4 (mul q.x yy)
    let zz := mul q.z q.z
    let m := (mul 3 (mul q.x q.x) + mul a (mul zz zz)) % p
    let x := sub (mul m m) (2 * s)
    ⟨x, sub (mul m (sub s x)) (mul 8 (mul yy yy)), mul 2 (mul q.y q.z)⟩

def add (q r : Pt) : Pt :=
  if q.z = 0 then r
  else if r.z = 0 then q
  else
    let z1 := mul q.z q.z
    let z2 := mul r.z r.z
    let u1 := mul q.x z2
    let u2 := mul r.x z1
    let s1 := mul q.y (mul z2 r.z)
    let s2 := mul r.y (mul z1 q.z)
    if u1 = u2 then (if s1 = s2 then dbl q else zero)
    else
      let h := sub u2 u1
      let d := sub s2 s1
      let h2 := mul h h
      let h3 := mul h2 h
      let v := mul u1 h2
      let x := sub (sub (mul d d) h3) (2 * v)
      ⟨x, sub (mul d (sub v x)) (mul s1 h3), mul h (mul q.z r.z)⟩

def timesGo (q : Pt) (e : Nat) : Nat → Pt → Pt
  | 0, r => r
  | k + 1, r =>
    let r2 := dbl r
    timesGo q e k (if e.testBit k then add r2 q else r2)

def times (e : Nat) (q : Pt) : Pt := timesGo q e 256 zero

def affX (q : Pt) : Nat := let i := inv q.z; mul q.x (mul i i)

def onCurve (x y : Nat) : Bool := decide (x < p) && decide (y < p) && mul y y == (mul (mul x x) x + mul a x + b) % p

/-- A number as 32 bytes, most significant first. -/
def be (x : Nat) : List Byte := (leBytes 32 x).reverse
def beNat (l : List Byte) : Nat := leNat l.reverse

/-- The default user identity "1234567812345678". -/
def userId : List Byte := [0x31, 0x32, 0x33, 0x34, 0x35, 0x36, 0x37, 0x38, 0x31, 0x32, 0x33, 0x34, 0x35, 0x36, 0x37, 0x38]

/-- The value Z of a public key. -/
def zValue (x y : Nat) : List Byte := sm3 ([0x00, 0x80] ++ userId ++ be a ++ be b ++ be gx ++ be gy ++ be x ++ be y)

end Sm2

/-- Whether (r, s) is a signature of a message under the public key (x, y). -/
def sm2Ok (x y r s : Nat) (msg : List Byte) : Bool :=
  let e := Sm2.beNat (sm3 (Sm2.zValue x y ++ msg))
  let t := (r + s) % Sm2.n
  let q := Sm2.add (Sm2.times s ⟨Sm2.gx, Sm2.gy, 1⟩) (Sm2.times t ⟨x, y, 1⟩)
  Sm2.onCurve x y && decide (1 ≤ r) && decide (r < Sm2.n) && decide (1 ≤ s) && decide (s < Sm2.n) && t != 0 && q.z != 0
    && (e + Sm2.affX q) % Sm2.n == r

end Sys2Proof.Machine
end

