-- ==== Sys2Proof/Machine/Boot.lean ====
section
/-! DEFINITION. The Dwegar boot block: OTP generations, images, booting, staging, mending, attestation (R431 to R448). -/

namespace Sys2Proof.Machine

open Sys2Proof

def Channel.dwg (c : Channel) (f : Fld) : Nat := c.fld Reg.DWG_STATUS f
def Channel.setDwg (c : Channel) (f : Fld) (v : Nat) : Channel := c.setFld Reg.DWG_STATUS f v

/-! ### OTP (R441) -/

/-- Bytes of generation record g. -/
def Otp.genBytes (o : Otp) (g : Nat) : List Byte := (List.range 256).map (fun i => mget (fun _ => (0 : Byte)) o.recs (g * 256 + i))

def allZero (l : List Byte) : Bool := l.all (· == 0)

/-- Bytes off to off + n of a list. -/
def slice (m : List Byte) (off n : Nat) : List Byte := (m.drop off).take n

/-- Whether a record is valid in position g. -/
def recOk (m : List Byte) (g : Nat) : Bool :=
  fieldAt m 0 4 == 0x4F54_5047 && fieldAt m 4 1 == g && fieldAt m 7 1 == 0 && fieldAt m 0xC 4 == 0 && allZero (slice m 0x90 80)
    && slice m 0xE0 32 == sm3 (slice m 0 0xE0)

/-- The current generation: the highest-numbered valid record. -/
def Otp.gen (o : Otp) : Option Nat := [3, 2, 1, 0].find? (fun g => recOk (o.genBytes g) g)

/-- The settings of a record. -/
def recMinSvn (m : List Byte) : Nat := fieldAt m 8 4
def recKey (m : List Byte) (k : Nat) : List Byte := slice m (0x10 + 32 * k) 32
def recSlotOk (m : List Byte) (k : Nat) : Bool := decide (k < 4) && !allZero (recKey m k) && !bit (fieldAt m 5 1) k

/-- The record whose settings the running boot uses. -/
def Channel.genRec (c : Channel) : List Byte := c.otp.genBytes (c.dwg Fl.DWG_STATUS_OTPGEN)

/-! ### Boot flash (R433) -/

/-- An erased byte of the boot flash reads as ones. -/
def bfDefault (_ : Nat) : Byte := 0xFF
def Channel.bf (c : Channel) (off n : Nat) : List Byte := (List.range n).map (fun i => mget bfDefault c.bflash (off + i))
def Channel.bfPut (c : Channel) (off : Nat) (l : List Byte) : Channel :=
  { c with bflash := (l.zip (List.range l.length)).foldl (fun m e => mset bfDefault m (off + e.2) e.1) c.bflash }
def Channel.bfErase (c : Channel) (off n : Nat) : Channel := { c with bflash := mclear c.bflash off (off + n) }

def slotBase (slot : Nat) : Nat := if slot = 0 then 0x10_0000 else 0x210_0000
def slotSize : Nat := 0x200_0000

/-- A directory record: SEQNO and ACTIVE where it is valid. -/
def dirRec (m : List Byte) : Option (Nat × Nat) :=
  if fieldAt m 0 4 = 0x5744_4952 ∧ allZero (slice m 9 23) ∧ slice m 0x20 32 = sm3 (slice m 0 32) ∧ fieldAt m 8 1 ≤ 1 then some (fieldAt m 4 4, fieldAt m 8 1) else none

/-- The copy that stands, with its record. -/
def Channel.directory (c : Channel) : Option (Nat × Nat × Nat) :=
  match dirRec (c.bf 0 64), dirRec (c.bf 0x1000 64) with
  | some a, some b => if a.1 < b.1 then some (1, b) else some (0, a)
  | some a, none => some (0, a)
  | none, some b => some (1, b)
  | none, none => none

def Channel.activeSlot (c : Channel) : Nat := match c.directory with | some d => d.2.2 | none => 0

/-- Writes a directory that names a slot into the copy that does not stand. -/
def Channel.dirWrite (c : Channel) (slot : Nat) : Channel :=
  let (copy, seq) : Nat × Nat := match c.directory with | some d => (1 - d.1, d.2.1 + 1) | none => (0, 1)
  let m := leBytes 4 0x5744_4952 ++ leBytes 4 seq ++ leBytes 1 slot ++ zeros 23
  (c.bfErase (copy * 0x1000) 64).bfPut (copy * 0x1000) (m ++ sm3 m)

/-! ### Images (R434, R435) -/

def imgLen (m : List Byte) : Nat := fieldAt m 8 4
def imgSect (m : List Byte) (i off n : Nat) : Nat := fieldAt m (0x100 + 16 * i + off) n

/-- Bytes that a code bank and a data memory of a sequencer hold (R431). -/
def bankSize (t : Nat) : Nat := if t = 2 then 0x1_0000 else 0x4_0000
def dataSize (t : Nat) : Nat := match t with | 0 => 0x8_0000 | 1 => 0x4_0000 | 2 => 0x1_0000 | _ => 0x10_0000

/-- The sections of a target, in order: offset and length. -/
def imgFind (m : List Byte) (t : Nat) : List (Nat × Nat) :=
  ((List.range (fieldAt m 6 2)).filter (fun i => imgSect m i 0 1 == t)).map (fun i => (imgSect m i 4 4, imgSect m i 8 4))

/-- Check 6. -/
def sectionsOk (m : List Byte) : Bool :=
  let n := fieldAt m 6 2
  (List.range n).all (fun i =>
    decide (imgSect m i 0 1 ≤ 4) && imgSect m i 1 3 == 0 && imgSect m i 0xC 4 == 0 && imgSect m i 4 4 % 64 == 0
    && decide (0x100 + 16 * n ≤ imgSect m i 4 4) && decide (imgSect m i 4 4 + imgSect m i 8 4 ≤ imgLen m))
  && [0, 1, 2, 3].all (fun t => match imgFind m t with
    | [x] => decide (x.2 ≤ bankSize t)
    | [x, y] => decide (x.2 ≤ bankSize t) && decide (y.2 ≤ dataSize t)
    | _ => false)
  && (match imgFind m 4 with | [x] => x.2 == 64 | _ => false)

/-- The code of the first check of R435 that fails for the image in the first bytes of m, 0 where none does. `g`: the generation record. -/
def imageCheck (g m : List Byte) : Nat :=
  let n := fieldAt m 6 2
  let k := fieldAt m 0x16 1
  if fieldAt m 0 4 ≠ 0x5548_4152 ∨ fieldAt m 4 2 ≠ 1 ∨ n < 5 ∨ 16 < n ∨ imgLen m < 0x100 + 16 * n ∨ slotSize < imgLen m ∨ m.length < imgLen m
      ∨ !allZero (slice m 0x17 9) ∨ !allZero (slice m 0xC0 64) then 3
  else if !recSlotOk g k ∨ sm3 (slice m 0x20 64) ≠ recKey g k then 4
  else if !sm2Ok (fieldAt m 0x20 32) (fieldAt m 0x40 32) (fieldAt m 0x80 32) (fieldAt m 0xA0 32) (slice m 0 0x80) then 5
  else if sm3 (slice m 0x100 (imgLen m - 0x100)) ≠ slice m 0x60 32 then 6
  else if fieldAt m 0xC 4 < recMinSvn g then 7
  else if !sectionsOk m then 8
  else 0

/-- The bytes of a slot that its image takes. -/
def Channel.slotImage (c : Channel) (slot : Nat) : List Byte :=
  let h := c.bf (slotBase slot) 0x100
  c.bf (slotBase slot) (max 0x100 (min slotSize (imgLen h)))

/-- The registers that show the running image. -/
def Channel.showImage (c : Channel) (m : List Byte) : Channel :=
  let c1 := (c.wr Reg.DWG_UCVER (fieldAt m 0x10 4)).setFld Reg.DWG_SVN Fl.DWG_SVN_SVN (fieldAt m 0xC 4 % 2 ^ 16)
  let c2 := (List.range 8).foldl (fun c k => c.wr (Reg.DWG_IMGDIG k) (fieldAt m (0x60 + 4 * k) 4)) c1
  { c2 with fw := { c2.fw with handover := fieldAt m 0x14 2, keyidx := fieldAt m 0x16 1, svn := fieldAt m 0xC 4 } }

/-- Section j of target t. -/
def imgPart (m : List Byte) (t j : Nat) : Option (List Byte) := ((imgFind m t)[j]?).map (fun x => slice m x.1 x.2)

/-- The code sections of an image go into the banks given by `b`. -/
def Channel.loadBanks (c : Channel) (m : List Byte) (b : Nat → Nat) : Channel :=
  { c with fw := { c.fw with banks := [0, 1, 2, 3].foldl (fun l t => mset (fun _ => []) l (t * 2 + b t) ((imgPart m t 0).getD [])) c.fw.banks } }

/-- Phase 4: code, data memories, binding table, lock. -/
def Channel.loadImage (c : Channel) (m : List Byte) : Channel :=
  let c1 := (c.showImage m).loadBanks m (fun _ => 0)
  let c2 := { c1 with fw := { c1.fw with dmem := [0, 1, 2, 3].foldl (fun l t => mset (fun _ => []) l t ((imgPart m t 1).getD [])) c1.fw.dmem } }
  let bind := (imgPart m 4 0).getD []
  ((List.range 16).foldl (fun c i => c.wr (Reg.MBX_BIND i) (fieldAt bind (4 * i) 4 % 2 ^ 17)) c2).setFld Reg.MBX_CTRL Fl.MBX_CTRL_LOCK 1

/-! ### Booting (R436, R437) -/

/-- The boot ends in FAILED: the sequencers stop, the binding table is as at reset. -/
def Channel.bootFail (c : Channel) (code : Nat) : Channel :=
  let c1 := ((c.setDwg Fl.DWG_STATUS_PHASE 8).setDwg Fl.DWG_STATUS_CODE code).setFld Reg.SEQ_STATE Fl.SEQ_STATE_RUN 0
  ((List.range 16).foldl (fun c i => c.wr (Reg.MBX_BIND i) 0) c1).setFld Reg.MBX_CTRL Fl.MBX_CTRL_LOCK 0

/-- Phases 4 and 5 from a slot. -/
def Channel.bootFrom (c : Channel) (slot : Nat) (m : List Byte) : Channel :=
  (((c.loadImage m).setDwg Fl.DWG_STATUS_SLOT slot).setFld Reg.SEQ_STATE Fl.SEQ_STATE_RUN 15).setDwg Fl.DWG_STATUS_PHASE 6

/-- Phases 1 to 5; `slow`: the 8D read of the directory fails. -/
def Channel.boot (c : Channel) (slow : Bool) : Channel :=
  if c.way.held ∨ c.pst = 4 ∨ c.dwg Fl.DWG_STATUS_PHASE ≠ 0 then c
  else
    match c.otp.gen with
    | none => c.bootFail 1
    | some g =>
      let r := c.otp.genBytes g
      let c1 := ((c.setDwg Fl.DWG_STATUS_OTPGEN g).setFld Reg.DWG_SVN Fl.DWG_SVN_MIN (recMinSvn r % 2 ^ 16)).setDwg Fl.DWG_STATUS_SLOWIO (b2n slow)
      let a := c1.activeSlot
      let m := c1.slotImage a
      let e := imageCheck r m
      if e = 0 then c1.bootFrom a m
      else
        let c2 := (c1.setDwg Fl.DWG_STATUS_CODE e).setDwg Fl.DWG_STATUS_FALLBACK 1
        let m2 := c2.slotImage (1 - a)
        let e2 := imageCheck r m2
        if e2 = 0 then c2.bootFrom (1 - a) m2 else c2.bootFail e2

/-- BOOT; without the conversion nothing runs. -/
def execBoot (ch : Chan) (slow : Bool) (s : State) : Outc := .next (if s.pins.conv then s.onChan ch (fun c => c.boot slow) else s)

/-- The memories are up: trained, and out of self-refresh (R285). -/
def Channel.memsUp (c : Channel) : Channel :=
  [0, 1, 2, 3].foldl (fun c n => (c.setFld (Reg.MEMC_STATUS n) Fl.MEMC_STATUS_READY 1).setFld (Reg.MEMC_STATUS n) Fl.MEMC_STATUS_SREF 0) c

/-- Phase 6 ends: `mem` names the controllers, `bus` the flash buses whose training failed (R288, R303). -/
def Channel.trained (c : Channel) (mem bus : Nat) : Channel :=
  let c1 := [0, 1, 2, 3].foldl (fun c n =>
    c.setFld (Reg.MEMC_STATUS n) (if bit mem n then Fl.MEMC_STATUS_TRAIN_FAIL else Fl.MEMC_STATUS_READY) 1) c
  let c2 := c1.setFld Reg.FLASH_STATUS Fl.FLASH_STATUS_BUS_UP (255 - bus)
  if mem ≠ 0 then c2.bootFail 9
  else
    let c3 := (c2.setDwg Fl.DWG_STATUS_PHASE 7).setFld Reg.HIF_STATUS Fl.HIF_STATUS_WIN_UP 1
    if bus = 0 then c3 else c3.flashFail

def execBootTrainDone (ch : Chan) (memFail : BitVec 4) (busFail : Byte) (s : State) : Outc :=
  .next (
    if (s.chan ch).dwg Fl.DWG_STATUS_PHASE ≠ 6 then s
    else
      let t := s.onChan ch (fun c => c.trained memFail.toNat busFail.toNat)
      if memFail = 0 then t.setModBit Fl.MOD_STATUS_CH_RUN ch.val true else t)

/-! ### Long operations (R439, R440) -/

/-- The channel address that the operation reads or writes. -/
def Channel.dwgAddr (c : Channel) : Nat := c.rd Reg.DWG_ADDRL / 64 * 64 + c.rd Reg.DWG_ADDRH * 2 ^ 32

/-- Whether n bytes there lie in the tier row or in the LPDDR5X row. -/
def Channel.dwgSpanOk (c : Channel) (n : Nat) : Bool :=
  match c.row c.dwgAddr, c.row (c.dwgAddr + max 1 n - 1) with
  | .tier _, .tier _ => true
  | .lp _, .lp _ => true
  | _, _ => false

def Channel.opBegin (c : Channel) (op : Nat) : Channel := (c.setDwg Fl.DWG_STATUS_OP op).setDwg Fl.DWG_STATUS_OPSTAT 0

/-- An operation ends: 1 DONE, 2 FAILED. -/
def Channel.opEnd (c : Channel) (stat : Nat) : Channel := (c.setDwg Fl.DWG_STATUS_OP 0).setDwg Fl.DWG_STATUS_OPSTAT stat
def Channel.opFail (c : Channel) (code : Nat) : Channel := (c.opEnd 2).setDwg Fl.DWG_STATUS_CODE code

/-- A refused request: DENIED, the code shown. -/
def Channel.deny (c : Channel) (code : Nat) : Channel × Reply := (c.setDwg Fl.DWG_STATUS_CODE code, ⟨rsDenied, 0⟩)

def busy (c : Channel) : Channel × Reply := (c, ⟨rsBusy, 0⟩)

/-! ### Attestation (R448) -/

/-- A context's 40 bytes. -/
def Channel.attestCtx (c : Channel) (x : Nat) : List Byte :=
  leBytes 1 (c.ctxState x) ++ leBytes 1 (c.config x) ++ zeros 2 ++ leBytes 4 (c.press x)
    ++ (List.range 8).flatMap (fun k => leBytes 4 (c.rd (Reg.CTX_DIGEST x k)))

/-- Bytes 0x000 to 0x31F of the report. -/
def Channel.report864 (c : Channel) : List Byte :=
  leBytes 4 0x4154_5354 ++ leBytes 2 1 ++ leBytes 2 0x360 ++ leBytes 1 c.num ++ leBytes 1 c.otp.grade ++ leBytes 1 (c.dwg Fl.DWG_STATUS_OTPGEN)
    ++ leBytes 1 (c.dwg Fl.DWG_STATUS_FALLBACK) ++ leBytes 4 (c.rd Reg.DWG_ROMVER) ++ leBytes 16 c.otp.devid
    ++ (List.range 8).flatMap (fun k => leBytes 4 (c.rd (Reg.DWG_NONCE k))) ++ leBytes 8 c.ts ++ leBytes 4 (c.rd Reg.DWG_UCVER) ++ leBytes 4 c.fw.svn
    ++ leBytes 4 (recMinSvn c.genRec) ++ leBytes 1 c.fw.keyidx ++ zeros 3 ++ (List.range 8).flatMap (fun k => leBytes 4 (c.rd (Reg.DWG_IMGDIG k)))
    ++ slice c.genRec 0xE0 32 ++ zeros 8 ++ (List.range 16).flatMap (fun x => c.attestCtx x)

/-- ATTEST: the report with a signature of the device (free: `Config.signature`). -/
def Channel.attest (c : Channel) (fr : Nat) : Channel × Reply :=
  if !c.dwgSpanOk 864 then c.deny 14
  else (c.st c.dwgAddr false (c.report864 ++ leBytes 64 (Config.signature fr).toNat), ok 0)

def execAttest (ch : Chan) (s : State) : Outc :=
  .next (s.onFree ch (fun fr c => c.serveReq 0x24 (· == 1) (fun _ c => c.attest fr)))

/-! ### Staging (R444) -/

/-- STAGE: the image is verified in memory and the slot erased. -/
def Channel.stage (c : Channel) : Channel × Reply :=
  let n := c.rd Reg.DWG_LEN
  if c.dwg Fl.DWG_STATUS_OP ≠ 0 then busy c
  else if !c.dwgSpanOk n then c.deny 14
  else
    let m := c.ld c.dwgAddr n
    let c1 := c.opBegin 1
    let e := if slotSize < n then 3 else imageCheck c.genRec m
    if e ≠ 0 then (c1.opFail e, ok 0)
    else (Channel.bfErase { c1 with fw := { c1.fw with stage := m } } (slotBase (1 - c1.activeSlot)) slotSize, ok 0)

def execStage (ch : Chan) (s : State) : Outc := .next (s.onChan ch (fun c => c.serveReq 0x24 (· == 2) (fun _ c => c.stage)))

/-- The slot is programmed and read back. Where the read-back fails, what the slot holds and the code are open (log 4). -/
def Channel.staged (c : Channel) (fr : Nat) (good : Bool) : Channel :=
  if c.dwg Fl.DWG_STATUS_OP ≠ 1 then c
  else
    let m := c.fw.stage
    let c1 := { c with fw := { c.fw with stage := [] } }
    let base := slotBase (1 - c.activeSlot)
    if good then (c1.bfPut base m).opEnd 1
    else
      let bad := (List.range m.length).map (fun i => (Config.openValue fr i).truncate 8)
      (c1.bfPut base bad).opFail (3 + (Config.openValue fr m.length).toNat % 6)

def execStageDone (ch : Chan) (ok : Bool) (s : State) : Outc := .next (s.onFree ch (fun fr c => c.staged fr ok))

/-! ### Mending (R443 to R447) -/

/-- Whether a mend waits at step 3. -/
def Channel.mendWaits (c : Channel) : Bool := c.fld Reg.PWR_STATUS Fl.PWR_STATUS_EMERG == 1 || c.anyRinsing

/-- MEND: the inactive slot is verified, its code loaded; then the mend waits or goes on. -/
def Channel.mendBegin (c : Channel) : Channel × Reply :=
  if c.dwg Fl.DWG_STATUS_OP ≠ 0 then busy c
  else
    let m := c.slotImage (1 - c.activeSlot)
    let e := imageCheck c.genRec m
    let bind := (imgPart m 4 0).getD []
    let c1 := c.opBegin 2
    if e ≠ 0 then (c1.opFail e, ok 0)
    else if fieldAt m 0x14 2 ≠ c.fw.handover then (c1.opFail 11, ok 0)
    else if !(List.range 16).all (fun i => fieldAt bind (4 * i) 4 % 2 ^ 17 == c.rd (Reg.MBX_BIND i)) then (c1.opFail 10, ok 0)
    else
      let c2 := c1.loadBanks m (fun t => 1 - bits (c1.fld Reg.SEQ_STATE Fl.SEQ_STATE_BANK) t 1)
      let c3 := { c2 with fw := { c2.fw with mend := 3, tries := 0 } }
      (if c3.mendWaits then c3.mendDefer else c3, ok 0)

def execMend (ch : Chan) (s : State) : Outc := .next (s.onChan ch (fun c => c.serveReq 0x24 (· == 3) (fun _ c => c.mendBegin)))

/-- Step 4 begins once nothing defers it. -/
def Channel.mendPark (c : Channel) : Channel :=
  if c.fw.mend ≠ 3 then c
  else if c.mendWaits then c.mendDefer
  else Channel.setDwg { c with fw := { c.fw with mend := 4 } } Fl.DWG_STATUS_DEFERRED 0

def execMendPark (ch : Chan) (s : State) : Outc := .next (s.onChan ch (fun c => c.mendPark))

/-- Whether the sequencers are at their safe points (R446). -/
def Channel.safePoints (c : Channel) : Bool :=
  c.pwr.entry.isNone && !c.pwr.exit && c.pwr.west.tr.isNone && c.pwr.east.tr.isNone && !c.fstat Fl.FLASH_STATUS_SWAP_BUSY

/-- Steps 5 and 6; `us`: the longest park. -/
def Channel.mendSwitch (c : Channel) (us : Nat) : Channel :=
  if c.fw.mend ≠ 4 ∨ !c.safePoints then c
  else
    let slot := 1 - c.activeSlot
    let c1 := (c.showImage (c.slotImage slot)).setFld Reg.SEQ_STATE Fl.SEQ_STATE_BANK (15 - c.fld Reg.SEQ_STATE Fl.SEQ_STATE_BANK)
    let c2 := (((c1.dirWrite slot).setDwg Fl.DWG_STATUS_SLOT slot).setDwg Fl.DWG_STATUS_FALLBACK 0).opEnd 1
    let c3 := (c2.count Reg.SEQ_MENDS 1).raiseFld Reg.SEQ_PARKMAX Fl.SEQ_PARKMAX_US us
    Channel.event { c3 with fw := { c3.fw with mend := 0, tries := 0 } } 8

def execMendSwitch (ch : Chan) (us : BitVec 16) (s : State) : Outc := .next (s.onChan ch (fun c => c.mendSwitch us.toNat))

/-- A try of step 4 fails; the eighth ends the mend. -/
def Channel.parkLate (c : Channel) : Channel :=
  if c.fw.mend ≠ 4 then c
  else if 7 ≤ c.fw.tries then Channel.opFail { c with fw := { c.fw with mend := 0, tries := 0 } } 15
  else { c with fw := { c.fw with mend := 5, tries := c.fw.tries + 1 } }

def execMendParkTimeout (ch : Chan) (s : State) : Outc := .next (s.onChan ch (fun c => c.parkLate))

/-- Step 4 is tried again. -/
def Channel.mendRetry (c : Channel) : Channel :=
  if c.fw.mend ≠ 5 then c else Channel.mendPark { c with fw := { c.fw with mend := 3 } }

def execMendRetry (ch : Chan) (s : State) : Outc := .next (s.onChan ch (fun c => c.mendRetry))

/-! ### OTP_COMMIT (R442) -/

/-- The lowest spare record that is wholly unprogrammed. -/
def Otp.blank (o : Otp) : Option Nat := [1, 2, 3].find? (fun g => allZero (o.genBytes g))

/-- Conditions 1 to 4: the code of the first that fails, 0 where none does. `m`: the 384 bytes read. -/
def Channel.commitCheck (c : Channel) (m : List Byte) : Nat :=
  let new := slice m 0 256
  let old := c.genRec
  let signer := fieldAt new 6 1
  let pub := slice m 320 64
  match c.otp.blank with
  | none => 12
  | some g =>
    if fieldAt new 4 1 ≠ g then 12
    else if !recOk new g then 13
    else if !recSlotOk old signer ∨ sm3 pub ≠ recKey old signer
        ∨ !sm2Ok (fieldAt pub 0 32) (fieldAt pub 32 32) (fieldAt m 256 32) (fieldAt m 288 32) new then 13
    else if fieldAt old 5 1 &&& fieldAt new 5 1 ≠ fieldAt old 5 1 ∨ recMinSvn new < recMinSvn old ∨ c.fw.svn < recMinSvn new
        ∨ !([0, 1, 2, 3].any (recSlotOk new)) then 13
    else 0

/-- OTP_COMMIT. -/
def Channel.otpCommit (c : Channel) : Channel × Reply :=
  if c.dwg Fl.DWG_STATUS_OP ≠ 0 then busy c
  else if !c.dwgSpanOk 384 then c.deny 14
  else
    let m := c.ld c.dwgAddr 384
    let e := c.commitCheck m
    if e ≠ 0 then c.deny e
    else if c.anyBusy then busy c
    else (Channel.opBegin { c with fw := { c.fw with otpNew := slice m 0 256 } } 3, ok 0)

def execOtpCommit (ch : Chan) (s : State) : Outc := .next (s.onChan ch (fun c => c.serveReq 0x24 (· == 4) (fun _ c => c.otpCommit)))

/-- Programs a record: programmed bits stay. -/
def Channel.otpProgram (c : Channel) (m : List Byte) : Channel :=
  let g := fieldAt m 4 1
  { c with otp := { c.otp with recs := (m.zip (List.range m.length)).foldl (fun l e =>
      mset (fun _ => (0 : Byte)) l (g * 256 + e.2) (mget (fun _ => (0 : Byte)) l (g * 256 + e.2) ||| e.1)) c.otp.recs } }

def Channel.otpDone (c : Channel) : Channel :=
  if c.dwg Fl.DWG_STATUS_OP ≠ 3 then c
  else
    let d := c.otpProgram c.fw.otpNew
    Channel.opEnd { d with fw := { d.fw with otpNew := [] } } 1

def execOtpProgramDone (ch : Chan) (s : State) : Outc := .next (s.onChan ch (fun c => c.otpDone))

end Sys2Proof.Machine
end

