-- ==== Sys2Proof/Machine/Module.lean ====
section
/-! DEFINITION. The module: channel resets, the bridge links, SMBus, the pins and the 48 V input (R20 to R32, R401, R500 to R505). -/

namespace Sys2Proof.Machine

open Sys2Proof

/-! ### Channel reset (R28, R29) -/

/-- A generation record whose programming a reset cuts short: part of its bits, no CHECK (R442). Which bits is open (log 4). -/
def tornRecord (fr : Nat) (m : List Byte) : List Byte :=
  (m.zip (List.range m.length)).map (fun e => if e.2 < 5 then e.1 else if e.2 < 0xE0 then e.1 &&& (Config.openValue fr (64 + e.2)).truncate 8 else 0)

def Channel.otpTorn (c : Channel) (fr : Nat) : Channel := if c.dwg Fl.DWG_STATUS_OP = 3 then c.otpProgram (tornRecord fr c.fw.otpNew) else c

/-- A channel reset: LPDDR5X, flash, OTP, the trouble log and the lifetime counters stay; the channel is in boot phase 0. -/
def Channel.restart (c : Channel) (fr : Nat) : Channel :=
  (c.otpTorn fr).wipe fr (fun a => logReg a || pwrCounter a) (fun a => decide (lpBase ≤ a))

/-- The effect on channel ch and on its CH_RUN; uses 128 of the counter of free values. -/
def State.chanReset (s : State) (ch : Chan) : State :=
  (s.onFree ch (fun fr c => c.restart fr)).setModBit Fl.MOD_STATUS_CH_RUN ch.val false

def State.setHeld (s : State) (ch : Chan) (b : Bool) : State := s.onChan ch (fun c => { c with way := { c.way with held := b } })

/-- HOLD goes to 1. -/
def State.holdOn (s : State) (ch : Chan) : State :=
  if bit (s.mfld Reg.MOD_CHRST Fl.MOD_CHRST_HOLD) ch.val then s
  else ((s.mwr Reg.MOD_CHRST (setBits (s.mrd Reg.MOD_CHRST) ch.val 1 1)).chanReset ch).setHeld ch true

/-- HOLD goes to 0: the channel may boot. -/
def State.holdOff (s : State) (ch : Chan) : State :=
  if !bit (s.mfld Reg.MOD_CHRST Fl.MOD_CHRST_HOLD) ch.val then s
  else (s.mwr Reg.MOD_CHRST (setBits (s.mrd Reg.MOD_CHRST) ch.val 1 0)).setHeld ch s.pins.mrst

/-- Whether PF0 reaches the MOD block. -/
def State.modUp (s : State) : Bool := s.pf0Up

def execChannelHold (ch : Chan) (s : State) : Outc := .next (if s.modUp then s.holdOn ch else s)
def execChannelRelease (ch : Chan) (s : State) : Outc := .next (if s.modUp then s.holdOff ch else s)

/-- MOD_ARB and the MOD_DROP counters return to their reset values. -/
def State.modFlr (s : State) : State :=
  { s with mod := s.mod.filter (fun e => e.1 != Reg.MOD_ARB && !(decide (Reg.MOD_DROP 0 ≤ e.1) && decide (e.1 ≤ Reg.MOD_DROP 3))) }

def execFunctionLevelReset (pf : Fin 5) (s : State) : Outc :=
  .next (
    if pf = 0 then Sys2Proof.Machine.State.modFlr { s with pins := { s.pins with d3 := false } }
    else
      let ch : Chan := Fin.ofNat 4 (pf.val - 1)
      let t := (s.holdOn ch).chanReset ch
      (t.holdOff ch).onChan ch (fun c => { c with way := { c.way with d3 := false }, vecs := .reset }))

/-! ### Bridge links (R26, R27, R31) -/

def execBridgeLinkDown (ch : Chan) (s : State) : Outc :=
  let c := s.chan ch
  .next (
    if !c.way.link ∨ c.pst = 4 ∨ !s.pins.conv then s
    else
      let t := (s.onChan ch (fun c => { c with way := { c.way with link := false } })).setModBit Fl.MOD_STATUS_CH_LINK ch.val false
      if c.way.held then t else t.setModBit Fl.MOD_STATUS_CH_FAULT ch.val true)

def execBridgeLinkUp (ch : Chan) (s : State) : Outc :=
  .next (
    if s.pins.mrst ∨ !s.pins.conv then s
    else (s.onChan ch (fun c => { c with way := { c.way with link := true } })).setModBit Fl.MOD_STATUS_CH_LINK ch.val true)

/-- The bridge endpoint raises BRIDGE_LOST. -/
def execBridgeLost (ch : Chan) (s : State) : Outc :=
  let c := s.chan ch
  .next (
    if c.way.link ∨ c.way.held ∨ c.pst = 4 ∨ !s.pins.conv then s
    else (s.onChan ch (fun c => c.raise (mkFault 105 fcBridgeLost none 0 0))).setModBit Fl.MOD_STATUS_CH_FAULT ch.val true)

/-! ### SMBus (R32, R502) -/

/-- The target's address: 0x58 and the address straps as sampled (R32, R502). -/
def State.smbAddr (s : State) : Nat := 0x58 + s.pins.sampled.toNat % 4

/-- One byte into the packet error code: CRC-8 with x^8 + x^2 + x + 1, PRESUMED from the SMBus specification (log 143). -/
def pecByte (r : Nat) (b : Nat) : Nat :=
  (List.range 8).foldl (fun x _ => if 128 ≤ x then (2 * x) % 256 ^^^ 0x07 else 2 * x) (r ^^^ b)

/-- The packet error code of a read: over the address with the write bit, the command code, the address with the read bit, what the
target has sent (R32). -/
def State.pec (s : State) (code : Nat) (l : List Nat) : Nat :=
  ([2 * s.smbAddr, code, 2 * s.smbAddr + 1] ++ l).foldl pecByte 0

/-- An SMBus answer to command code `code`, where the target has its supply: the data, and the PEC byte where the controller clocks
one more byte. A block read sends its byte count before the data, which the code covers (R32). -/
def State.smb (s : State) (code : Nat) (block pec : Bool) (l : List Byte) : State :=
  let sent := (if block then [l.length] else []) ++ l.map (·.toNat)
  if s.pins.aux then s.emit (.smbus s.smbAddr (l ++ (if pec then [BitVec.ofNat 8 (s.pec code sent)] else []))) else s

/-- MOD_ID with the grade of the module's channels (R33). -/
def State.modId (s : State) : Nat := setBits (s.mrd Reg.MOD_ID) 8 2 s.ch0.otp.grade

/-- The hottest sensor of a channel as a 16-bit number. -/
def Channel.hottest (c : Channel) : Nat :=
  let a := signed 12 (c.hf 0 Fl.PWR_HALF_TEMP)
  let b := signed 12 (c.hf 1 Fl.PWR_HALF_TEMP)
  unsigned 16 (max a b)

def execModuleId (s : State) (pec : Bool := false) : Outc := .next (s.smb 0x00 true pec (leBytes 4 s.modId))
def execModuleStatus (s : State) (pec : Bool := false) : Outc := .next (s.smb 0x01 true pec (leBytes 4 (s.mrd Reg.MOD_STATUS)))
def execSerial (s : State) (pec : Bool := false) : Outc :=
  .next (s.smb 0x02 true pec ([0, 1, 2, 3].flatMap (fun k => leBytes 4 (s.mrd (Reg.MOD_SERIAL k)))))
def execDieTemp (ch : Chan) (s : State) (pec : Bool := false) : Outc :=
  .next (s.smb (0x10 + ch.val) false pec (leBytes 2 (if s.pins.conv then (s.chan ch).hottest else 0x8000)))
def execVin (mv : BitVec 16) (s : State) (pec : Bool := false) : Outc := .next (s.smb 0x20 false pec (leBytes 2 mv.toNat))
def execIin (ma : BitVec 16) (s : State) (pec : Bool := false) : Outc := .next (s.smb 0x21 false pec (leBytes 2 (if s.pins.conv then ma.toNat else 0)))
def execPin (pw : BitVec 16) (s : State) (pec : Bool := false) : Outc := .next (s.smb 0x22 false pec (leBytes 2 (if s.pins.conv then pw.toNat else 0)))
def execSmbusNack (s : State) : Outc := .next (if s.pins.aux then s.emit .nack else s)

/-! ### The input and the resets of the module (R500 to R505) -/

/-- The supply of a channel goes: only what is durable stays (R40, R504). -/
def Channel.dead (c : Channel) (fr : Nat) : Channel :=
  let d := (c.otpTorn fr).wipe fr (fun _ => false) (fun a => decide (flashBase ≤ a))
  { d with way := .reset, vecs := .reset, ts := 0 }

/-- The conversion stops: the rails of the whole module go. -/
def State.stop (s : State) : State :=
  if !s.pins.conv then s
  else
    let t := { s with ch0 := s.ch0.dead s.free, ch1 := s.ch1.dead (s.free + 128), ch2 := s.ch2.dead (s.free + 256), ch3 := s.ch3.dead (s.free + 384),
                      mod := [], pins := { s.pins with conv := false, d3 := false } }
    { t with free := s.free + 512 }

/-- The conversion starts and every channel comes up in boot phase 0. -/
def execVin48Valid (s : State) : Outc :=
  .next (
    if s.pins.conv ∨ s.pins.mrst ∨ !s.pins.prsnt then s
    else Sys2Proof.Machine.State.setModBit { s with pins := { s.pins with conv := true, sampled := s.pins.straps } } Fl.MOD_STATUS_VIN_OK 0 true)

def execVin48Loss (s : State) : Outc := .next (s.stop)
def execPrsntOpen (s : State) : Outc := .next (Sys2Proof.Machine.State.stop { s with pins := { s.pins with prsnt := false } })
def execPrsntClose (s : State) : Outc := .next { s with pins := { s.pins with prsnt := true } }

/-- MOD_STATUS.VIN_OK follows the input while the conversion runs. -/
def execVinOkChange (ok : Bool) (s : State) : Outc :=
  .next (if s.pins.conv then s.setModBit Fl.MOD_STATUS_VIN_OK 0 ok else s)

def execAuxSupplyChange (on : Bool) (s : State) : Outc := .next { s with pins := { s.pins with aux := on } }

/-- MRST_N low: the bridge die and every channel are held in reset. -/
def State.mrstOn (s : State) : State :=
  let s1 := { s with pins := { s.pins with mrst := true, d3 := false } }
  let t := ((((s1.chanReset 0).chanReset 1).chanReset 2).chanReset 3).onAll (fun c => { c with way := ⟨true, false, false, false⟩, vecs := .reset })
  let v := t.mfld Reg.MOD_STATUS Fl.MOD_STATUS_VIN_OK
  Sys2Proof.Machine.State.mwr { t with mod := [] } Reg.MOD_STATUS (v * 2 ^ 12)

def execMrstAssert (s : State) : Outc := .next (if s.pins.mrst ∨ !s.pins.conv then { s with pins := { s.pins with mrst := true } } else s.mrstOn)

/-- MRST_N rises: HOLD is 0 and every channel may boot. -/
def execMrstDeassert (s : State) : Outc :=
  .next (
    if s.pins.mrst then Sys2Proof.Machine.State.onAll { s with pins := { s.pins with mrst := false, sampled := s.pins.straps } } (fun c => { c with way := { c.way with held := false } })
    else s)

/-- PERST#: every queue of the channel is disabled, what is not fetched is dropped, completions are discarded; the MSI-X state is reset
(R501). -/
def Channel.perst (c : Channel) : Channel :=
  let c1 := (List.range 64).foldl (fun c q =>
    (c.setFld (Reg.HIF_SQ_CFG q) Fl.HIF_SQ_CFG_EN 0).setFld (Reg.HIF_CQ_CFG q) Fl.HIF_CQ_CFG_EN 0) c
  { c1 with
    host := { c1.host with cmds := c1.host.cmds.map (fun k => { k with cq := 64 }), compl := [], marks := [], uncovered := [] }
    way := { c1.way with pcie := false, d3 := false }
    vecs := .reset }

def execPerstAssert (s : State) : Outc :=
  .next (Sys2Proof.Machine.State.onAll { s with pins := { s.pins with perst := true, d3 := false } } (fun c => c.perst))

def execPerstDeassert (s : State) : Outc := .next { s with pins := { s.pins with perst := false } }

/-- The PCIe link is up. -/
def execPcieLinkUp (s : State) : Outc :=
  .next (
    if s.pins.perst ∨ s.pins.mrst ∨ !s.pins.conv then s
    else s.onAll (fun c => { c with way := { c.way with pcie := true } }))

/-- D3hot of a function, or its return to D0 (R401). -/
def execD3hot (pf : Fin 5) (on : Bool) (s : State) : Outc :=
  .next (
    if pf = 0 then { s with pins := { s.pins with d3 := on } }
    else s.onChan (Fin.ofNat 4 (pf.val - 1)) (fun c => { c with way := { c.way with d3 := on } }))

end Sys2Proof.Machine
end

