-- ==== Sys2Proof/Machine/RegRead.lean ====
section
/-! DEFINITION. What a read of a register returns: the stored value, but for the fields that show other state (R8, R31, R515, R516). -/

namespace Sys2Proof.Machine

open Sys2Proof

/-- Word k of a list of flags. -/
def flagWord (f : Nat → Bool) (k : Nat) : Nat := (List.range 32).foldl (fun x i => x + b2n (f (32 * k + i)) * 2 ^ i) 0

/-! ### Core registers -/

/-- CORE_SSTAT.STATE (R123 to R126, R140). -/
def Stream.state (x : Stream) : Nat :=
  if x.run.isNone then 0
  else
    match x.wait with
    | .header _ _ => 2
    | .tack _ => 2
    | .fault => 5
    | .none =>
      (x.flights.findSome? (fun f =>
        match f.ph with
        | .hazard => some 3
        | .drain => if iOpc f.w = 0x001 then none else some 4
        | .bobbins => some 6
        | _ => none)).getD 1

def Stream.stat (x : Stream) : Nat :=
  x.state + 8 * (match x.tackWait with | some (t, _) => t | none => 0) + x.cf * 2 ^ 16

/-- CORE_RCXn. -/
def rcxWord (r : Option RunInfo) : Nat :=
  match r with
  | none => 0
  | some i =>
    1 + 2 * (match i.kind with | .f => 0 | .b => 1 | .e => 2 | .u => 3) + i.mb % 2 ^ 12 * 8 + i.config % 256 * 2 ^ 15 + i.press % 256 * 2 ^ 23
      + b2n i.skip * 2 ^ 31

def Core.ownerWord (k : Core) : Nat :=
  match k.owner with
  | some x => x + 16 + k.stage * 2 ^ 8 + k.replica * 2 ^ 16
  | none => 0

def Core.runWord (k : Core) : Nat :=
  let e : Nat := match k.pos with | some p => p + entryKind (nth 0 k.runList p) * 2 ^ 13 + entryMb (nth 0 k.runList p) % 2 ^ 12 * 2 ^ 16 | none => 0
  e + b2n k.f.run.isSome * 2 ^ 28 + b2n k.b.run.isSome * 2 ^ 29 + b2n k.u.run.isSome * 2 ^ 30

def Core.arrWord (k : Core) : Nat := k.arr.pos + (if k.owner.isSome then k.period else 0) * 2 ^ 11 + k.arr.cls * 2 ^ 22

def Queue.stat (y : Queue) : Nat :=
  y.fifo.length + y.ring.length * 2 ^ 7 + b2n y.spill * 2 ^ 16 + b2n (y.fifo.length == 64) * 2 ^ 17
    + (match y.psite with | some p => p * 2 ^ 18 + 2 ^ 25 | none => 0)

/-- A register of core i at offset o of its block. -/
def Channel.coreRead (c : Channel) (i o : Nat) : Nat :=
  let k := c.core i
  let raw := c.rd (coreBase i + o)
  let strm (s : Nat) : Stream := if s = 0 then k.f else if s = 1 then k.b else k.u
  if o = 0 then k.ownerWord
  else if o = 4 then k.runWord
  else if 0x100 ≤ o ∧ o < 0x160 then
    let x := strm ((o - 0x100) / 0x20)
    match o % 0x20 with
    | 0 => x.pc % 2 ^ 32
    | 4 => x.pc / 2 ^ 32 % 2 ^ 16
    | 8 => x.stat
    | _ => raw
  else if o = 0x300 then k.arrWord
  else if o = 0x304 then rcxWord k.rc0
  else if o = 0x308 then rcxWord k.rc1
  else if 0x340 ≤ o ∧ o < 0x360 then (k.queue ((o - 0x340) / 4)).stat
  else if 0x400 ≤ o ∧ o < 0x500 then raw + b2n (k.waitsOn ((o - 0x400) / 4)) * 2 ^ 17
  else if o = 0x710 then raw % 2 ^ 16 + c.spretEff i * 2 ^ 16
  else raw

/-! ### Channel registers -/

/-- A mesh routing entry as MESH_RTADDR selects it; above site 99 there is none. -/
def Channel.meshData (c : Channel) : Nat :=
  let r := c.fld Reg.MESH_RTADDR Fl.MESH_RTADDR_ROUTER
  let d := c.fld Reg.MESH_RTADDR Fl.MESH_RTADDR_DEST
  if 99 < r ∨ 99 < d then 0 else c.meshEntry (c.meshGen == (c.fld Reg.MESH_RTADDR Fl.MESH_RTADDR_READ_ACTIVE == 1 : Bool)) r d

/-- A Yelli routing entry as YL_RTADDR selects it. -/
def Channel.rtData (c : Channel) : Nat :=
  c.rtEntry (c.rtGen == (c.fld Reg.YL_RTADDR Fl.YL_RTADDR_READ_ACTIVE == 1)) (c.fld Reg.YL_RTADDR Fl.YL_RTADDR_INDEX)

/-- Largest and mean erase counts of the blocks in use (R298). -/
def Channel.eraseWord (c : Channel) : Nat :=
  let l := (c.flash.blocks.filter (fun b => !b.2.bad)).map (·.2.erases)
  let n := 327_680 - (c.flash.blocks.filter (fun b => b.2.bad)).length
  min 0xFFFF (l.foldl max 0) + min 0xFFFF (l.foldl (· + ·) 0 / n) * 2 ^ 16

/-- A register outside the core blocks, as a read returns it; `id` is the reader's identity (R426). -/
def Channel.blockRead (c : Channel) (id a : Nat) : Nat :=
  let raw := c.rd a
  if a = Reg.CHAN_ID then c.num + c.otp.grade * 16 + ((List.range 100).filter c.enabled).length * 2 ^ 8
  else if 0x1004 ≤ a ∧ a < 0x1014 then flagWord c.enabled ((a - 0x1004) / 4)
  else if a = Reg.MESH_RTDATA then c.meshData
  else if a = Reg.SEAM_STATUS then setBits (setBits raw 0 4 (c.hf 0 Fl.PWR_HALF_DIV)) 4 4 (c.hf 1 Fl.PWR_HALF_DIV)
  else if 0x3000 ≤ a ∧ a < 0x3400 ∧ 0x10 ≤ a % 0x40 ∧ a % 0x40 < 0x20 then
    flagWord (fun i => decide (i < 100) && decide ((c.core i).owner = some ((a - 0x3000) / 0x40))) ((a % 0x40 - 0x10) / 4)
  else if a = Reg.FLASH_HOSTWH then c.flash.latchW.getD raw
  else if a = Reg.FLASH_NANDWH then c.flash.latchN.getD raw
  else if a = Reg.FLASH_ERASE then c.eraseWord
  else if a = Reg.FLASH_SPARE then c.spare
  else if a = Reg.YL_COORD then raw / 4 * 4 + c.num
  else if a = Reg.YL_RTDATA then c.rtData
  else if a = Reg.TAT_STATUS then c.inflight + c.inPass * 2 ^ 7 + b2n c.storeFull * 2 ^ 10
  else if a = Reg.HIF_STATUS then raw % 2 + min 64 c.host.cmds.length * 2
  else if 0x9080 ≤ a ∧ a < 0x9100 ∧ a % 8 = 0 then (if c.isRx ((a - 0x9080) / 8) id then raw else 0)
  else if 0xA000 ≤ a ∧ a < 0xA800 ∧ a % 0x20 = 0xC then
    raw % 2 ^ 16 + b2n (!c.host.cmds.any (fun k => k.sq == (a - 0xA000) / 0x20)) * 2 ^ 16
  else if 0xC060 ≤ a ∧ a < 0xC0A0 then bits c.otp.devpub (8 * (a - 0xC060)) 32
  else if 0xC0A0 ≤ a ∧ a < 0xC0E0 then bits c.otp.devcert (8 * (a - 0xC0A0)) 32
  else raw

/-- What a read of channel register address a by master m returns. Disabled and fenced cores, unassigned offsets and addresses that
are not aligned read 0 (R12, R35, R59, R514). -/
def Channel.regRead (c : Channel) (m : Master) (a : Nat) : Nat :=
  if m = .pf ∧ inMsix a = true ∧ a % 4 = 0 then c.msixRead a
  else if a % 4 ≠ 0 ∨ (regRow a).isNone then 0
  else if inCoreBlock a then (if c.usable (coreOf a) then c.coreRead (coreOf a) (Sys2Proof.Machine.coreOff a) else 0)
  else c.blockRead (masterId c.num m) a

/-- What a read does beside returning its value: the low half of a flash counter latches the high half until that is read (R304,
R519); an access to a fenced core is counted (R59). -/
def Channel.readTouch (c : Channel) (a : Nat) : Channel :=
  if a = Reg.FLASH_HOSTWL then { c with flash := { c.flash with latchW := some (c.rd Reg.FLASH_HOSTWH) } }
  else if a = Reg.FLASH_HOSTWH then { c with flash := { c.flash with latchW := none } }
  else if a = Reg.FLASH_NANDWL then { c with flash := { c.flash with latchN := some (c.rd Reg.FLASH_NANDWH) } }
  else if a = Reg.FLASH_NANDWH then { c with flash := { c.flash with latchN := none } }
  else if c.fencedWindow a then c.count Reg.MESH_FENCEDROP 1
  else c

end Sys2Proof.Machine
end

