-- ==== Sys2Proof/Machine/RegWrite.lean ====
section
/-! DEFINITION. Register writes: by access code, and where a write acts (R8 to R12), with the rows that are register writes. -/

namespace Sys2Proof.Machine

open Sys2Proof

/-- One field of a register after a write of v (R8). -/
def fieldWrite (x v : Nat) (f : RField) : Nat :=
  match f.acc with
  | .ro => x
  | .wo => x
  | .rw => setBits x f.lo f.w (bits v f.lo f.w)
  | .w1c => setBits x f.lo f.w (bits x f.lo f.w - (bits x f.lo f.w &&& bits v f.lo f.w))
  | .w1s => setBits x f.lo f.w (bits x f.lo f.w ||| bits v f.lo f.w)

/-- A register after a write of v; reserved bits are ignored (R9). -/
def rowWrite (r : RegRow) (x v : Nat) : Nat := r.fields.foldl (fun x f => fieldWrite x v f) x

/-- A write by the access codes alone. -/
def Channel.plainWrite (c : Channel) (a v : Nat) : Channel :=
  match regRow a with
  | some r => c.wr a (rowWrite r (c.rd a) v)
  | none => c

/-- Whether a block accepts writes from a master. Where a chapter names no master, every agent but a core may write. -/
def Channel.mayWrite (c : Channel) (m : Master) (a : Nat) : Bool :=
  if inCoreBlock a || (decide (0x1000 ≤ a) && decide (a < 0x2000)) || (decide (0x2100 ≤ a) && decide (a < 0x2300)) then m != .core
  else if pwrReg a then m == .pf || m == .pseq
  else if 0xC000 ≤ a ∧ a < 0xD000 then m == .pf && c.dwg Fl.DWG_STATUS_OP == 0
  else if 0x9000 ≤ a ∧ a < 0xA000 ∧ a ≠ Reg.MBX_BADW then true
  else m == .pf || m == .qseq

/-- Applies f for each bit of v below n that is 1, the lowest first. -/
def Channel.eachBit (c : Channel) (v n : Nat) (f : Channel → Nat → Channel) : Channel := (setPositions v n).foldl f c

/-! ### Core registers -/

/-- Core registers that the host writes under R108: half table, journal, tacks, darning region, retention, lookahead, descriptors. -/
def underR108 (o : Nat) : Bool :=
  (decide (0x400 ≤ o) && decide (o < 0x500)) || o == 0x328 || o == 0x710 || o == 0x714 || (decide (0x800 ≤ o) && decide (o < 0x900))
    || (decide (0x91C ≤ o) && decide (o < 0x928)) || decide (0x8000 ≤ o)

/-- A write to the control word of half-table entry n (R263); an entry that a lower one shadows acts as if it were not valid (R262). -/
def Channel.halfWrite (c : Channel) (i n v : Nat) : Channel :=
  let c1 := c.plainWrite (Reg.CORE_HALF_CFG i n) v
  if !bit v 0 then c1
  else if c1.rd (Reg.CORE_HALF_SPAN i n) = 0 then c1.setFld (Reg.CORE_HALF_CFG i n) Fl.CORE_HALF_CFG_VALID 0
  else if (c1.halfLive i).contains n then c1.setSide i n (c1.fld (Reg.CORE_HALF_CFG i n) Fl.CORE_HALF_CFG_INIT)
  else c1

def Channel.coreWrite (c : Channel) (m : Master) (i o v : Nat) : Channel :=
  if !c.enabled i then c
  else if c.fenced i then c.count Reg.MESH_FENCEDROP 1
  else if m = .pf ∧ underR108 o ∧ !c.hostMayWrite i then c
  else if 0x800 ≤ o ∧ o < 0x900 ∧ o % 16 = 0 then c.halfWrite i ((o - 0x800) / 16) v
  else c.plainWrite (coreBase i + o) v

/-! ### Channel registers -/

def Channel.meshCtrl (c : Channel) (v : Nat) : Channel :=
  let c1 := c.plainWrite Reg.MESH_CTRL v
  if bit v 8 then c1.meshSwap else c1

/-- MESH_RTDATA: the inactive generation takes the entry, unless a swap runs (R50). -/
def Channel.meshDataWrite (c : Channel) (v : Nat) : Channel :=
  let r := c.fld Reg.MESH_RTADDR Fl.MESH_RTADDR_ROUTER
  let d := c.fld Reg.MESH_RTADDR Fl.MESH_RTADDR_DEST
  if 99 < r ∨ 99 < d ∨ c.fld Reg.MESH_CTRL Fl.MESH_CTRL_SWAP_BUSY = 1 then c else c.setMeshEntry (!c.meshGen) r d (v % 8)

/-- NUM_WCTRL (R219). -/
def Channel.watchCtrl (c : Channel) (v : Nat) : Channel :=
  let on := c.fld Reg.NUM_WCTRL Fl.NUM_WCTRL_MODE ≠ 0
  if bits v 0 2 = 3 then c
  else if !on then c.plainWrite Reg.NUM_WCTRL v
  else if bits v 0 2 ≠ 0 then c
  else
    let c1 := c.setFld Reg.NUM_WCTRL Fl.NUM_WCTRL_MODE 0
    (List.range 100).foldl (fun c i => c.setCore i { c.core i with check := none, hist := [] }) c1

def Channel.flashCtrl (c : Channel) (v : Nat) : Channel :=
  let c1 := c.plainWrite Reg.FLASH_CTRL v
  let c2 := if bit v 0 then c1.flashFlush else c1
  if bit v 1 then c2.swapStart else c2

/-- YL_RCTRL: the limits, then a swap, then a fill. -/
def Channel.ylCtrl (c : Channel) (fr v : Nat) : Channel :=
  let c1 := c.plainWrite Reg.YL_RCTRL v
  let c2 := if bit v 0 then c1.ylSwap fr else c1
  if bit v 2 then c2.ylFill else c2

def Channel.rtDataWrite (c : Channel) (v : Nat) : Channel :=
  if c.fillBusy then c else c.setRtEntry (!c.rtGen) (c.fld Reg.YL_RTADDR Fl.YL_RTADDR_INDEX) (v % 16)

/-- YLPk_CTRL: the limit, then EN, then RESTART. -/
def Channel.portCtrl (c : Channel) (k v : Nat) : Channel :=
  let c1 := (c.setFld (Reg.YLP_CTRL k) Fl.YLP_CTRL_RETRAIN_US (bits v 2 10)).portEnable k (bit v 0)
  if bit v 1 then c1.portRestart k else c1

/-- TAT_GRPx_d: the effective group becomes the one written (R374). -/
def Channel.grpWrite (c : Channel) (a v : Nat) : Channel :=
  let b := v % 2 ^ 16
  c.wr a (b + bits v 0 2 * 2 ^ 16 + bits v 3 6 * 2 ^ 18 + bits v 9 7 * 2 ^ 24)

/-- FLT_LOGACK: a value that leaves more than 4,096 entries unread has no effect (R474). -/
def Channel.logAck (c : Channel) (v : Nat) : Channel :=
  if 4096 < (c.rd Reg.FLT_LOGSEQ + 2 ^ 32 - v % 2 ^ 32) % 2 ^ 32 then c else c.wr Reg.FLT_LOGACK v

/-- The mailbox block (R425, R426). -/
def Channel.mbxReg (c : Channel) (m : Master) (a v : Nat) : Channel :=
  let free := c.fld Reg.MBX_CTRL Fl.MBX_CTRL_LOCK = 0
  let id := masterId c.num m
  if a = Reg.MBX_CTRL then
    if m ≠ .dwegar then c
    else if free then c.plainWrite a v
    else c
  else if 0x9040 ≤ a ∧ a < 0x9080 then (if m = .dwegar ∧ free then c.plainWrite a v else c)
  else if 0x9080 ≤ a ∧ a < 0x9100 then
    let n := (a - 0x9080) / 8
    if a % 8 = 0 then c.mbxWrite id n v else c.mbxStat id n v
  else c.plainWrite a v

/-- The emulated window: queues, events, sequencers (R406, R407, R423). -/
def Channel.winReg (c : Channel) (a v : Nat) : Channel :=
  let q := a % 0x800 / 0x20
  if a < 0xA800 then
    if a % 0x20 = 8 then c.sqCfg q v else if c.sqOn q then c else c.plainWrite a v
  else if a < 0xB000 then
    if a % 0x20 = 8 then c.cqCfg q v else if c.cqOn q then c else c.plainWrite a v
  else c.plainWrite a v

/-- Yelli ports and windows. A window that is open or closing keeps its fields (R363). -/
def Channel.portReg (c : Channel) (a v : Nat) : Channel :=
  if a < 0x6800 then (if a % 0x100 = 0 then c.portCtrl (a % 0x1000 / 0x100) v else c.plainWrite a v)
  else
    let n := a % 0x800 / 0x20
    let o := a % 0x20
    if o = 0 then c.winCtrl n v
    else if o < 0x14 ∧ (c.winOpen n ∨ c.fld (Reg.YLW_CTRL n) Fl.YLW_CTRL_CLOSING = 1) then c
    else c.plainWrite a v

/-- Whether a context is EMPTY or READY. -/
def Channel.atRest (c : Channel) (x : Nat) : Bool := decide (c.ctxState x ≤ 1)

/-- A write outside the core blocks. -/
def Channel.blockWrite (c : Channel) (fr : Nat) (m : Master) (a v : Nat) : Channel :=
  let id := masterId c.num m
  if a = Reg.MESH_CTRL then c.meshCtrl v
  else if Reg.MESH_FENCE 0 ≤ a ∧ a ≤ Reg.MESH_FENCE 3 then
    let k := (a - Reg.MESH_FENCE 0) / 4
    c.eachBit v (if k = 3 then 4 else 32) (fun c i => c.hostFence (32 * k + i))
  else if a = Reg.MESH_RTDATA then c.meshDataWrite v
  else if a = Reg.NUM_CTRL ∨ a = Reg.NUM_SRSEEDL ∨ a = Reg.NUM_SRSEEDH ∨ a = Reg.FLT_PMAPL ∨ a = Reg.FLT_PMAPH ∨ a = Reg.FLT_PMAPN then
    if c.anyBusy then c else c.plainWrite a v
  else if a = Reg.NUM_WCTRL then c.watchCtrl v
  else if Reg.NUM_WSLOT 0 ≤ a ∧ a ≤ Reg.NUM_WSLOT 15 then
    if c.fld Reg.NUM_WCTRL Fl.NUM_WCTRL_MODE = 0 then c.plainWrite a v else c
  else if a = Reg.KT5_CTRL then c.ktCtrl v
  else if a = Reg.KT5_MAP then c.ktMapWrite v
  else if 0x2700 ≤ a ∧ a < 0x2800 then (if c.anyBusy then c else c.plainWrite a v)
  else if a = Reg.FLASH_CTRL then c.flashCtrl v
  else if Reg.UPD_PRESS 0 ≤ a ∧ a ≤ Reg.UPD_PRESS 15 then (if c.atRest ((a - Reg.UPD_PRESS 0) / 4) then c.plainWrite a v else c)
  else if a = Reg.YL_COORD ∨ a = Reg.YL_SYSID then
    if (List.range 6).all (fun k => c.pstate k == psDisabled) then c.plainWrite a v else c
  else if a = Reg.YL_RCTRL then c.ylCtrl fr v
  else if a = Reg.YL_RTDATA then c.rtDataWrite v
  else if a = Reg.YL_WAKE then c.ylWake (v % 8)
  else if 0x3000 ≤ a ∧ a < 0x4000 ∧ a % 0x40 = 8 then (if c.atRest ((a - 0x3000) / 0x40) then c.plainWrite a v else c)
  else if 0x6000 ≤ a ∧ a < 0x7000 then c.portReg a v
  else if 0x7000 ≤ a ∧ a < 0x8000 then
    if !c.atRest ((a - 0x7000) / 0x80) then c
    else if 0x10 ≤ a % 0x80 ∧ a % 0x80 < 0x1C then c.grpWrite a v
    else c.plainWrite a v
  else if a = Reg.HIF_EVPEND then c.evClear v
  else if 0x9000 ≤ a ∧ a < 0xA000 then c.mbxReg m a v
  else if 0xA000 ≤ a ∧ a < 0xC000 then c.winReg a v
  else if a = Reg.FLT_LOGACK then c.logAck v
  else if a = Reg.PWR_REQ then c.pwrReq id v
  else if a = Reg.PWR_DVFS 0 then c.dvfsWrite id 0 v
  else if a = Reg.PWR_DVFS 1 then c.dvfsWrite id 1 v
  else c.plainWrite a v

/-- A register write by a master. An address that is not aligned, an offset that names no register and a master that the block does
not accept leave the channel as it is (R12, R514). -/
def Channel.regWrite (c : Channel) (fr : Nat) (m : Master) (a v : Nat) : Channel :=
  if a % 4 ≠ 0 ∨ (regRow a).isNone ∨ !c.mayWrite m a then c
  else if inCoreBlock a then c.coreWrite m (coreOf a) (Sys2Proof.Machine.coreOff a) v
  else c.blockWrite fr m a v

/-! ### The way of an access (R62, R423, R437, R478, R485) -/

/-- Whether the register lies in the window that QSEQ serves. -/
def inWindow (a : Nat) : Bool := decide (0xA000 ≤ a) && decide (a < 0xC000)

/-- Whether a register access needs a domain that does not run. -/
def Channel.regAsleep (c : Channel) (a : Nat) : Bool :=
  match c.pst with
  | 2 => inCoreBlock a
  | 3 => !alwaysOn a
  | _ => false

/-- Whether the window has no one to serve it. -/
def Channel.windowDown (c : Channel) (a : Nat) : Bool := inWindow a && c.fld Reg.HIF_STATUS Fl.HIF_STATUS_WIN_UP == 0

/-- A write of 64 bits: a descriptor word takes both halves; at any other register it has no effect, being wider than the register,
and at an address that is not aligned to 8 none either (R12, R516). One access to a fenced core is one count (R59). -/
def Channel.regWrite64 (c : Channel) (fr : Nat) (m : Master) (a v : Nat) : Channel :=
  if a % 8 ≠ 0 ∨ !inCoreBlock a ∨ Sys2Proof.Machine.coreOff a < 0x8000 ∨ c.fenced (coreOf a) then
    if c.fencedWindow a then c.count Reg.MESH_FENCEDROP 1 else c
  else (c.regWrite fr m a (v % 2 ^ 32)).regWrite fr m (a + 4) (v / 2 ^ 32)

def Channel.regWriteAs (c : Channel) (fr : Nat) (m : Master) (a v : Nat) (wide : Bool) : Channel :=
  if wide then c.regWrite64 fr m a v else c.regWrite fr m a v

def Channel.regAccess (c : Channel) (fr : Nat) (m : Master) (a v : Nat) (wide : Bool) : Channel :=
  if c.pst = 4 then c
  else if m = .pf ∧ inMsix a = true then (if wide then (if a % 8 = 0 then (c.msixWrite a (v % 2 ^ 32)).msixWrite (a + 4) (v / 2 ^ 32) else c) else c.msixWrite a v)
  else if c.regAsleep a then c.waitWake (.wr m a v wide)
  else if c.windowDown a then c
  else c.regWriteAs fr m a v wide

/-- A register write by master m at channel ch; uses 128 of the counter of free values. -/
def State.regToAs (s : State) (ch : Chan) (m : Master) (a v : Nat) (wide : Bool) : State :=
  let g (c : Channel) : Channel := c.regAccess s.free m a v wide
  let t := match m with
    | .pf => if (s.chan ch).hostWay = Way.failed ∧ 0xC000 ≤ a ∧ a < 0xD000 then s.onChan ch g else s.hostTo ch none g
    | .pf0 => s
    | _ => s.onChan ch g
  { t with free := t.free + 128 }

/-- A write of one 32-bit register. -/
def State.regTo (s : State) (ch : Chan) (m : Master) (a v : Nat) : State := s.regToAs ch m a v false

/-- The MOD block, which PF0 alone reaches (R24, R28, R31). -/
def State.modWrite (s : State) (a v : Nat) : State :=
  if a % 4 ≠ 0 ∨ !s.modUp then s
  else if a = Reg.MOD_STATUS then
    let f := s.mfld Reg.MOD_STATUS Fl.MOD_STATUS_CH_FAULT
    s.setModStatus (setBits (s.mrd Reg.MOD_STATUS) 8 4 (f - (f &&& bits v 8 4)))
  else if a = Reg.MOD_CHRST then
    (List.range 4).foldl (fun s n => if bit v n then s.holdOn (Fin.ofNat 4 n) else s.holdOff (Fin.ofNat 4 n)) s
  else
    match modRow a with
    | some r => s.mwr a (rowWrite r (s.mrd a) v)
    | none => s

/-! ### The rows -/

/-- A write with bit n at 1, and with bit n at 0. -/
def bitOn (v : Word) (n : Nat) : Nat := setBits v.toNat n 1 1
def bitOff (v : Word) (n : Nat) : Nat := setBits v.toNat n 1 0

def execRegisterWrite (tgt : Option Chan) (m : Master) (a : BitVec 48) (v : Word) (s : State) (hi : Option Word := none) : Outc :=
  .next (
    match tgt, hi with
    | some ch, none => s.regTo ch m a.toNat v.toNat
    | some ch, some h => s.regToAs ch m a.toNat (v.toNat + h.toNat * 2 ^ 32) true
    | none, none => if m = .pf0 then s.modWrite a.toNat v.toNat else s
    | none, some _ => s)

def execMeshRtSwap (ch : Chan) (m : Master) (v : Word) (s : State) : Outc := .next (s.regTo ch m Reg.MESH_CTRL (bitOn v 8))
def execFence (ch : Chan) (m : Master) (site : Site) (s : State) : Outc :=
  .next (s.regTo ch m (Reg.MESH_FENCE (site.val / 32)) (2 ^ (site.val % 32)))
def execFlashFlush (ch : Chan) (m : Master) (v : Word) (s : State) : Outc := .next (s.regTo ch m Reg.FLASH_CTRL (bitOn v 0))
def execFlashSwap (ch : Chan) (m : Master) (v : Word) (s : State) : Outc := .next (s.regTo ch m Reg.FLASH_CTRL (bitOn v 1))
def execKt5Flush (ch : Chan) (m : Master) (v : Word) (s : State) : Outc := .next (s.regTo ch m Reg.KT5_CTRL (bitOn v 1))
def execKt5Enable (ch : Chan) (m : Master) (v : Word) (s : State) : Outc := .next (s.regTo ch m Reg.KT5_CTRL (bitOn v 0))
def execKt5Disable (ch : Chan) (m : Master) (v : Word) (s : State) : Outc := .next (s.regTo ch m Reg.KT5_CTRL (bitOff v 0))
def execYlSwap (ch : Chan) (m : Master) (v : Word) (s : State) : Outc := .next (s.regTo ch m Reg.YL_RCTRL (bitOn v 0))
def execYlFill (ch : Chan) (m : Master) (v : Word) (s : State) : Outc := .next (s.regTo ch m Reg.YL_RCTRL (bitOn v 2))
def execYlWake (ch : Chan) (m : Master) (v : Word) (s : State) : Outc := .next (s.regTo ch m Reg.YL_WAKE v.toNat)
def execPortEnable (ch : Chan) (m : Master) (k : Port) (v : Word) (s : State) : Outc := .next (s.regTo ch m (Reg.YLP_CTRL k.val) (bitOn v 0))
def execPortDisable (ch : Chan) (m : Master) (k : Port) (v : Word) (s : State) : Outc := .next (s.regTo ch m (Reg.YLP_CTRL k.val) (bitOff v 0))
def execPortRestart (ch : Chan) (m : Master) (k : Port) (v : Word) (s : State) : Outc := .next (s.regTo ch m (Reg.YLP_CTRL k.val) (bitOn v 1))
def execWindowOpen (ch : Chan) (m : Master) (n : Que) (v : Word) (s : State) : Outc := .next (s.regTo ch m (Reg.YLW_CTRL n.val) (bitOn v 0))
def execWindowClose (ch : Chan) (m : Master) (n : Que) (v : Word) (s : State) : Outc := .next (s.regTo ch m (Reg.YLW_CTRL n.val) (bitOff v 0))
def execWatchModeWrite (ch : Chan) (m : Master) (v : Word) (s : State) : Outc := .next (s.regTo ch m Reg.NUM_WCTRL v.toNat)
def execHalfValidate (ch : Chan) (m : Master) (site : Site) (n : Fin 16) (v : Word) (s : State) : Outc :=
  .next (s.regTo ch m (Reg.CORE_HALF_CFG site.val n.val) (bitOn v 0))
def execSqEnable (ch : Chan) (m : Master) (q : Que) (v : Word) (s : State) : Outc := .next (s.regTo ch m (Reg.HIF_SQ_CFG q.val) (bitOn v 0))
def execSqDisable (ch : Chan) (m : Master) (q : Que) (v : Word) (s : State) : Outc := .next (s.regTo ch m (Reg.HIF_SQ_CFG q.val) (bitOff v 0))
def execCqEnable (ch : Chan) (m : Master) (q : Que) (v : Word) (s : State) : Outc := .next (s.regTo ch m (Reg.HIF_CQ_CFG q.val) (bitOn v 0))
def execCqDisable (ch : Chan) (m : Master) (q : Que) (v : Word) (s : State) : Outc := .next (s.regTo ch m (Reg.HIF_CQ_CFG q.val) (bitOff v 0))
def execEvpendClear (ch : Chan) (m : Master) (v : Word) (s : State) : Outc := .next (s.regTo ch m Reg.HIF_EVPEND v.toNat)
def execLogAckWrite (ch : Chan) (m : Master) (v : Word) (s : State) : Outc := .next (s.regTo ch m Reg.FLT_LOGACK v.toNat)
def execPwrExit (ch : Chan) (m : Master) (v : Word) (s : State) : Outc := .next (s.regTo ch m Reg.PWR_REQ (setBits v.toNat 0 3 0))
def execPwrGate (ch : Chan) (m : Master) (v : Word) (s : State) : Outc := .next (s.regTo ch m Reg.PWR_REQ (setBits v.toNat 0 3 1))
def execPwrC2 (ch : Chan) (m : Master) (v : Word) (s : State) : Outc := .next (s.regTo ch m Reg.PWR_REQ (setBits v.toNat 0 3 2))
def execPwrC3 (ch : Chan) (m : Master) (v : Word) (s : State) : Outc := .next (s.regTo ch m Reg.PWR_REQ (setBits v.toNat 0 3 3))
def execPwrC4 (ch : Chan) (m : Master) (v : Word) (s : State) : Outc := .next (s.regTo ch m Reg.PWR_REQ (setBits v.toNat 0 3 4))
def execPwrDvfs (ch : Chan) (m : Master) (east : Bool) (v : Word) (s : State) : Outc := .next (s.regTo ch m (Reg.PWR_DVFS (b2n east)) v.toNat)

/-! ### The window that QSEQ serves (R423, R424) -/

/-- What 64 bits from a read as: a descriptor word's two halves at once (R519), else 0, being wider than the register (R12). -/
def Channel.regRead64 (c : Channel) (m : Master) (a : Nat) : Nat :=
  if a % 8 ≠ 0 ∨ !inCoreBlock a ∨ Sys2Proof.Machine.coreOff a < 0x8000 then 0 else c.regRead m a + c.regRead m (a + 4) * 2 ^ 32

/-- A read of a register by the host. -/
def Channel.hostRegRead (c : Channel) (a : Nat) (wide : Bool) : Channel :=
  if wide then (if c.fencedWindow a then c.count Reg.MESH_FENCEDROP 1 else c).emit (.readData c.num (leBytes 8 (c.regRead64 .pf a)))
  else (c.readTouch a).emit (.readData c.num (leBytes 4 (c.regRead .pf a)))

/-- A read of a window register. -/
def Channel.windowRead (c : Channel) (a : Nat) (wide : Bool) : Channel :=
  if c.regAsleep a then c.waitWake (.rd a wide) else if c.windowDown a then c else c.hostRegRead a wide

def execWindowAccess (ch : Chan) (m : Master) (a : BitVec 13) (wr : Option Word) (s : State) (wide : Bool := false) : Outc :=
  let r := 0xA000 + a.toNat
  .next (
    match wr, m with
    | some v, _ => s.regToAs ch m r v.toNat wide
    | none, .pf => s.hostTo ch (some (if wide then 8 else 4)) (fun c => c.windowRead r wide)
    | none, _ => s)

/-- The bridge completes an access that QSEQ has not served; it is counted. -/
def execWindowAccessTimeout (ch : Chan) (wr : Bool) (s : State) : Outc :=
  .next (s.hostTo ch (if wr then none else some 4) (fun c =>
    let d := c.count Reg.HIF_WINTO 1
    if wr then d else d.emit (.readData c.num (ones 4))))

/-! ### The end of an exit (R478, R483, R485) -/

/-- An access that has waited for the wake is made. -/
def Channel.accGo (c : Channel) (fr : Nat) (x : HostAcc) : Channel :=
  match x with
  | .wr m a v wide => if c.windowDown a then c else c.regWriteAs fr m a v wide
  | .rd a wide => if c.windowDown a then c else c.hostRegRead a wide
  | .memWr a data => c.bar2 a data.length (some data) []
  | .memRd a n => c.bar2 a n none []

/-- The accesses that wait are made in order; PWR_DEMMAX keeps the longest wait. -/
def Channel.wakeAll (c : Channel) (fr : Nat) : Channel :=
  c.pwr.waits.foldl (fun c w => (c.raiseFld Reg.PWR_DEMMAX Fl.PWR_DEMMAX_US (c.usSince w.1)).accGo fr w.2)
    { c with pwr := { c.pwr with waits := [] } }

/-- The channel is in C0 with both halves ungated and every core issuing. -/
def Channel.exitC0 (c : Channel) : Channel :=
  let c1 := { c with cmsgs := c.cmsgs.filter (fun m => match m with | .power _ _ => false | _ => true), pwr := { c.pwr with exit := false, acks := [] } }
  let c2 := (c1.sitesOf 3).foldl (fun c i => c.setQuiet i false) c1
  let c3 := ((c2.setPst 0).setGated 0).setBusy false
  if c.pst = 0 then c3 else c3.event 6

/-- An exit from C0 to C3 ends: what C2 lost reads zero, the memories of C3 are up, the ports widen. -/
def Channel.exitDone (c : Channel) (fr : Nat) : Channel :=
  let c1 := match c.pst with
    | 2 => (c.sitesOf 3).foldl (fun (c : Channel) i => c.coreOn i) c
    | 3 => (List.range 6).foldl (fun c k => c.askWidth k 8) (c.memsUp.setFld Reg.FLASH_STATUS Fl.FLASH_STATUS_BUS_UP 0xFF)
    | _ => c
  c1.exitC0.wakeAll fr

/-- An exit from C4 runs the boot sequence from phase 0, with the effects of a channel reset. -/
def execPowerExitDone (ch : Chan) (s : State) : Outc :=
  let c := s.chan ch
  .next (
    if !c.pwr.exit then s
    else if c.pst = 4 then s.chanReset ch
    else s.onFree ch (fun fr c => c.exitDone fr))

end Sys2Proof.Machine
end

