-- ==== Sys2Proof/Machine/Delivery.lean ====
section
/-! DEFINITION. Write flits at the agents that the mesh delivers them to (R43, R48, R59). -/

namespace Sys2Proof.Machine

open Sys2Proof

/-- The site and sub-port that serve an address (R42, R43, R284, R308). A register outside the core blocks has no one site: any agent's
sub-port takes it (log 150). -/
def Channel.meshHome (c : Channel) (a : Nat) : Option (Nat × Nat) :=
  match c.row a with
  | .regs => if inCoreBlock a then some (coreOf a, 0) else none
  | .spad i _ => some (i, 0)
  | .bob i _ => some (i, 0)
  | .tier o => some (o / 0x280_0000, 1)
  | .lp o => some (nth 0 [20, 70, 29, 79] (memCtrl o), 2)
  | .flash _ => some (95, 2)
  | .flat o => some ((c.ktPlace (o / 2 ^ 16)).1, 1)
  | .hole => none

/-- The master whose register write a flit carries: the bridge endpoint's, a sequencer's, a core's (log 150). -/
def flitMaster (f : Flit) : Master :=
  if f.src.val = 4 ∧ f.srcsub.val = 2 then .pf else if f.src.val = 5 ∧ f.srcsub.val = 3 then .qseq else .core

/-- Whether a flit is the oldest write that waits at its destination sub-port from its source sub-port (R48). -/
def Channel.meshOldest (c : Channel) (a : FlitAt) : Bool :=
  c.mesh.eject.find? (fun b => b.router == a.router && b.flit.kind.val == 2 && b.flit.sub == a.flit.sub && b.flit.src == a.flit.src
    && b.flit.srcsub == a.flit.srcsub) == some a

/-- Whether the agent at an address cannot take a write yet (R285, R290, R293). -/
def Channel.meshBusy (c : Channel) (a : Nat) (data : List Byte) : Bool :=
  match c.row a with
  | .lp _ => !c.memServed a data.length
  | _ => c.accHeld a data.length true

/-- What a delivered write stores: a register of 32 or 64 bits, or memory; nothing into the windows of a fenced core (R59). -/
def Channel.meshStore (c : Channel) (fr : Nat) (f : Flit) (a : Nat) (data : List Byte) : Channel :=
  if c.fencedWindow a then c.count Reg.MESH_FENCEDROP 1
  else match c.row a with
    | .regs =>
      if data.length = 4 then c.regWrite fr (flitMaster f) a (leNat data)
      else if data.length = 8 then c.regWrite64 fr (flitMaster f) a (leNat data)
      else c
    | _ => c.busWrite a data

/-- A write flit at its destination sub-port is stored and acknowledged (R48); at an agent that does not serve its address nothing is
stored (log 150). -/
def Channel.meshWrite (c : Channel) (fr : Nat) (f : Flit) (a : Nat) (data : List Byte) : Channel :=
  let at_ : FlitAt := ⟨f.dst.val, .loc, f⟩
  if f.kind.val ≠ 2 ∨ !c.meshOldest at_ ∨ c.meshBusy a data then c
  else
    let c1 := { c with mesh := { c.mesh with eject := eraseFirst at_ c.mesh.eject } }
    let c2 := if (c1.meshHome a).getD (f.dst.val, f.sub.val) = (f.dst.val, f.sub.val) then c1.meshStore fr f a data else c1
    c2.meshOffer f.dst.val (flitAck f)

def execMeshWrite (ch : Chan) (fl : Flit) (addr : BitVec 48) (data : List Byte) (s : State) : Outc :=
  .next (s.onFree ch (fun fr c => c.meshWrite fr fl addr.toNat data))

end Sys2Proof.Machine
end

