-- ==== Sys2Proof/Machine/Dispatch.lean ====
section
/-! DEFINITION. One arm per command: each a direct call of its meaning. -/

namespace Sys2Proof.Machine

open Sys2Proof

def exec (i : Instr) (s : State) : Host.Outcome State Fault Refusal :=
  match i with
  | .nop p w => Sys2Proof.Machine.execNop p w s
  | .endRun p w => Sys2Proof.Machine.execEndRun p w s
  | .jump p w => Sys2Proof.Machine.execJump p w s
  | .lset p w => Sys2Proof.Machine.execLset p w s
  | .loop p w => Sys2Proof.Machine.execLoop p w s
  | .fset p w => Sys2Proof.Machine.execFset p w s
  | .ftest p w => Sys2Proof.Machine.execFtest p w s
  | .twait p w => Sys2Proof.Machine.execTwait p w s
  | .tackWaitDone p => Sys2Proof.Machine.execTackWaitDone p s
  | .tsig p w => Sys2Proof.Machine.execTsig p w s
  | .tset p w => Sys2Proof.Machine.execTset p w s
  | .rsig p w => Sys2Proof.Machine.execRsig p w s
  | .drain p w => Sys2Proof.Machine.execDrain p w s
  | .dload p w => Sys2Proof.Machine.execDload p w s
  | .dset p w => Sys2Proof.Machine.execDset p w s
  | .dshape p w => Sys2Proof.Machine.execDshape p w s
  | .matmul p w follow err => Sys2Proof.Machine.execMatmul p w follow err s
  | .matmulS24 p w follow err => Sys2Proof.Machine.execMatmulS24 p w follow err s
  | .matmulBsp p w follow err => Sys2Proof.Machine.execMatmulBsp p w follow err s
  | .conv1 p w follow err => Sys2Proof.Machine.execConv1 p w follow err s
  | .gathermm p w follow err => Sys2Proof.Machine.execGathermm p w follow err s
  | .attn p w => Sys2Proof.Machine.execAttn p w s
  | .attnSel p w => Sys2Proof.Machine.execAttnSel p w s
  | .attnBwd p w => Sys2Proof.Machine.execAttnBwd p w s
  | .ew1 p w => Sys2Proof.Machine.execEw1 p w s
  | .ew2 p w => Sys2Proof.Machine.execEw2 p w s
  | .ew3 p w => Sys2Proof.Machine.execEw3 p w s
  | .cvt p w => Sys2Proof.Machine.execCvt p w s
  | .prescan p w => Sys2Proof.Machine.execPrescan p w s
  | .rownorm p w => Sys2Proof.Machine.execRownorm p w s
  | .reduce p w => Sys2Proof.Machine.execReduce p w s
  | .topk p w => Sys2Proof.Machine.execTopk p w s
  | .route p w => Sys2Proof.Machine.execRoute p w s
  | .copy p w => Sys2Proof.Machine.execCopy p w s
  | .gather p w => Sys2Proof.Machine.execGather p w s
  | .scatter p w => Sys2Proof.Machine.execScatter p w s
  | .send p w => Sys2Proof.Machine.execSend p w s
  | .recv p w => Sys2Proof.Machine.execRecv p w s
  | .bswap p w => Sys2Proof.Machine.execBswap p w s
  | .offload p w => Sys2Proof.Machine.execOffload p w s
  | .prefetch p w => Sys2Proof.Machine.execPrefetch p w s
  | .normp p w => Sys2Proof.Machine.execNormp p w s
  | .normw p w => Sys2Proof.Machine.execNormw p w s
  | .updSgdm p w => Sys2Proof.Machine.execUpdSgdm p w s
  | .updAdam p w => Sys2Proof.Machine.execUpdAdam p w s
  | .updPrec p w => Sys2Proof.Machine.execUpdPrec p w s
  | .updEmb p w => Sys2Proof.Machine.execUpdEmb p w s
  | .snap p w => Sys2Proof.Machine.execSnap p w s
  | .bkadd p w => Sys2Proof.Machine.execBkadd p w s
  | .bkclose p w => Sys2Proof.Machine.execBkclose p w s
  | .pgather p w => Sys2Proof.Machine.execPgather p w s
  | .instructionComplete p => Sys2Proof.Machine.execInstructionComplete p s
  | .runBegin ch site => Sys2Proof.Machine.execRunBegin ch site s
  | .uStreamStart ch site => Sys2Proof.Machine.execUStreamStart ch site s
  | .versionWaitEnd ch site => Sys2Proof.Machine.execVersionWaitEnd ch site s
  | .slabEnter p err ecc => Sys2Proof.Machine.execSlabEnter p err s ecc
  | .bobbinDrain p ecc => Sys2Proof.Machine.execBobbinDrain p ecc s
  | .bobbinWaitEnd p => Sys2Proof.Machine.execBobbinWaitEnd p s
  | .parityRerun p word => Sys2Proof.Machine.execParityRerun p word s
  | .subportReadRepeat ch site word again => Sys2Proof.Machine.execSubportReadRepeat ch site word again s
  | .queueLineArrive ch site q src line => Sys2Proof.Machine.execQueueLineArrive ch site q src line s
  | .creditReturn ch site cons q => Sys2Proof.Machine.execCreditReturn ch site cons q s
  | .queueStarved ch site q => Sys2Proof.Machine.execQueueStarved ch site q s
  | .deadlock ch x => Sys2Proof.Machine.execDeadlock ch x s
  | .meshFlitHop ch r inp fl side raw => Sys2Proof.Machine.execMeshFlitHop ch r inp fl side raw s
  | .meshWrite ch fl addr data => Sys2Proof.Machine.execMeshWrite ch fl addr data s
  | .sliceRead ch slice line src sub vert hint raws => Sys2Proof.Machine.execSliceRead ch slice line src sub vert hint raws s
  | .sliceWrite ch slice off data vert raws => Sys2Proof.Machine.execSliceWrite ch slice off data vert raws s
  | .mergeWindowClose ch slice line => Sys2Proof.Machine.execMergeWindowClose ch slice line s
  | .tierScrub ch slice raws => Sys2Proof.Machine.execTierScrub ch slice raws s
  | .tierCorrectWriteback ch addr => Sys2Proof.Machine.execTierCorrectWriteback ch addr s
  | .meshRtSwap ch m v => Sys2Proof.Machine.execMeshRtSwap ch m v s
  | .meshSwapComplete ch => Sys2Proof.Machine.execMeshSwapComplete ch s
  | .meshSwapTimeout ch => Sys2Proof.Machine.execMeshSwapTimeout ch s
  | .fence ch m site => Sys2Proof.Machine.execFence ch m site s
  | .remoteTackAdd ch hdr pay ecc => Sys2Proof.Machine.execRemoteTackAdd ch hdr pay ecc s
  | .remoteTackRelease ch hdr pay ecc => Sys2Proof.Machine.execRemoteTackRelease ch hdr pay ecc s
  | .memRead ch addr len raws lecc => Sys2Proof.Machine.execMemRead ch addr len raws lecc s
  | .memWrite ch addr data raws lecc => Sys2Proof.Machine.execMemWrite ch addr data raws lecc s
  | .memScrub ch ctrl raws lecc => Sys2Proof.Machine.execMemScrub ch ctrl raws s lecc
  | .flashRead ch addr len stream res => Sys2Proof.Machine.execFlashRead ch addr len stream res s
  | .flashWrite ch addr data offl => Sys2Proof.Machine.execFlashWrite ch addr data offl s
  | .flashUnitProgram ch unit blk ok res => Sys2Proof.Machine.execFlashUnitProgram ch unit blk ok res s
  | .unitIdleTimeout ch unit => Sys2Proof.Machine.execUnitIdleTimeout ch unit s
  | .flashFlush ch m v => Sys2Proof.Machine.execFlashFlush ch m v s
  | .flashSwap ch m v => Sys2Proof.Machine.execFlashSwap ch m v s
  | .flashSwapInterval ch => Sys2Proof.Machine.execFlashSwapInterval ch s
  | .flashSwapComplete ch fails => Sys2Proof.Machine.execFlashSwapComplete ch s fails
  | .flashRelocate ch unit blk res ok => Sys2Proof.Machine.execFlashRelocate ch unit blk res s ok
  | .retentionScrub ch blk pages eraseOk => Sys2Proof.Machine.execRetentionScrub ch blk pages eraseOk s
  | .staticWearLevel ch src dst ok => Sys2Proof.Machine.execStaticWearLevel ch src dst s ok
  | .lunBusyTimeout ch => Sys2Proof.Machine.execLunBusyTimeout ch s
  | .flashMapReady ch => Sys2Proof.Machine.execFlashMapReady ch s
  | .kt5Access ch addr len data pin stream => Sys2Proof.Machine.execKt5Access ch addr len data pin stream s
  | .kt5Migration ch page raws => Sys2Proof.Machine.execKt5Migration ch page s raws
  | .kt5HeatHalve ch => Sys2Proof.Machine.execKt5HeatHalve ch s
  | .kt5Flush ch m v => Sys2Proof.Machine.execKt5Flush ch m v s
  | .kt5Enable ch m v => Sys2Proof.Machine.execKt5Enable ch m v s
  | .kt5Disable ch m v => Sys2Proof.Machine.execKt5Disable ch m v s
  | .kt5FlushDone ch => Sys2Proof.Machine.execKt5FlushDone ch s
  | .dataCodewordRx ch k cw => Sys2Proof.Machine.execDataCodewordRx ch k cw s
  | .markerRx ch k cw => Sys2Proof.Machine.execMarkerRx ch k cw s
  | .markerSend ch k => Sys2Proof.Machine.execMarkerSend ch k s
  | .ackTimeout ch k => Sys2Proof.Machine.execAckTimeout ch k s
  | .markerLockLoss ch k => Sys2Proof.Machine.execMarkerLockLoss ch k s
  | .retrainDone ch k => Sys2Proof.Machine.execRetrainDone ch k s
  | .retrainTimeout ch k => Sys2Proof.Machine.execRetrainTimeout ch k s
  | .portTrained ch k ids inv pre => Sys2Proof.Machine.execPortTrained ch k ids inv s pre
  | .ylWrite ch k p => Sys2Proof.Machine.execYlWrite ch k p s
  | .wresp ch k p => Sys2Proof.Machine.execWresp ch k p s
  | .packetForward ch k p => Sys2Proof.Machine.execPacketForward ch k p s
  | .lookupWaitTimeout ch => Sys2Proof.Machine.execLookupWaitTimeout ch s
  | .ylStuck ch k vc => Sys2Proof.Machine.execYlStuck ch k vc s
  | .picotSend ch k => Sys2Proof.Machine.execPicotSend ch k s
  | .picot ch k p => Sys2Proof.Machine.execPicot ch k p s
  | .ylLost ch k => Sys2Proof.Machine.execYlLost ch k s
  | .view ch k p => Sys2Proof.Machine.execView ch k p s
  | .vote ch k p => Sys2Proof.Machine.execVote ch k p s
  | .commit ch k p => Sys2Proof.Machine.execCommit ch k p s
  | .wake ch k p => Sys2Proof.Machine.execWake ch k p s
  | .width ch k p => Sys2Proof.Machine.execWidth ch k p s
  | .widthChangeDone ch k => Sys2Proof.Machine.execWidthChangeDone ch k s
  | .ylSwap ch m v => Sys2Proof.Machine.execYlSwap ch m v s
  | .ylFill ch m v => Sys2Proof.Machine.execYlFill ch m v s
  | .ylFillDone ch => Sys2Proof.Machine.execYlFillDone ch s
  | .ylWake ch m v => Sys2Proof.Machine.execYlWake ch m v s
  | .portEnable ch m k v => Sys2Proof.Machine.execPortEnable ch m k v s
  | .portDisable ch m k v => Sys2Proof.Machine.execPortDisable ch m k v s
  | .portRestart ch m k v => Sys2Proof.Machine.execPortRestart ch m k v s
  | .windowOpen ch m n v => Sys2Proof.Machine.execWindowOpen ch m n v s
  | .windowClose ch m n v => Sys2Proof.Machine.execWindowClose ch m n v s
  | .windowCloseDone ch n => Sys2Proof.Machine.execWindowCloseDone ch n s
  | .remoteWriteTimeout ch n => Sys2Proof.Machine.execRemoteWriteTimeout ch n s
  | .bucketSlotFree p => Sys2Proof.Machine.execBucketSlotFree p s
  | .reductionStart ch x => Sys2Proof.Machine.execReductionStart ch x s
  | .bucketStart ch => Sys2Proof.Machine.execBucketStart ch s
  | .collScale ch k p => Sys2Proof.Machine.execCollScale ch k p s
  | .collRs ch k p => Sys2Proof.Machine.execCollRs ch k p s
  | .collAg ch k p => Sys2Proof.Machine.execCollAg ch k p s
  | .collNorm ch k p => Sys2Proof.Machine.execCollNorm ch k p s
  | .collPg ch k p => Sys2Proof.Machine.execCollPg ch k p s
  | .collBarrier ch k p => Sys2Proof.Machine.execCollBarrier ch k p s
  | .passEnd ch x b => Sys2Proof.Machine.execPassEnd ch x b s
  | .bucketDone ch x b => Sys2Proof.Machine.execBucketDone ch x b s
  | .collTimeout ch x tag => Sys2Proof.Machine.execCollTimeout ch x tag s
  | .pressBegin ch x => Sys2Proof.Machine.execPressBegin ch x s
  | .pressTimeout ch x => Sys2Proof.Machine.execPressTimeout ch x s
  | .watchCheck ch site => Sys2Proof.Machine.execWatchCheck ch site s
  | .watchModeWrite ch m v => Sys2Proof.Machine.execWatchModeWrite ch m v s
  | .halfValidate ch m site n v => Sys2Proof.Machine.execHalfValidate ch m site n v s
  | .cmdNop ch q cmd => Sys2Proof.Machine.execCmdNop ch q cmd s
  | .loadPricking ch q cmd raws => Sys2Proof.Machine.execLoadPricking ch q cmd s raws
  | .reconfigDrainDone ch x => Sys2Proof.Machine.execReconfigDrainDone ch x s
  | .reconfigDrainTimeout ch x => Sys2Proof.Machine.execReconfigDrainTimeout ch x s
  | .unload ch q cmd => Sys2Proof.Machine.execUnload ch q cmd s
  | .cmdStep ch q cmd => Sys2Proof.Machine.execCmdStep ch q cmd s
  | .permute ch q cmd => Sys2Proof.Machine.execPermute ch q cmd s
  | .rwrite ch q cmd => Sys2Proof.Machine.execRwrite ch q cmd s
  | .dma ch q cmd data => Sys2Proof.Machine.execDma ch q cmd data s
  | .commandStart ch cmd data raws => Sys2Proof.Machine.execCommandStart ch cmd data s raws
  | .completionWrite ch cq => Sys2Proof.Machine.execCompletionWrite ch cq s
  | .sqDoorbell ch q v => Sys2Proof.Machine.execSqDoorbell ch q v s
  | .cqDoorbell ch q v => Sys2Proof.Machine.execCqDoorbell ch q v s
  | .sqEnable ch m q v => Sys2Proof.Machine.execSqEnable ch m q v s
  | .sqDisable ch m q v => Sys2Proof.Machine.execSqDisable ch m q v s
  | .cqEnable ch m q v => Sys2Proof.Machine.execCqEnable ch m q v s
  | .cqDisable ch m q v => Sys2Proof.Machine.execCqDisable ch m q v s
  | .cqCoalesceTimeout ch cq => Sys2Proof.Machine.execCqCoalesceTimeout ch cq s
  | .evpendClear ch m v => Sys2Proof.Machine.execEvpendClear ch m v s
  | .windowAccess ch m a wr wide => Sys2Proof.Machine.execWindowAccess ch m a wr s wide
  | .windowAccessTimeout ch wr => Sys2Proof.Machine.execWindowAccessTimeout ch wr s
  | .bar2Access ch off len wr tlps ecc => Sys2Proof.Machine.execBar2Access ch off len wr s tlps ecc
  | .hostRequestDropped ch len wr tlps => Sys2Proof.Machine.execHostRequestDropped ch len wr s tlps
  | .poisonedWrite ch => Sys2Proof.Machine.execPoisonedWrite ch s
  | .hostReadFail ch q cmd got => Sys2Proof.Machine.execHostReadFail ch q cmd got s
  | .mbxWrite ch m n v ecc => Sys2Proof.Machine.execMbxWrite ch m n v s ecc
  | .mbxClear ch m n => Sys2Proof.Machine.execMbxClear ch m n s
  | .mbxTimeout ch n => Sys2Proof.Machine.execMbxTimeout ch n s
  | .ping ch r => Sys2Proof.Machine.execPing ch r s
  | .version ch => Sys2Proof.Machine.execVersion ch s
  | .ctxstate ch => Sys2Proof.Machine.execCtxstate ch s
  | .inflight ch => Sys2Proof.Machine.execInflight ch s
  | .spare ch => Sys2Proof.Machine.execSpare ch s
  | .flush ch => Sys2Proof.Machine.execFlush ch s
  | .pwrState ch => Sys2Proof.Machine.execPwrState ch s
  | .pwrEnter ch => Sys2Proof.Machine.execPwrEnter ch s
  | .pwrExitReq ch => Sys2Proof.Machine.execPwrExitReq ch s
  | .dvfs ch => Sys2Proof.Machine.execDvfs ch s
  | .temp ch => Sys2Proof.Machine.execTemp ch s
  | .attest ch => Sys2Proof.Machine.execAttest ch s
  | .stage ch => Sys2Proof.Machine.execStage ch s
  | .stageDone ch ok => Sys2Proof.Machine.execStageDone ch ok s
  | .mend ch => Sys2Proof.Machine.execMend ch s
  | .mendPark ch => Sys2Proof.Machine.execMendPark ch s
  | .mendSwitch ch us => Sys2Proof.Machine.execMendSwitch ch us s
  | .mendParkTimeout ch => Sys2Proof.Machine.execMendParkTimeout ch s
  | .mendRetry ch => Sys2Proof.Machine.execMendRetry ch s
  | .otpCommit ch => Sys2Proof.Machine.execOtpCommit ch s
  | .otpProgramDone ch => Sys2Proof.Machine.execOtpProgramDone ch s
  | .boot ch slow => Sys2Proof.Machine.execBoot ch slow s
  | .bootTrainDone ch memFail busFail => Sys2Proof.Machine.execBootTrainDone ch memFail busFail s
  | .channelHold ch => Sys2Proof.Machine.execChannelHold ch s
  | .channelRelease ch => Sys2Proof.Machine.execChannelRelease ch s
  | .functionLevelReset pf => Sys2Proof.Machine.execFunctionLevelReset pf s
  | .bridgeLinkDown ch => Sys2Proof.Machine.execBridgeLinkDown ch s
  | .bridgeLinkUp ch => Sys2Proof.Machine.execBridgeLinkUp ch s
  | .bridgeLost ch => Sys2Proof.Machine.execBridgeLost ch s
  | .moduleId pec => Sys2Proof.Machine.execModuleId s pec
  | .moduleStatus pec => Sys2Proof.Machine.execModuleStatus s pec
  | .serial pec => Sys2Proof.Machine.execSerial s pec
  | .dieTemp ch pec => Sys2Proof.Machine.execDieTemp ch s pec
  | .vin mv pec => Sys2Proof.Machine.execVin mv s pec
  | .iin ma pec => Sys2Proof.Machine.execIin ma s pec
  | .pin pw pec => Sys2Proof.Machine.execPin pw s pec
  | .smbusNack  => Sys2Proof.Machine.execSmbusNack  s
  | .pwrExit ch m v => Sys2Proof.Machine.execPwrExit ch m v s
  | .pwrGate ch m v => Sys2Proof.Machine.execPwrGate ch m v s
  | .pwrC2 ch m v => Sys2Proof.Machine.execPwrC2 ch m v s
  | .pwrC3 ch m v => Sys2Proof.Machine.execPwrC3 ch m v s
  | .pwrC4 ch m v => Sys2Proof.Machine.execPwrC4 ch m v s
  | .entryDrainDone ch => Sys2Proof.Machine.execEntryDrainDone ch s
  | .entryDrainTimeout ch => Sys2Proof.Machine.execEntryDrainTimeout ch s
  | .entryQuiesced ch => Sys2Proof.Machine.execEntryQuiesced ch s
  | .powerEntryDone ch => Sys2Proof.Machine.execPowerEntryDone ch s
  | .powerExitDone ch => Sys2Proof.Machine.execPowerExitDone ch s
  | .wakePin ch => Sys2Proof.Machine.execWakePin ch s
  | .demandWake ch us => Sys2Proof.Machine.execDemandWake ch us s
  | .autoGate ch east => Sys2Proof.Machine.execAutoGate ch east s
  | .gate ch halves ecc => Sys2Proof.Machine.execGate ch halves s ecc
  | .ungate ch halves ecc => Sys2Proof.Machine.execUngate ch halves s ecc
  | .islandOff ch halves ecc => Sys2Proof.Machine.execIslandOff ch halves s ecc
  | .islandOn ch halves ecc => Sys2Proof.Machine.execIslandOn ch halves s ecc
  | .quiesce ch site ecc => Sys2Proof.Machine.execQuiesce ch site s ecc
  | .resume ch site ecc => Sys2Proof.Machine.execResume ch site s ecc
  | .ack ch node cmd ecc => Sys2Proof.Machine.execAck ch node cmd s ecc
  | .pwrDvfs ch m east v => Sys2Proof.Machine.execPwrDvfs ch m east v s
  | .dvfsDone ch east => Sys2Proof.Machine.execDvfsDone ch east s
  | .thermalSample ch west east => Sys2Proof.Machine.execThermalSample ch west east s
  | .throttleStep ch east slower => Sys2Proof.Machine.execThrottleStep ch east slower s
  | .inputAlarm  => Sys2Proof.Machine.execInputAlarm  s
  | .railOvercurrent ch east => Sys2Proof.Machine.execRailOvercurrent ch east s
  | .emergencyClear ch east => Sys2Proof.Machine.execEmergencyClear ch east s
  | .railFault ch rail => Sys2Proof.Machine.execRailFault ch rail s
  | .pllUnlock ch pll => Sys2Proof.Machine.execPllUnlock ch pll s
  | .aonRailRemove ch => Sys2Proof.Machine.execAonRailRemove ch s
  | .vin48Valid  => Sys2Proof.Machine.execVin48Valid  s
  | .vin48Loss  => Sys2Proof.Machine.execVin48Loss  s
  | .prsntOpen  => Sys2Proof.Machine.execPrsntOpen  s
  | .mrstAssert  => Sys2Proof.Machine.execMrstAssert  s
  | .mrstDeassert  => Sys2Proof.Machine.execMrstDeassert  s
  | .perstAssert  => Sys2Proof.Machine.execPerstAssert  s
  | .perstDeassert  => Sys2Proof.Machine.execPerstDeassert  s
  | .faultReport ch msg perr ecc raws => Sys2Proof.Machine.execFaultReport ch msg perr s ecc raws
  | .rinseStopDone ch => Sys2Proof.Machine.execRinseStopDone ch s
  | .agreeEnd ch => Sys2Proof.Machine.execAgreeEnd ch s
  | .restoreDone ch => Sys2Proof.Machine.execRestoreDone ch s
  | .logAckWrite ch m v => Sys2Proof.Machine.execLogAckWrite ch m v s
  | .registerWrite tgt m a v hi => Sys2Proof.Machine.execRegisterWrite tgt m a v s hi
  | .wakePinDeassert ch => Sys2Proof.Machine.execWakePinDeassert ch s
  | .vinOkChange ok => Sys2Proof.Machine.execVinOkChange ok s
  | .prsntClose  => Sys2Proof.Machine.execPrsntClose  s
  | .auxSupplyChange on => Sys2Proof.Machine.execAuxSupplyChange on s
  | .pcieLinkUp  => Sys2Proof.Machine.execPcieLinkUp  s
  | .d3hot pf on => Sys2Proof.Machine.execD3hot pf on s
  | .memCorrectWriteback ch addr => Sys2Proof.Machine.execMemCorrectWriteback ch addr s

end Sys2Proof.Machine
end

