-- ==== Sys2Proof/Safety.lean ====
section
/-! DEFINITION. What holds of a state that the model may be in. -/

namespace Sys2Proof.Machine

open Sys2Proof

/-- A channel's maps are in their canonical form. -/
def Channel.wf (c : Channel) : Bool :=
  mwf regDefault c.regs && Memory.wf c.mem && mwf vecDefault c.vecs.table

def State.wf (s : State) : Bool := s.ch0.wf && s.ch1.wf && s.ch2.wf && s.ch3.wf

end Sys2Proof.Machine
end

