-- ==== Sys2Proof/Certificates/Slice0/Obligations.lean ====
section
/-! DEFINITION. The statements for the provers. `Sys2Proof.Says` holds the words they are made of. -/

namespace Sys2Proof.Says

open Sys2Proof.Machine

/-! ### What a command leaves -/

/-- Command i at state s answers a next state in which channel ch is d and nothing else of the module has changed. -/
def Leaves (i : Instr) (s : State) (ch : Chan) (d : Channel) : Prop := exec i s = .next (s.setChan ch d)

/-- The same, with n uses of the counter of free values. -/
def LeavesF (n : Nat) (i : Instr) (s : State) (ch : Chan) (d : Channel) : Prop :=
  exec i s = .next { s.setChan ch d with free := s.free + n }

/-- From channel c to channel d no part changes but the registers listed. -/
def Regs (l : List Nat) (c d : Channel) : Prop := d = { c with regs := d.regs } ∧ ∀ a, a ∉ l → d.rd a = c.rd a

/-- No part changes but the registers listed and core i, which becomes k. -/
def RegsCore (l : List Nat) (i : Nat) (k : Core) (c d : Channel) : Prop :=
  d = { c with regs := d.regs, cores := d.cores } ∧ d.core i = k ∧ (∀ j, j ≠ i → d.core j = c.core j) ∧ ∀ a, a ∉ l → d.rd a = c.rd a

/-- Every other field of register a keeps its value: those that share no bit with field f. -/
def FieldsBut (a : Nat) (f : Fld) (c d : Channel) : Prop :=
  ∀ g : Fld, g.lo + g.w ≤ f.lo ∨ f.lo + f.w ≤ g.lo → d.fld a g = c.fld a g

/-- Register a counts n more events and saturates (R11). -/
def Counted (a n : Nat) (c d : Channel) : Prop := d.rd a = min (c.rd a + n) 0xFFFF_FFFF

/-- Event e is pending, and what it sends has been sent: no part of c changes but HIF_EVPEND and what leaves the channel (R422). -/
def Told (e : Nat) (c d : Channel) : Prop := d = c.event e

/-- A register write by master m at address a of channel ch gets to its block: the master is not PF0, a host access finds its way, the
domain runs, the window is served, and the block accepts the master. -/
def Lands (s : State) (ch : Chan) (m : Master) (a : Nat) : Prop :=
  let c := s.chan ch
  m ≠ .pf0 ∧ (m = .pf → c.hostWay = .open) ∧ c.pst ≠ 4 ∧ c.regAsleep a = false ∧ c.windowDown a = false ∧ c.mayWrite m a = true

/-- The channel that a command names. -/
def chanOf : Instr → Option Chan
  | .nop p _ => some p.ch
  | .endRun p _ => some p.ch
  | .jump p _ => some p.ch
  | .lset p _ => some p.ch
  | .loop p _ => some p.ch
  | .fset p _ => some p.ch
  | .ftest p _ => some p.ch
  | .twait p _ => some p.ch
  | .tackWaitDone p => some p.ch
  | .tsig p _ => some p.ch
  | .tset p _ => some p.ch
  | .rsig p _ => some p.ch
  | .drain p _ => some p.ch
  | .dload p _ => some p.ch
  | .dset p _ => some p.ch
  | .dshape p _ => some p.ch
  | .matmul p _ _ _ => some p.ch
  | .matmulS24 p _ _ _ => some p.ch
  | .matmulBsp p _ _ _ => some p.ch
  | .conv1 p _ _ _ => some p.ch
  | .gathermm p _ _ _ => some p.ch
  | .attn p _ => some p.ch
  | .attnSel p _ => some p.ch
  | .attnBwd p _ => some p.ch
  | .ew1 p _ => some p.ch
  | .ew2 p _ => some p.ch
  | .ew3 p _ => some p.ch
  | .cvt p _ => some p.ch
  | .prescan p _ => some p.ch
  | .rownorm p _ => some p.ch
  | .reduce p _ => some p.ch
  | .topk p _ => some p.ch
  | .route p _ => some p.ch
  | .copy p _ => some p.ch
  | .gather p _ => some p.ch
  | .scatter p _ => some p.ch
  | .send p _ => some p.ch
  | .recv p _ => some p.ch
  | .bswap p _ => some p.ch
  | .offload p _ => some p.ch
  | .prefetch p _ => some p.ch
  | .normp p _ => some p.ch
  | .normw p _ => some p.ch
  | .updSgdm p _ => some p.ch
  | .updAdam p _ => some p.ch
  | .updPrec p _ => some p.ch
  | .updEmb p _ => some p.ch
  | .snap p _ => some p.ch
  | .bkadd p _ => some p.ch
  | .bkclose p _ => some p.ch
  | .pgather p _ => some p.ch
  | .instructionComplete p => some p.ch
  | .runBegin ch _ => some ch
  | .uStreamStart ch _ => some ch
  | .versionWaitEnd ch _ => some ch
  | .slabEnter p _ _ => some p.ch
  | .bobbinDrain p _ => some p.ch
  | .bobbinWaitEnd p => some p.ch
  | .parityRerun p _ => some p.ch
  | .subportReadRepeat ch _ _ _ => some ch
  | .queueLineArrive ch _ _ _ _ => some ch
  | .creditReturn ch _ _ _ => some ch
  | .queueStarved ch _ _ => some ch
  | .deadlock ch _ => some ch
  | .meshFlitHop ch _ _ _ _ _ => some ch
  | .meshWrite ch _ _ _ => some ch
  | .sliceRead ch _ _ _ _ _ _ _ => some ch
  | .sliceWrite ch _ _ _ _ _ => some ch
  | .mergeWindowClose ch _ _ => some ch
  | .tierScrub ch _ _ => some ch
  | .tierCorrectWriteback ch _ => some ch
  | .meshRtSwap ch _ _ => some ch
  | .meshSwapComplete ch => some ch
  | .meshSwapTimeout ch => some ch
  | .fence ch _ _ => some ch
  | .remoteTackAdd ch _ _ _ => some ch
  | .remoteTackRelease ch _ _ _ => some ch
  | .memRead ch _ _ _ _ => some ch
  | .memWrite ch _ _ _ _ => some ch
  | .memScrub ch _ _ _ => some ch
  | .flashRead ch _ _ _ _ => some ch
  | .flashWrite ch _ _ _ => some ch
  | .flashUnitProgram ch _ _ _ _ => some ch
  | .unitIdleTimeout ch _ => some ch
  | .flashFlush ch _ _ => some ch
  | .flashSwap ch _ _ => some ch
  | .flashSwapInterval ch => some ch
  | .flashSwapComplete ch _ => some ch
  | .flashRelocate ch _ _ _ _ => some ch
  | .retentionScrub ch _ _ _ => some ch
  | .staticWearLevel ch _ _ _ => some ch
  | .lunBusyTimeout ch => some ch
  | .flashMapReady ch => some ch
  | .kt5Access ch _ _ _ _ _ => some ch
  | .kt5Migration ch _ _ => some ch
  | .kt5HeatHalve ch => some ch
  | .kt5Flush ch _ _ => some ch
  | .kt5Enable ch _ _ => some ch
  | .kt5Disable ch _ _ => some ch
  | .kt5FlushDone ch => some ch
  | .dataCodewordRx ch _ _ => some ch
  | .markerRx ch _ _ => some ch
  | .markerSend ch _ => some ch
  | .ackTimeout ch _ => some ch
  | .markerLockLoss ch _ => some ch
  | .retrainDone ch _ => some ch
  | .retrainTimeout ch _ => some ch
  | .portTrained ch _ _ _ _ => some ch
  | .ylWrite ch _ _ => some ch
  | .wresp ch _ _ => some ch
  | .packetForward ch _ _ => some ch
  | .lookupWaitTimeout ch => some ch
  | .ylStuck ch _ _ => some ch
  | .picotSend ch _ => some ch
  | .picot ch _ _ => some ch
  | .ylLost ch _ => some ch
  | .view ch _ _ => some ch
  | .vote ch _ _ => some ch
  | .commit ch _ _ => some ch
  | .wake ch _ _ => some ch
  | .width ch _ _ => some ch
  | .widthChangeDone ch _ => some ch
  | .ylSwap ch _ _ => some ch
  | .ylFill ch _ _ => some ch
  | .ylFillDone ch => some ch
  | .ylWake ch _ _ => some ch
  | .portEnable ch _ _ _ => some ch
  | .portDisable ch _ _ _ => some ch
  | .portRestart ch _ _ _ => some ch
  | .windowOpen ch _ _ _ => some ch
  | .windowClose ch _ _ _ => some ch
  | .windowCloseDone ch _ => some ch
  | .remoteWriteTimeout ch _ => some ch
  | .bucketSlotFree p => some p.ch
  | .reductionStart ch _ => some ch
  | .bucketStart ch => some ch
  | .collScale ch _ _ => some ch
  | .collRs ch _ _ => some ch
  | .collAg ch _ _ => some ch
  | .collNorm ch _ _ => some ch
  | .collPg ch _ _ => some ch
  | .collBarrier ch _ _ => some ch
  | .passEnd ch _ _ => some ch
  | .bucketDone ch _ _ => some ch
  | .collTimeout ch _ _ => some ch
  | .pressBegin ch _ => some ch
  | .pressTimeout ch _ => some ch
  | .watchCheck ch _ => some ch
  | .watchModeWrite ch _ _ => some ch
  | .halfValidate ch _ _ _ _ => some ch
  | .cmdNop ch _ _ => some ch
  | .loadPricking ch _ _ _ => some ch
  | .reconfigDrainDone ch _ => some ch
  | .reconfigDrainTimeout ch _ => some ch
  | .unload ch _ _ => some ch
  | .cmdStep ch _ _ => some ch
  | .permute ch _ _ => some ch
  | .rwrite ch _ _ => some ch
  | .dma ch _ _ _ => some ch
  | .commandStart ch _ _ _ => some ch
  | .completionWrite ch _ => some ch
  | .sqDoorbell ch _ _ => some ch
  | .cqDoorbell ch _ _ => some ch
  | .sqEnable ch _ _ _ => some ch
  | .sqDisable ch _ _ _ => some ch
  | .cqEnable ch _ _ _ => some ch
  | .cqDisable ch _ _ _ => some ch
  | .cqCoalesceTimeout ch _ => some ch
  | .evpendClear ch _ _ => some ch
  | .windowAccess ch _ _ _ _ => some ch
  | .windowAccessTimeout ch _ => some ch
  | .bar2Access ch _ _ _ _ _ => some ch
  | .hostRequestDropped ch _ _ _ => some ch
  | .poisonedWrite ch => some ch
  | .hostReadFail ch _ _ _ => some ch
  | .mbxWrite ch _ _ _ _ => some ch
  | .mbxClear ch _ _ => some ch
  | .mbxTimeout ch _ => some ch
  | .ping ch _ => some ch
  | .version ch => some ch
  | .ctxstate ch => some ch
  | .inflight ch => some ch
  | .spare ch => some ch
  | .flush ch => some ch
  | .pwrState ch => some ch
  | .pwrEnter ch => some ch
  | .pwrExitReq ch => some ch
  | .dvfs ch => some ch
  | .temp ch => some ch
  | .attest ch => some ch
  | .stage ch => some ch
  | .stageDone ch _ => some ch
  | .mend ch => some ch
  | .mendPark ch => some ch
  | .mendSwitch ch _ => some ch
  | .mendParkTimeout ch => some ch
  | .mendRetry ch => some ch
  | .otpCommit ch => some ch
  | .otpProgramDone ch => some ch
  | .boot ch _ => some ch
  | .bootTrainDone ch _ _ => some ch
  | .channelHold ch => some ch
  | .channelRelease ch => some ch
  | .functionLevelReset _ => none
  | .bridgeLinkDown ch => some ch
  | .bridgeLinkUp ch => some ch
  | .bridgeLost ch => some ch
  | .moduleId _ => none
  | .moduleStatus _ => none
  | .serial _ => none
  | .dieTemp ch _ => some ch
  | .vin _ _ => none
  | .iin _ _ => none
  | .pin _ _ => none
  | .smbusNack => none
  | .pwrExit ch _ _ => some ch
  | .pwrGate ch _ _ => some ch
  | .pwrC2 ch _ _ => some ch
  | .pwrC3 ch _ _ => some ch
  | .pwrC4 ch _ _ => some ch
  | .entryDrainDone ch => some ch
  | .entryDrainTimeout ch => some ch
  | .entryQuiesced ch => some ch
  | .powerEntryDone ch => some ch
  | .powerExitDone ch => some ch
  | .wakePin ch => some ch
  | .demandWake ch _ => some ch
  | .autoGate ch _ => some ch
  | .gate ch _ _ => some ch
  | .ungate ch _ _ => some ch
  | .islandOff ch _ _ => some ch
  | .islandOn ch _ _ => some ch
  | .quiesce ch _ _ => some ch
  | .resume ch _ _ => some ch
  | .ack ch _ _ _ => some ch
  | .pwrDvfs ch _ _ _ => some ch
  | .dvfsDone ch _ => some ch
  | .thermalSample ch _ _ => some ch
  | .throttleStep ch _ _ => some ch
  | .inputAlarm => none
  | .railOvercurrent ch _ => some ch
  | .emergencyClear ch _ => some ch
  | .railFault ch _ => some ch
  | .pllUnlock ch _ => some ch
  | .aonRailRemove ch => some ch
  | .vin48Valid => none
  | .vin48Loss => none
  | .prsntOpen => none
  | .mrstAssert => none
  | .mrstDeassert => none
  | .perstAssert => none
  | .perstDeassert => none
  | .faultReport ch _ _ _ _ => some ch
  | .rinseStopDone ch => some ch
  | .agreeEnd ch => some ch
  | .restoreDone ch => some ch
  | .logAckWrite ch _ _ => some ch
  | .registerWrite tgt _ _ _ _ => tgt
  | .wakePinDeassert ch => some ch
  | .vinOkChange _ => none
  | .prsntClose => none
  | .auxSupplyChange _ => none
  | .pcieLinkUp => none
  | .d3hot _ _ => none
  | .memCorrectWriteback ch _ => some ch
/-- What holds of the MOD block, the pins and the supplies between any two commands: the block's registers in canonical form, their
reserved bits 0, the part code and the serial number as the factory left them, VIN_OK only while the conversion runs, and the
conversion only while the module is seated (R9, R31, R504). -/
def ModInv (s : State) : Prop :=
  mwf modDefault s.mod = true ∧ s.mrd Reg.MOD_STATUS < 2 ^ 13 ∧ s.mrd Reg.MOD_CHRST < 2 ^ 4 ∧ s.mrd Reg.MOD_ARB < 2 ^ 16 ∧
  s.mrd Reg.MOD_ID = (modDefault Reg.MOD_ID).toNat ∧ (∀ k, k < 4 → s.mrd (Reg.MOD_SERIAL k) = (modDefault (Reg.MOD_SERIAL k)).toNat) ∧
  (s.mfld Reg.MOD_STATUS Fl.MOD_STATUS_VIN_OK = 1 → s.pins.conv = true) ∧ (s.pins.conv = true → s.pins.prsnt = true)

end Sys2Proof.Says

open Sys2Proof Sys2Proof.Machine Sys2Proof.Says

/-! ### The machine -/

/-- A step takes the command at the front of the queue and runs it on the state whose queue is the rest. -/
def Obligations.StepRunsFrontCommand : Prop :=
  ∀ (c : Instr) (q : List Instr) (s : State), step { s with pending := c :: q } = exec c { s with pending := q }

/-- With no command waiting a step lets 10 ns pass (R6; that a step on an empty queue is one tick is the model's choice, log 2): the
timestamps advance modulo 2^64, a tick in which a lookup waits for a swap of the flash map is counted (R296) and, but at a whole
millisecond, nothing else changes; no step on an empty queue stops. -/
def Obligations.EmptyQueueIsOneTick : Prop :=
  ∀ s : State, s.pending = [] →
    ∃ t, step s = .next t ∧ t.pending = [] ∧ t.mod = s.mod ∧ t.pins = s.pins ∧ t.out = s.out ∧ t.free = s.free ∧
      (∀ k, (t.chan k).ts = ((s.chan k).ts + 1) % 2 ^ 64) ∧
      (∀ k, ((s.chan k).ts + 1) % 2 ^ 64 % 100000 ≠ 0 →
        let c := { s.chan k with ts := ((s.chan k).ts + 1) % 2 ^ 64 }
        if c.fld Reg.FLASH_STATUS Fl.FLASH_STATUS_SWAP_BUSY = 1 ∧ c.flash.waiting ≠ [] then
          Regs [Reg.FLASH_MAPSTALL] c (t.chan k) ∧ Counted Reg.FLASH_MAPSTALL 1 c (t.chan k)
        else t.chan k = c) ∧
      ∀ k, t.chan k = { s.chan k with ts := ((s.chan k).ts + 1) % 2 ^ 64, regs := (t.chan k).regs }

/-- Every command answers a next state, and none touches the queue. -/
def Obligations.EveryCommandAnswers : Prop :=
  ∀ (i : Instr) (s : State), ∃ t, exec i s = .next t ∧ t.pending = s.pending

/-- The channels share nothing: a command of one channel leaves the other three as they are (R15, R20). -/
def Obligations.ChannelsAreApart : Prop :=
  ∀ (i : Instr) (ch : Chan) (s t : State), chanOf i = some ch → exec i s = .next t → ∀ k : Chan, k ≠ ch → t.chan k = s.chan k

/-- Every step keeps the invariant of the MOD block and the supplies, from every state that meets it. -/
def Obligations.EveryStepKeepsModBlock : Prop :=
  ∀ s t : State, ModInv s → step s = .next t → ModInv t

/-- The invariant of the MOD block holds at reset. -/
def Obligations.ModBlockAtReset : Prop := ModInv State.reset

/-- At reset every named register of every channel holds what its field table gives, every byte of memory that the map has reads 0
(the content of RAM that nothing has written is the model's choice, log 8), every stream is without a run, and nothing waits. -/
def Obligations.ResetState : Prop :=
  (∀ (k : Chan) (a : Nat) (r : RegRow), regRow a = some r → (State.reset.chan k).rd a = rowReset r % 2 ^ 32) ∧
  (∀ (k : Chan) (a : Nat), (State.reset.chan k).ldByte a = 0) ∧
  (∀ (k : Chan) (i : Nat) (st : Strm), ((State.reset.chan k).core i).owner = none ∧ ((State.reset.chan k).strm i st).run = none) ∧
  (∀ (k : Chan) (x : Ctx), (State.reset.chan k).ctxState x.val = ctxEmpty) ∧
  State.reset.pending = [] ∧ ∀ k : Chan, (State.reset.chan k).faultq = [] ∧ (State.reset.chan k).num = k.val

/-! ### Registers -/

/-- A write of v to a named register by the access codes alone: each read-write field takes its bits of v, a read-only or write-only
field keeps its value, each bit written 1 of a clear-by-one field is cleared and of a set-by-one field set, reserved bits and every
other register keep theirs. -/
def Obligations.WriteByAccessCode : Prop :=
  ∀ (c : Channel) (a v : Nat) (r : RegRow), regRow a = some r →
    Regs [a] c (c.plainWrite a v) ∧
    (∀ f ∈ r.fields, (c.plainWrite a v).fld a ⟨f.lo, f.w⟩ =
      match f.acc with
      | .rw => bits v f.lo f.w
      | .ro => c.fld a ⟨f.lo, f.w⟩
      | .wo => c.fld a ⟨f.lo, f.w⟩
      | .w1c => c.fld a ⟨f.lo, f.w⟩ - (c.fld a ⟨f.lo, f.w⟩ &&& bits v f.lo f.w)
      | .w1s => c.fld a ⟨f.lo, f.w⟩ ||| bits v f.lo f.w) ∧
    ∀ b, b < 32 → (∀ f ∈ r.fields, ¬ (f.lo ≤ b ∧ b < f.lo + f.w)) → ((c.plainWrite a v).rd a).testBit b = (c.rd a).testBit b

/-! ### Instructions -/

namespace Sys2Proof.Says

/-- The rows that are instructions: where one issues, what its opcode means, its word and the word after it. A matrix row stands for
its form without an error in the core's own structures. -/
def insn : Instr → Option (Place × OpSpec × IWord × IWord)
  | .nop p w => some (p, specNop, w, 0)
  | .endRun p w => some (p, specEnd, w, 0)
  | .jump p w => some (p, specJump, w, 0)
  | .lset p w => some (p, specLset, w, 0)
  | .loop p w => some (p, specLoop, w, 0)
  | .fset p w => some (p, specFset, w, 0)
  | .ftest p w => some (p, specFtest, w, 0)
  | .twait p w => some (p, specTwait, w, 0)
  | .tsig p w => some (p, specTsig, w, 0)
  | .tset p w => some (p, specTset, w, 0)
  | .rsig p w => some (p, specRsig, w, 0)
  | .drain p w => some (p, specDrain, w, 0)
  | .dload p w => some (p, specDload, w, 0)
  | .dset p w => some (p, specDset, w, 0)
  | .dshape p w => some (p, specDshape, w, 0)
  | .matmul p w f .clean => some (p, specMatmul, w, f)
  | .matmulS24 p w f .clean => some (p, specMatmulS24, w, f)
  | .matmulBsp p w f .clean => some (p, specMatmulBsp, w, f)
  | .conv1 p w f .clean => some (p, specConv1, w, f)
  | .gathermm p w f .clean => some (p, specGathermm, w, f)
  | .attn p w => some (p, specAttn, w, 0)
  | .attnSel p w => some (p, specAttnSel, w, 0)
  | .attnBwd p w => some (p, specAttnBwd, w, 0)
  | .ew1 p w => some (p, specEw1, w, 0)
  | .ew2 p w => some (p, specEw2, w, 0)
  | .ew3 p w => some (p, specEw3, w, 0)
  | .cvt p w => some (p, specCvt, w, 0)
  | .prescan p w => some (p, specPrescan, w, 0)
  | .rownorm p w => some (p, specRownorm, w, 0)
  | .reduce p w => some (p, specReduce, w, 0)
  | .topk p w => some (p, specTopk, w, 0)
  | .route p w => some (p, specRoute, w, 0)
  | .copy p w => some (p, specCopy, w, 0)
  | .gather p w => some (p, specGather, w, 0)
  | .scatter p w => some (p, specScatter, w, 0)
  | .send p w => some (p, specSend, w, 0)
  | .recv p w => some (p, specRecv, w, 0)
  | .bswap p w => some (p, specBswap, w, 0)
  | .offload p w => some (p, specOffload, w, 0)
  | .prefetch p w => some (p, specPrefetch, w, 0)
  | .normp p w => some (p, specNormp, w, 0)
  | .normw p w => some (p, specNormw, w, 0)
  | .updSgdm p w => some (p, specUpdSgdm, w, 0)
  | .updAdam p w => some (p, specUpdAdam, w, 0)
  | .updPrec p w => some (p, specUpdPrec, w, 0)
  | .updEmb p w => some (p, specUpdEmb, w, 0)
  | .snap p w => some (p, specSnap, w, 0)
  | .bkadd p w => some (p, specBkadd, w, 0)
  | .bkclose p w => some (p, specBkclose, w, 0)
  | .pgather p w => some (p, specPgather, w, 0)
  | _ => none

/-- What a row does beside issuing its instruction: waiting instructions of the core are tried again, packets held for PGATHER are taken,
queues may start to spill. -/
def andThen : Instr → State → State
  | .endRun p _, s => s.atStream p (fun c _ => c)
  | .recv p _, s => s.onChan p.ch (fun c => c.spillCheck p.site.val)
  | .normw p _, s => s.atStream p (fun c _ => c)
  | .updSgdm p _, s => s.atStream p (fun c _ => c)
  | .updAdam p _, s => s.atStream p (fun c _ => c)
  | .updPrec p _, s => s.atStream p (fun c _ => c)
  | .updEmb p _, s => s.atStream p (fun c _ => c)
  | .pgather p _, s => s.atStream p (fun c fr => c.pumpHeld fr)
  | _, s => s

/-- A stream of a core in service may issue, and its program counter is where instructions are fetched. -/
def MayIssue (c : Channel) (p : Place) : Prop :=
  c.usable p.site.val = true ∧ (c.core p.site.val).quiet = false ∧ (c.strm p.site.val p.st).mayIssue = true ∧
  fetchBad p.site.val (c.strm p.site.val p.st).pc = false

/-- The word is the row's, its fields and the auxiliary descriptors that it uses are in range, and the stream may issue its opcode. -/
def Good (c : Channel) (sp : OpSpec) (p : Place) (w : IWord) : Prop :=
  iOpc w = sp.opc ∧ headerOk w = true ∧ sp.legal w = true ∧ sp.auxOk (c.descRaw p.site.val) w = true ∧ sp.streams p.st = true

/-- The stream's run. -/
def InRun (c : Channel) (p : Place) (rc : Rc) (run : RunInfo) : Prop :=
  (c.strm p.site.val p.st).run = some rc ∧ (c.core p.site.val).rcOf rc = some run

/-- What an instruction's meaning sees at its issue. -/
def seen (c : Channel) (sp : OpSpec) (p : Place) (w follow : IWord) (rc : Rc) (run : RunInfo) (fr : Nat) : Xc :=
  { c := c, site := p.site.val, st := p.st, w := w, follow := follow, rc := rc, run := run,
    snap := c.snapshot p.site.val (sp.roles (c.descRaw p.site.val) w), blk := c.blkOf p.site.val, fr := fr,
    pc := (c.strm p.site.val p.st).pc, owner := (c.core p.site.val).owner, wm := c.watchMode }

/-- The channel with the program counter past the instruction. -/
def passed (c : Channel) (p : Place) : Channel :=
  let i := p.site.val
  let c1 := c.modStr i p.st (fun x => { x with pc := (x.pc + 16) % 2 ^ 48, skipHdr := false })
  c1.setCore i { c1.core i with ord := (c.core i).ord + 1 }

/-- The channel with the instruction counted and the program counter past it. -/
def counted (c : Channel) (p : Place) : Channel :=
  let i := p.site.val
  let c1 := (c.modStr i p.st (fun x => { x with pc := (x.pc + 16) % 2 ^ 48, skipHdr := false })).count (Reg.CORE_SISSUED i (strmNum p.st)) 1
  c1.setCore i { c1.core i with ord := (c.core i).ord + 1 }

/-- What an instruction reads and writes. -/
def reads (x : Xc) (sp : OpSpec) (rs : List Role) : List Span := rs.flatMap x.roleRd ++ (sp.extra x).1
def writes (x : Xc) (sp : OpSpec) (rs : List Role) : List Span := rs.flatMap x.roleWr ++ (sp.extra x).2

/-- An instruction whose checks have passed, and the channel: it is counted, its bytes join the re-run window, and the word after it is
paired with it where it can be (R255, R256, R270). -/
def issued (c : Channel) (sp : OpSpec) (p : Place) (w : IWord) (x : Xc) (rs : List Role) : Channel × Flight :=
  sp.pair { x with c := (counted c p).modStr p.site.val p.st (fun y => y.window sp.opc (iAcc w) (reads x sp rs) (writes x sp rs)) }
    { newFlight x (reads x sp rs) (writes x sp rs) with wrote := sp.writes w }

/-- What its accesses do at the memory controllers: its own, or, paired, those that it reads and its partner's (R270). -/
def reached (c1 : Channel) (x : Xc) (sp : OpSpec) (rs : List Role) (f : Flight) : Xc :=
  match f.mate with
  | none => Xc.memAcc { x with c := c1 } rs (sp.extra x)
  | some m => Xc.memAcc { x with c := c1 } (rs.filter (·.rd)) ((sp.extra x).1 ++ m.rd, (sp.extra x).2 ++ m.wr)

/-- Whether something holds it back: bytes that meet those of an earlier instruction of its stream, its opcode's own rule, or the flash
controller (R123, R140, R264, R293). -/
def heldBack (c : Channel) (sp : OpSpec) (p : Place) (x : Xc) (f : Flight) : Bool :=
  (c.strm p.site.val p.st).flights.any (flightHit f.allRd f.allWr) || sp.block x (c.strm p.site.val p.st).flights || c.memHold f.allRd f.allWr

/-- The stream as it stands after an instruction that wrote only it, and the core with it. -/
def stepped (c : Channel) (p : Place) (x : Stream) : Core :=
  { (c.core p.site.val).setStr p.st x with ord := (c.core p.site.val).ord + 1 }

/-- An instruction of row i, its header wait made or absent, not predicated off, in a run that is no skip run, acts at once on a channel
whose stream holds no earlier instruction and which it does not signal. -/
def Simple (s : State) (sp : OpSpec) (p : Place) (w : IWord) (rc : Rc) (run : RunInfo) : Prop :=
  let c := s.chan p.ch
  MayIssue c p ∧ Good c sp p w ∧ InRun c p rc run ∧ (iWen w = false ∨ (c.strm p.site.val p.st).skipHdr = true) ∧
  predOff (c.strm p.site.val p.st) w = false ∧ (c.strm p.site.val p.st).flights = [] ∧ iSen w = false

end Sys2Proof.Says

/-- A word whose opcode R101 reserves is illegal on every row: the stream stops with INST_ILLEGAL, and nothing else happens. -/
def Sys2Proof.Says.ReservedOpcodeIsIllegal : Prop :=
  ∀ (i : Instr) (p : Place) (sp : OpSpec) (w f : IWord) (s : State), insn i = some (p, sp, w, f) → knownOpc (iOpc w) = false →
    MayIssue (s.chan p.ch) p →
    exec i s = .next (andThen i { s.setChan p.ch ((s.chan p.ch).faultStop p.site.val p.st w ((s.chan p.ch).strm p.site.val p.st).pc fcInstIllegal)
      with free := s.free + 1 })

/-- The checks that come before the header wait, in order: the address of the fetch, the word, the stream. The first that fails stops the
stream with its fault; the program counter stays and nothing else happens. -/
def Sys2Proof.Says.ChecksBeforeIssue : Prop :=
  ∀ (i : Instr) (p : Place) (sp : OpSpec) (w f : IWord) (s : State), insn i = some (p, sp, w, f) → iOpc w = sp.opc →
    let c := s.chan p.ch
    let pc := (c.strm p.site.val p.st).pc
    c.usable p.site.val = true → (c.core p.site.val).quiet = false → (c.strm p.site.val p.st).mayIssue = true →
    ∀ code, (fetchBad p.site.val pc = true ∧ code = fcFetchBad ∨
        fetchBad p.site.val pc = false ∧ (headerOk w && sp.legal w && sp.auxOk (c.descRaw p.site.val) w) = false ∧ code = fcInstIllegal ∨
        fetchBad p.site.val pc = false ∧ (headerOk w && sp.legal w && sp.auxOk (c.descRaw p.site.val) w) = true ∧ sp.streams p.st = false ∧ code = fcInstStream) →
      exec i s = .next (andThen i { s.setChan p.ch (c.faultStop p.site.val p.st w pc code) with free := s.free + 1 })

/-- A fault that stops a stream: one message to the fault unit with the core's node, its owner, the stream and opcode in ARG0 and the
instruction's address in ARG1, and the stream's state FAULT; nothing else changes. -/
def Sys2Proof.Says.FaultStopsStream : Prop :=
  ∀ (c : Channel) (i : Fin 100) (st : Strm) (w : IWord) (pc code : Nat), pc < 2 ^ 48 → code < 256 →
    let d := c.faultStop i.val st w pc code
    d = { c with faultq := d.faultq, cores := d.cores } ∧
    (∃ m, d.faultq = c.faultq ++ [m] ∧ m.node.val = i.val ∧ m.code.toNat = code ∧ m.ctxv = (c.core i.val).owner.isSome ∧
      m.arg0.toNat = strmNum st + 4 * iOpc w ∧ m.arg1.toNat = pc) ∧
    (d.strm i.val st) = { c.strm i.val st with wait := .fault } ∧ (∀ su, su ≠ st → d.strm i.val su = c.strm i.val su) ∧
    ∀ j, j ≠ i.val → d.core j = c.core j

/-- A header wait on a tack whose count is 0, or which an earlier served stream is to take, makes the stream wait and nothing else; with a
count it subtracts 1 and the instruction issues from the new re-run point. -/
def Obligations.HeaderWait : Prop :=
  ∀ (i : Instr) (p : Place) (sp : OpSpec) (w f : IWord) (s : State), insn i = some (p, sp, w, f) →
    let c := s.chan p.ch
    let n := c.tack p.site.val (iWtack w)
    MayIssue c p → Good c sp p w → iWen w = true → (c.strm p.site.val p.st).skipHdr = false →
    exec i s = .next (andThen i { s.setChan p.ch (
        if 1 ≤ n ∧ (c.core p.site.val).servedBefore p.st (iWtack w) n = false then
          ((c.setTack p.site.val (iWtack w) (n - 1)).modStr p.site.val p.st (·.mark (c.core p.site.val).ord true)).issueGo sp p.site.val p.st w f s.free
        else c.modStr p.site.val p.st (fun x => { x with wait := .header w f }))
      with free := s.free + 1 })

/-- A predicated-off instruction issues, is counted, moves the program counter on by 16 and does nothing of its own; in a run in skip mode
an instruction of a class that does not act there does the same and is counted nowhere. -/
def Sys2Proof.Says.PredicatedOffDoesNothing : Prop :=
  ∀ (i : Instr) (p : Place) (sp : OpSpec) (w f : IWord) (rc : Rc) (run : RunInfo) (s : State), insn i = some (p, sp, w, f) →
    let c := s.chan p.ch
    let idle (d : Channel) : Prop := exec i s = .next (andThen i { s.setChan p.ch (d.launch p.site.val p.st
      { newFlight { seen c sp p w f rc run s.free with snap := [] } [] [] with act := false }) with free := s.free + 1 })
    MayIssue c p → Good c sp p w → InRun c p rc run → (iWen w = false ∨ (c.strm p.site.val p.st).skipHdr = true) →
    (predOff (c.strm p.site.val p.st) w = true → (run.skip = false ∨ actsInSkip sp.opc = true) → idle (counted c p)) ∧
    (run.skip = true → actsInSkip sp.opc = false → idle (passed c p))

/-- The order of R126 for every instruction row: DESC_BAD before ADDR_BAD before the opcode's own checks before its operation. -/
def Sys2Proof.Says.OperandFaultOrder : Prop :=
  ∀ (i : Instr) (p : Place) (sp : OpSpec) (w f : IWord) (rc : Rc) (run : RunInfo) (s : State), insn i = some (p, sp, w, f) →
    let c := s.chan p.ch
    let x := seen c sp p w f rc run s.free
    let rs := sp.roles (c.descRaw p.site.val) w
    MayIssue c p → Good c sp p w → InRun c p rc run → (iWen w = false ∨ (c.strm p.site.val p.st).skipHdr = true) →
    predOff (c.strm p.site.val p.st) w = false → (run.skip = false ∨ actsInSkip sp.opc = true) →
    ∀ code, (x.descBadAny rs = true ∧ code = fcDescBad ∨
        x.descBadAny rs = false ∧ x.addrBadAny rs (sp.extra x) = true ∧ code = fcAddrBad ∨
        x.descBadAny rs = false ∧ x.addrBadAny rs (sp.extra x) = false ∧ sp.bad x = some code) →
      exec i s = .next (andThen i { s.setChan p.ch (c.faultStop p.site.val p.st w x.pc code) with free := s.free + 1 })

/-- Every instruction whose checks pass and which nothing holds back runs: it is counted, the program counter moves on, the word after it
joins it where the two pair, the memory controllers see its accesses, its operation acts on the channel, and its stream takes it up among
the instructions that have issued. On the U stream a write of a version that an E run reads waits instead (R78). -/
def Obligations.InstructionRuns : Prop :=
  ∀ (i : Instr) (p : Place) (sp : OpSpec) (w f : IWord) (rc : Rc) (run : RunInfo) (s : State), insn i = some (p, sp, w, f) →
    let c := s.chan p.ch
    let x := seen c sp p w f rc run s.free
    let rs := sp.roles (c.descRaw p.site.val) w
    let g := issued c sp p w x rs
    let y := reached g.1 x sp rs g.2
    MayIssue c p → Good c sp p w → InRun c p rc run → (iWen w = false ∨ (c.strm p.site.val p.st).skipHdr = true) →
    predOff (c.strm p.site.val p.st) w = false → (run.skip = false ∨ actsInSkip sp.opc = true) →
    x.descBadAny rs = false → x.addrBadAny rs (sp.extra x) = false → sp.bad x = none → sp.noop x = none →
    g.2.ph ≠ .stopped → heldBack c sp p x g.2 = false → sp.zero { x with c := g.1 } = false →
    (y.versionHeld sp.opc rs = false →
      exec i s = .next (andThen i { s.setChan p.ch ((sp.run y g.2).1.launch p.site.val p.st (sp.run y g.2).2) with free := s.free + 1 })) ∧
    (y.versionHeld sp.opc rs = true →
      exec i s = .next (andThen i { s.setChan p.ch (y.c.launch p.site.val p.st { g.2 with ph := .version }) with free := s.free + 1 }))

/-- An instruction on a zero shape does what its opcode does there and counts in CORE_ZEROOP. -/
def Sys2Proof.Says.ZeroShapeCounts : Prop :=
  ∀ (i : Instr) (p : Place) (sp : OpSpec) (w f : IWord) (rc : Rc) (run : RunInfo) (s : State), insn i = some (p, sp, w, f) →
    let c := s.chan p.ch
    let x := seen c sp p w f rc run s.free
    let rs := sp.roles (c.descRaw p.site.val) w
    let g := issued c sp p w x rs
    let r := sp.zeroRun { x with c := g.1 } g.2
    MayIssue c p → Good c sp p w → InRun c p rc run → (iWen w = false ∨ (c.strm p.site.val p.st).skipHdr = true) →
    predOff (c.strm p.site.val p.st) w = false → (run.skip = false ∨ actsInSkip sp.opc = true) →
    x.descBadAny rs = false → x.addrBadAny rs (sp.extra x) = false → sp.bad x = none → sp.noop x = none →
    g.2.ph ≠ .stopped → heldBack c sp p x g.2 = false → sp.zero { x with c := g.1 } = true →
    exec i s = .next (andThen i { s.setChan p.ch ((r.1.count (Reg.CORE_ZEROOP p.site.val) 1).launch p.site.val p.st r.2) with free := s.free + 1 })

/-- An instruction whose bytes meet those of an earlier one of its stream, or which its opcode or the flash controller holds back, waits:
nothing of it acts. One whose pair the checks of the following word stop does not act either. -/
def Sys2Proof.Says.HazardWaits : Prop :=
  ∀ (i : Instr) (p : Place) (sp : OpSpec) (w f : IWord) (rc : Rc) (run : RunInfo) (s : State), insn i = some (p, sp, w, f) →
    let c := s.chan p.ch
    let x := seen c sp p w f rc run s.free
    let rs := sp.roles (c.descRaw p.site.val) w
    let g := issued c sp p w x rs
    let out (h : Flight) : Prop := exec i s = .next (andThen i { s.setChan p.ch (g.1.launch p.site.val p.st h) with free := s.free + 1 })
    MayIssue c p → Good c sp p w → InRun c p rc run → (iWen w = false ∨ (c.strm p.site.val p.st).skipHdr = true) →
    predOff (c.strm p.site.val p.st) w = false → (run.skip = false ∨ actsInSkip sp.opc = true) →
    x.descBadAny rs = false → x.addrBadAny rs (sp.extra x) = false → sp.bad x = none → sp.noop x = none →
    (g.2.ph = .stopped → out g.2) ∧
    (g.2.ph ≠ .stopped → heldBack c sp p x g.2 = true → out { g.2 with ph := .hazard, partner := some f })

/-- Instructions that issue without acting: predicated off or of a class that does not act in a skip run, on a zero shape, or held back by an earlier one. -/
def Obligations.IdleInstructions : Prop := Says.PredicatedOffDoesNothing ∧ Says.ZeroShapeCounts ∧ Says.HazardWaits

/-- NOP, JUMP, LSET, LOOP and FSET, each with no earlier instruction in flight: what becomes of the program counter, the loop counters and
the flags; the instruction is counted, and nothing else of the channel, memory included, changes. -/
def Obligations.ControlInstructions : Prop :=
  ∀ (p : Place) (w : IWord) (rc : Rc) (run : RunInfo) (s : State),
    let c := s.chan p.ch
    let x := c.strm p.site.val p.st
    let y := { x with pc := (x.pc + 16) % 2 ^ 48, skipHdr := false, rerun := x.rerun && decide (x.winRd.length ≤ 32) }
    let out (i : Instr) (z : Stream) : Prop := ∃ d, LeavesF 1 i s p.ch d ∧
      RegsCore [Reg.CORE_SISSUED p.site.val (strmNum p.st)] p.site.val (stepped c p z) c d ∧
      Counted (Reg.CORE_SISSUED p.site.val (strmNum p.st)) 1 c d
    (Simple s specNop p w rc run → out (.nop p w) y) ∧
    (Simple s specJump p w rc run → out (.jump p w) { y with pc := unsigned 48 ((x.pc : Int) + 16 * iOff w) }) ∧
    (Simple s specLset p w rc run → out (.lset p w) { y with lc := setNth x.lc (iLc w) (iImm w) }) ∧
    (Simple s specLoop p w rc run → x.lc.length = 4 → nth 0 x.lc (iLc w) = 0 → out (.loop p w) y) ∧
    (Simple s specLoop p w rc run → x.lc.length = 4 → nth 0 x.lc (iLc w) = 1 → out (.loop p w) { y with lc := setNth x.lc (iLc w) 0 }) ∧
    (Simple s specLoop p w rc run → x.lc.length = 4 → 1 < nth 0 x.lc (iLc w) →
      out (.loop p w) { y with lc := setNth x.lc (iLc w) (nth 0 x.lc (iLc w) - 1), pc := unsigned 48 ((x.pc : Int) + 16 * iOff w) }) ∧
    (Simple s specFset p w rc run → out (.fset p w) { y with cf := setBits x.cf (iCfn w) 1 (b2n (bit (iImm w) 0)) })

/-- TWAIT, TSIG, TSET, RSIG and DRAIN with no earlier instruction in flight. -/
def Sys2Proof.Says.SyncInstructions : Prop :=
  ∀ (p : Place) (w : IWord) (rc : Rc) (run : RunInfo) (s : State),
    let c := s.chan p.ch
    let i := p.site.val
    let x := c.strm i p.st
    let t := iTack w
    let n := c.tack i t
    let cnt := Reg.CORE_SISSUED i (strmNum p.st)
    let next (d : Channel) : Prop := (d.strm i p.st).pc = (x.pc + 16) % 2 ^ 48 ∧ (d.strm i p.st).lc = x.lc ∧ (d.strm i p.st).cf = x.cf ∧
      ∀ su, su ≠ p.st → d.strm i su = c.strm i su
    let rest (l : List Nat) (d : Channel) : Prop := d = { c with regs := d.regs, cores := d.cores } ∧ (∀ j, j ≠ i → d.core j = c.core j) ∧
      (∀ a, a ≠ cnt → a ∉ l → d.rd a = c.rd a) ∧ Counted cnt 1 c d
    (Simple s specTwait p w rc run → 1 ≤ iValue w → iValue w ≤ n → (c.core i).servedBefore p.st t n = false →
      ∃ d, LeavesF 1 (.twait p w) s p.ch d ∧ rest [Reg.CORE_TACK i t] d ∧ next d ∧ d.tack i t = n - iValue w ∧
        FieldsBut (Reg.CORE_TACK i t) Fl.CORE_TACK_COUNT c d ∧ (d.strm i p.st).wait = .none ∧
        (d.strm i p.st).flights = []) ∧
    (Simple s specTwait p w rc run → iValue w = 0 →
      ∃ d, LeavesF 1 (.twait p w) s p.ch d ∧ rest [] d ∧ next d ∧ (d.strm i p.st).wait = .none ∧ (d.strm i p.st).flights = []) ∧
    (Simple s specTwait p w rc run → 1 ≤ iValue w → (n < iValue w ∨ (c.core i).servedBefore p.st t n = true) →
      ∃ d, LeavesF 1 (.twait p w) s p.ch d ∧ rest [] d ∧ next d ∧ (d.strm i p.st).wait = .tack w) ∧
    (Simple s specTsig p w rc run → n + iValue w ≤ 0xFFFF →
      ∃ d, LeavesF 1 (.tsig p w) s p.ch d ∧ rest [Reg.CORE_TACK i t] d ∧ next d ∧ d.tack i t = n + iValue w ∧
        FieldsBut (Reg.CORE_TACK i t) Fl.CORE_TACK_COUNT c d ∧ (d.strm i p.st).flights = []) ∧
    (Simple s specTset p w rc run → (c.core i).waitsOn t = false →
      ∃ d, LeavesF 1 (.tset p w) s p.ch d ∧ rest [Reg.CORE_TACK i t] d ∧ next d ∧ d.tack i t = iValue w ∧
        FieldsBut (Reg.CORE_TACK i t) Fl.CORE_TACK_COUNT c d) ∧
    (Simple s specTset p w rc run → (c.core i).waitsOn t = true →
      ∃ d, LeavesF 1 (.tset p w) s p.ch d ∧ rest [Reg.CORE_NOOPST i] d ∧ next d ∧ Counted (Reg.CORE_NOOPST i) 1 c d) ∧
    (Simple s specRsig p w rc run → (c.core i).peers.testBit (iSite w) = true → c.usable (iSite w) = true →
      ∃ d, LeavesF 1 (.rsig p w) s p.ch d ∧ d = { c with regs := d.regs, cores := d.cores, cmsgs := c.cmsgs ++ [rsigMsg c i w] } ∧
        (∀ a, a ≠ cnt → d.rd a = c.rd a) ∧ Counted cnt 1 c d ∧ next d) ∧
    (Simple s specRsig p w rc run → ((c.core i).peers.testBit (iSite w) && c.usable (iSite w)) = false →
      ∃ d, LeavesF 1 (.rsig p w) s p.ch d ∧ rest [Reg.CORE_NOOPST i] d ∧ next d ∧ Counted (Reg.CORE_NOOPST i) 1 c d) ∧
    (Simple s specDrain p w rc run →
      ∃ d, LeavesF 1 (.drain p w) s p.ch d ∧ rest [] d ∧ next d ∧ (d.strm i p.st).flights = [])

/-- END with no earlier instruction in flight: the stream has no run any more and its run context is free; then whoever waits in the core
is tried again. -/
def Sys2Proof.Says.EndRetiresRun : Prop :=
  ∀ (p : Place) (w : IWord) (rc : Rc) (run : RunInfo) (s : State), Simple s specEnd p w rc run →
    let c := s.chan p.ch
    ∃ d, exec (.endRun p w) s = .next (State.atStream { s.setChan p.ch d with free := s.free + 1 } p (fun c _ => c)) ∧
      (d.strm p.site.val p.st).run = none ∧ (d.core p.site.val).rcOf rc = none ∧ d.mem = c.mem ∧
      (∀ j, j ≠ p.site.val → d.core j = c.core j) ∧
      (run.kind = .e → (c.core p.site.val).hist = [] →
        (run.skip = false → Counted (Reg.CORE_FILLRUN p.site.val) 1 c d ∧ d.rd (Reg.CORE_FILLSKIP p.site.val) = c.rd (Reg.CORE_FILLSKIP p.site.val)) ∧
        (run.skip = true → Counted (Reg.CORE_FILLSKIP p.site.val) 1 c d ∧ d.rd (Reg.CORE_FILLRUN p.site.val) = c.rd (Reg.CORE_FILLRUN p.site.val)))

/-- TWAIT, TSIG, TSET, RSIG, DRAIN and END, each with no earlier instruction in flight. -/
def Obligations.SyncAndEnd : Prop := Says.SyncInstructions ∧ Says.EndRetiresRun

/-- DSET, DLOAD from a scratchpad, bobbin, the tier or LPDDR5X, and DSHAPE on an immediate write the descriptor table and nothing else; FTEST's ZERO sets its flag by whether an extent is 0. -/
def Obligations.DescriptorInstructions : Prop :=
  ∀ (p : Place) (w : IWord) (rc : Rc) (run : RunInfo) (s : State),
    let c := s.chan p.ch
    let i := p.site.val
    let x := c.strm i p.st
    let cnt := Reg.CORE_SISSUED i (strmNum p.st)
    let next (d : Channel) : Prop := (d.strm i p.st).pc = (x.pc + 16) % 2 ^ 48 ∧ (d.strm i p.st).lc = x.lc ∧
      d = { c with regs := d.regs, cores := d.cores } ∧ (∀ j, j ≠ i → d.core j = c.core j)
    (Simple s specDset p w rc run →
      ∃ d, LeavesF 1 (.dset p w) s p.ch d ∧ next d ∧ (d.strm i p.st).cf = x.cf ∧
        d.rd (Reg.CORE_DESC i (iDidx w) (iWord w)) = iVal64 w % 2 ^ 32 ∧ d.rd (Reg.CORE_DESC i (iDidx w) (iWord w) + 4) = iVal64 w / 2 ^ 32 % 2 ^ 32 ∧
        ∀ a, a ≠ cnt → a ≠ Reg.CORE_DESC i (iDidx w) (iWord w) → a ≠ Reg.CORE_DESC i (iDidx w) (iWord w) + 4 → d.rd a = c.rd a) ∧
    (Simple s specDload p w rc run → c.addrBad (c.core i).owner ⟨iVal64 w, 64 * (iDsrc w + 1)⟩ = false → iVal64 w < flashBase →
      c.fencedWindow (iVal64 w) = false →
      ∃ d, LeavesF 1 (.dload p w) s p.ch d ∧ next d ∧ (d.strm i p.st).cf = x.cf ∧
        (∀ n k, n ≤ iDsrc w → k < 16 → d.rd (Reg.CORE_DESC i (iDidx w + n) 0 + 4 * k) = c.ldN (iVal64 w + 64 * n + 4 * k) 4) ∧
        ∀ a, a ≠ cnt → ¬ (Reg.CORE_DESC i (iDidx w) 0 ≤ a ∧ a < Reg.CORE_DESC i (iDidx w) 0 + 64 * (iDsrc w + 1)) → d.rd a = c.rd a) ∧
    (Simple s specDshape p w rc run → iFrom w = false → b2n (iSel w) < (dVars (c.descRaw i (iDidx w))).length →
      ∃ d, LeavesF 1 (.dshape p w) s p.ch d ∧ next d ∧ (d.strm i p.st).cf = x.cf ∧
        d.rd (Reg.CORE_DESC i (iDidx w) 6) + d.rd (Reg.CORE_DESC i (iDidx w) 6 + 4) * 2 ^ 32 =
          setBits (bits (c.descRaw i (iDidx w)) 384 64) (if iSel w then 25 else 0) 25 (min (iImm w) 0x1FF_FFFF) ∧
        ∀ a, a ≠ cnt → a ≠ Reg.CORE_DESC i (iDidx w) 6 → a ≠ Reg.CORE_DESC i (iDidx w) 6 + 4 → d.rd a = c.rd a) ∧
    (Simple s specDshape p w rc run → iFrom w = false → (dVars (c.descRaw i (iDidx w))).length ≤ b2n (iSel w) →
      ∃ d, LeavesF 1 (.dshape p w) s p.ch d ∧ next d ∧ Counted (Reg.CORE_NOOPST i) 1 c d ∧ ∀ a, a ≠ cnt → a ≠ Reg.CORE_NOOPST i → d.rd a = c.rd a) ∧
    (Simple s specFtest p w rc run → iCmp w = 6 → descBad (c.descRaw i (iFdidx w)) (c.descRaw i (dSpidx (c.descRaw i (iFdidx w)))) false = false →
      (let o : Opd := ⟨c.descRaw i (iFdidx w), run.mb, c.blkOf i, run.press⟩
       o.spans.any (fun s => c.addrBad (c.core i).owner s) = false) →
      ∃ d, LeavesF 1 (.ftest p w) s p.ch d ∧ next d ∧
        (d.strm i p.st).cf = setBits x.cf (iCfn w) 1 (b2n ((List.range (dNdim (c.descRaw i (iFdidx w)))).any (fun k => dExt (c.descRaw i (iFdidx w)) k == 0))) ∧
        ∀ a, a ≠ cnt → d.rd a = c.rd a)

namespace Sys2Proof.Says

/-- The matrix rows, with what they find in the core's own structures. -/
def matrixRow (p : Place) (w f : IWord) (e : CoreErr) : Nat → Instr
  | 0 => .matmul p w f e
  | 1 => .matmulS24 p w f e
  | 2 => .matmulBsp p w f e
  | 3 => .conv1 p w f e
  | _ => .gathermm p w f e

end Sys2Proof.Says

/-- A matrix row that meets an error in the core's own structures: a corrected one is counted and the instruction issues as without it; an uncorrectable one
is raised as CORE_LOGIC and stops the stream. A core out of service issues nothing. -/
def Sys2Proof.Says.MatrixErrors : Prop :=
  ∀ (p : Place) (w f : IWord) (j : Fin 5) (which : Fin 5) (entry : BitVec 32) (e : CoreErr) (s : State),
    let c := s.chan p.ch
    let i := p.site.val
    (c.usable i = true →
      (∃ d, Regs [Reg.FLT_CORECORR] c d ∧ Counted Reg.FLT_CORECORR 1 c d ∧
        exec (matrixRow p w f .single j.val) s = exec (matrixRow p w f .clean j.val) (s.setChan p.ch d)) ∧
      ∃ d m, Leaves (matrixRow p w f (.double which entry) j.val) s p.ch d ∧ m.code.toNat = fcCoreLogic ∧ m.node.val = i ∧ m.arg0.toNat = which.val ∧
        RegsCore [] i ((c.core i).setStr p.st { c.strm i p.st with wait := .fault }) { c with faultq := c.faultq ++ [m] } d) ∧
    (c.usable i = false → exec (matrixRow p w f e j.val) s = .next s)

/-- The checks of R126 in their order, from the fetch to the opcode's own: the first that fails stops the stream with its fault and does nothing else; so does an uncorrectable error in the core's own structures. -/
def Obligations.IllegalInstructions : Prop := Says.ReservedOpcodeIsIllegal ∧ Says.ChecksBeforeIssue ∧ Says.OperandFaultOrder ∧ Says.FaultStopsStream ∧ Says.MatrixErrors

/-! ### Streams and runs -/

namespace Sys2Proof.Says

/-- A command at a stream: channel p.ch becomes what follows of itself from d (completion in order, hazards that have gone, frames that can
move), and 128 of the counter of free values are used. -/
def LeavesS (i : Instr) (s : State) (p : Place) (d : Channel) : Prop :=
  exec i s = .next { s.setChan p.ch (d.after p.site.val p.st (s.free + 1)) with free := s.free + 128 }

/-- No part of c changes but registers and core i; of core i every stream but st stays. -/
def OneStream (i : Nat) (st : Strm) (l : List Nat) (c d : Channel) : Prop :=
  d = { c with regs := d.regs, cores := d.cores } ∧ (∀ j, j ≠ i → d.core j = c.core j) ∧ (∀ su, su ≠ st → d.strm i su = c.strm i su) ∧
  ∀ a, a ∉ l → d.rd a = c.rd a

end Sys2Proof.Says

/-- TACK_WAIT_DONE: a stream whose tack has come subtracts what it waited for and issues on; a header wait issues its instruction. A stream
that waits on no tack, or whose count has not come, stays as it is. -/
def Sys2Proof.Says.TackWaitEnds : Prop :=
  ∀ (p : Place) (s : State),
    let c := s.chan p.ch
    let i := p.site.val
    let x := c.strm i p.st
    c.usable i = true →
    (∀ w, x.wait = .tack w → iValue w ≤ c.tack i (iTack w) → (c.core i).servedBefore p.st (iTack w) (c.tack i (iTack w)) = false →
      ∃ d, LeavesS (.tackWaitDone p) s p d ∧ OneStream i p.st [Reg.CORE_TACK i (iTack w)] c d ∧
        d.tack i (iTack w) = c.tack i (iTack w) - iValue w ∧ FieldsBut (Reg.CORE_TACK i (iTack w)) Fl.CORE_TACK_COUNT c d ∧
        (d.strm i p.st).wait = .none ∧ (d.strm i p.st).pc = x.pc ∧ (d.strm i p.st).rePc = x.pc ∧
        (d.strm i p.st).flights = x.flights.map (fun f => if f.ph = .tack then { f with ph := .done } else f)) ∧
    (∀ w f, x.wait = .header w f → 1 ≤ c.tack i (iWtack w) → (c.core i).servedBefore p.st (iWtack w) (c.tack i (iWtack w)) = false →
      LeavesS (.tackWaitDone p) s p
        (((c.setTack i (iWtack w) (c.tack i (iWtack w) - 1)).modStr i p.st (fun y => Stream.mark { y with wait := .none } (c.core i).ord true)).issueGo
          (specOf (iOpc w)) i p.st w f s.free)) ∧
    (∀ t v, x.tackWait = some (t, v) → c.tack i t < v ∨ (c.core i).servedBefore p.st t (c.tack i t) = true → LeavesS (.tackWaitDone p) s p c) ∧
    (x.tackWait = none → LeavesS (.tackWaitDone p) s p c)

/-- INSTRUCTION_COMPLETE: the instruction at the head of a stream completes once what it writes is stored and its lines have arrived; its
header signal then adds 1 to its tack; TSIG's and SNAP's effects come with their completion. -/
def Obligations.HeadCompletes : Prop :=
  ∀ (p : Place) (f : Flight) (t : List Flight) (s : State),
    let c := s.chan p.ch
    let i := p.site.val
    c.usable i = true → (c.strm i p.st).flights = f :: t → f.ph = .done → c.qlines.any (fun e => e.src == i && e.ord == f.ord) = false →
    (iOpc f.w ∉ [0x001, 0x041, 0x043, 0x206] ∨ f.act = false → iSen f.w = false →
      ∃ d, LeavesS (.instructionComplete p) s p d ∧ OneStream i p.st [] c d ∧ d.strm i p.st = { c.strm i p.st with flights := t }) ∧
    (iOpc f.w ∉ [0x001, 0x041, 0x043, 0x206] ∨ f.act = false → iSen f.w = true → c.tack i (iStack f.w) < 0xFFFF →
      ∃ d, LeavesS (.instructionComplete p) s p d ∧ OneStream i p.st [Reg.CORE_TACK i (iStack f.w)] c d ∧
        d.tack i (iStack f.w) = c.tack i (iStack f.w) + 1 ∧ d.strm i p.st = { c.strm i p.st with flights := t, rerun := (c.strm i p.st).rerun && decide (f.ord < (c.strm i p.st).reOrd) }) ∧
    (iOpc f.w = 0x041 → f.act = true → iSen f.w = false → c.tack i (iTack f.w) + iValue f.w ≤ 0xFFFF →
      ∃ d, LeavesS (.instructionComplete p) s p d ∧ OneStream i p.st [Reg.CORE_TACK i (iTack f.w)] c d ∧
        d.tack i (iTack f.w) = c.tack i (iTack f.w) + iValue f.w) ∧
    (iOpc f.w = 0x206 → f.act = true → iSen f.w = false →
      ∃ d, LeavesS (.instructionComplete p) s p d ∧ OneStream i p.st [Reg.CORE_SNAPS i] c d ∧ Counted (Reg.CORE_SNAPS i) 1 c d)

/-- A count that would pass 0xFFFF stays there and raises TACK_OVF. -/
def Sys2Proof.Says.TackOverflow : Prop :=
  ∀ (c : Channel) (i : Fin 100) (t v a b : Nat), t < 64 → 0xFFFF < c.tack i.val t + v →
    let d := c.tackAdd i.val t v a b
    d.tack i.val t = 0xFFFF ∧ d = { c with regs := d.regs, faultq := c.faultq ++ [mkFault i.val fcTackOvf (c.core i.val).owner a b] } ∧
    ∀ r, r ≠ Reg.CORE_TACK i.val t → d.rd r = c.rd r

/-- The end of a wait on a tack, and a tack's overflow. -/
def Obligations.TackWaits : Prop := Says.TackWaitEnds ∧ Says.TackOverflow

/-- RUN_BEGIN: the next entry of the run list starts its stream with the context's epoch and press, in a free run context; the entry of the U
program ends the walk; without a step, with a run of F or B going on or the list at its end, nothing begins. -/
def Sys2Proof.Says.RunBegins : Prop :=
  ∀ (ch : Chan) (site : Site) (s : State),
    let c := s.chan ch
    let i := site.val
    let k := c.core i
    let n : Nat := match k.pos with | some q => q + 1 | none => 0
    let e := nth 3 k.runList n
    let ended : Bool := match k.pos with | some q => entryKind (nth 3 k.runList q) == 3 | none => false
    let b := decide (entryKind e = 1)
    let st : Strm := if b then .b else .f
    c.usable i = true → ∀ x, k.owner = some x →
    (c.ctxState x = ctxStep ∨ c.ctxState x = ctxReady ∧ k.pos.isSome → ended = false → n < k.runList.length → k.f.run = none → k.b.run = none →
      (entryKind e ≠ 3 → ∀ rc, (rc = .r0 ∧ k.rc0 = none ∨ rc = .r1 ∧ k.rc0.isSome ∧ k.rc1 = none) →
        ∃ d info, Leaves (.runBegin ch site) s ch d ∧ d = { c with cores := d.cores } ∧ (∀ j, j ≠ i → d.core j = c.core j) ∧
          (d.core i).pos = some n ∧ (d.core i).rcOf rc = some info ∧ info.config = c.config x ∧ info.press = c.press x ∧
          info.kind = (match entryKind e with | 0 => .f | 1 => .b | _ => .e) ∧ (entryKind e ≠ 2 → info.mb = entryMb e) ∧
          (d.strm i st).run = some rc ∧ (d.strm i st).pc = (if b then k.bIp else k.fIp) ∧ (d.strm i st).lc = [0, 0, 0, 0] ∧
          (d.strm i st).cf = startFlags info.kind (decide (info.mb + 1 = c.mbs x)) ∧ (d.strm i st).wait = .none ∧
          d.strm i (if b then .f else .b) = c.strm i (if b then .f else .b)) ∧
      (entryKind e = 3 → k.again = false →
        ∃ d, Leaves (.runBegin ch site) s ch d ∧ d = { c with cores := d.cores } ∧ (∀ j, j ≠ i → d.core j = c.core j) ∧
          d.core i = { k with pos := some n })) ∧
    (c.ctxState x = ctxEmpty ∨ c.ctxState x = ctxRinse ∨ ended = true ∨ k.runList.length ≤ n ∨ k.f.run.isSome ∨ k.b.run.isSome →
      Leaves (.runBegin ch site) s ch c)

/-- U_STREAM_START: once no B run of the step is left, the U stream starts at its entry with CF7 set, the norm accumulator at zero and the clip
factor at one; while a B run is left nothing starts. -/
def Sys2Proof.Says.UStreamStarts : Prop :=
  ∀ (ch : Chan) (site : Site) (x q : Nat) (s : State),
    let c := s.chan ch
    let i := site.val
    let k := c.core i
    c.usable i = true → k.owner = some x → k.pos = some q →
    (c.ctxState x = ctxStep → k.again = false → k.uStarted = false → (k.runList.drop (q + 1)).any (fun e => entryKind e == 1) = false →
      k.b.run = none →
      ∃ d, Leaves (.uStreamStart ch site) s ch d ∧ d = { c with regs := d.regs, cores := d.cores } ∧ (∀ j, j ≠ i → d.core j = c.core j) ∧
        (d.strm i .u).pc = k.uIp ∧ (d.strm i .u).run = some .u ∧ (d.strm i .u).cf = 0x80 ∧ (d.core i).uStarted = true ∧
        (d.core i).rcU = some ⟨.u, 0, c.config x, c.press x, false, false, 0⟩ ∧ d.rd (Reg.CORE_CLIP i) = fone ∧ d.normAcc i = czero ∧
        d.strm i .f = c.strm i .f ∧ d.strm i .b = c.strm i .b) ∧
    ((k.runList.drop (q + 1)).any (fun e => entryKind e == 1) = true ∨ k.b.run.isSome → Leaves (.uStreamStart ch site) s ch c)

/-- Runs of the run list and of the U program begin when, and as, the step says. -/
def Obligations.RunsStart : Prop := Says.RunBegins ∧ Says.UStreamStarts

/-- VERSION_WAIT_END and BUCKET_SLOT_FREE: the last instruction of a stream, held in the named wait, runs again; while an E run still reads
the buffer that it writes, and in another wait, nothing moves. -/
def Sys2Proof.Says.HeldInstructionRuns : Prop :=
  ∀ (p : Place) (early : List Flight) (f : Flight) (s : State),
    let c := s.chan p.ch
    let i := p.site.val
    let go (st : Strm) : Channel :=
      let sp := specOf (iOpc f.w)
      let x := c.againXc i st early f s.free
      let r := if sp.zero x then sp.zeroRun x { f with ph := .done } else sp.run x { f with ph := .done }
      r.1.launch i st r.2
    c.usable i = true → ((c.core i).rcOf f.rc).isSome = true →
    let held := (c.flightXc i .u f s.free).versionHeld (iOpc f.w) ((specOf (iOpc f.w)).roles (c.flightXc i .u f s.free).desc f.w)
    (p.st = .u → (c.strm i .u).flights = early ++ [f] → f.ph = .version → held = false → LeavesS (.versionWaitEnd p.ch p.site) s p (go .u)) ∧
    (p.st = .u → (c.strm i .u).flights = early ++ [f] → held = true → LeavesS (.versionWaitEnd p.ch p.site) s p c) ∧
    ((c.strm i p.st).flights = early ++ [f] → f.ph = .slot → LeavesS (.bucketSlotFree p) s p (go p.st)) ∧
    (p.st = .u → (c.strm i .u).flights = early ++ [f] → f.ph ≠ .version → LeavesS (.versionWaitEnd p.ch p.site) s p c) ∧
    ((c.strm i p.st).flights = early ++ [f] → f.ph ≠ .slot → LeavesS (.bucketSlotFree p) s p c)

/-- SLAB_ENTER, BOBBIN_DRAIN and BOBBIN_WAIT_END move the first instruction of the stream that can move, which for a drain may be one that a
fault has stopped (R154); without one nothing moves. An uncorrectable error in the core's own structures keeps the slab out and is reported;
a stopped clock keeps it out too. -/
def Sys2Proof.Says.SlabsAndDrains : Prop :=
  ∀ (p : Place) (pre post : List Flight) (f f1 : Flight) (c1 : Channel) (ecc : List (Fin 4096 × Ecc)) (s : State),
    let c := s.chan p.ch
    let i := p.site.val
    let x := c.flightXc i p.st f s.free
    let found := ecc.map (fun e => (e.1.val, e.2))
    let put : Channel := c1.putStep i p.st pre.length f1
    c.usable i = true →
    ((c.strm i p.st).flights = pre ++ f :: post →
      ((∀ g ∈ pre, g.ph ≠ .walk) → f.ph = .walk → c.arrayGated i = false →
        (if isAttn (iOpc f.w) then x.attStep c f found else x.mmStep c f found) = some (c1, f1) → LeavesS (.slabEnter p .clean ecc) s p put) ∧
      ((∀ g ∈ pre, g.ph ≠ .walk ∧ g.ph ≠ .stopped) → f.ph = .walk ∨ f.ph = .stopped →
        (if isAttn (iOpc f.w) then x.attDrain c f found else x.mmDrain c f (f.takes post.head?) found) = some (c1, f1) →
        LeavesS (.bobbinDrain p ecc) s p put) ∧
      ((∀ g ∈ pre, g.ph ≠ .bobbins) → f.ph = .bobbins →
        (if isAttn (iOpc f.w) then x.attStart c f else if iOpc f.w = 0x180 then specReduce.run x f else x.mmStart c f) = (c1, f1) →
        LeavesS (.bobbinWaitEnd p) s p put)) ∧
    ((∀ g ∈ (c.strm i p.st).flights, g.ph ≠ .walk) → LeavesS (.slabEnter p .clean ecc) s p c) ∧
    ((∀ g ∈ (c.strm i p.st).flights, g.ph ≠ .walk ∧ g.ph ≠ .stopped) → LeavesS (.bobbinDrain p ecc) s p c) ∧
    ((∀ g ∈ (c.strm i p.st).flights, g.ph ≠ .bobbins) → LeavesS (.bobbinWaitEnd p) s p c) ∧
    (c.arrayGated i = true → LeavesS (.slabEnter p .clean ecc) s p c) ∧
    ∀ (which : Fin 5) (e : BitVec 32), ∃ d, LeavesS (.slabEnter p (.double which e) ecc) s p d ∧
      d = { c with faultq := c.faultq ++ [mkFault i fcCoreLogic (c.core i).owner which.val e.toNat] }

/-- Instructions that issued go on: those held in a named wait, slabs into the array, bobbins out of it, those that waited for bobbins. -/
def Obligations.HeldAndMovingInstructions : Prop := Says.HeldInstructionRuns ∧ Says.SlabsAndDrains

/-- PARITY_RERUN and SUBPORT_READ_REPEAT: the error is counted and recorded; a window that can run again does, from its re-run point, also where its
run's END has issued; one that cannot stops its stream with SP_PARITY; a stream that has nothing in progress is charged with none. -/
def Sys2Proof.Says.ParityErrors : Prop :=
  ∀ (p : Place) (word : Fin 524288) (s : State),
    let c := s.chan p.ch
    let i := p.site.val
    let x := c.strm i p.st
    let a := Reg.CORE_SPPADDR i
    let armed := c.fld a Fl.CORE_SPPADDR_ARMED = 1 ∧ c.fld a Fl.CORE_SPPADDR_WORD = word.val
    c.usable i = true →
    (x.run.isSome ∨ x.flights ≠ [] → x.rerun = true → ¬ armed → (c.core i).reruns < 16 →
      ∃ d, LeavesS (.parityRerun p word) s p d ∧ OneStream i p.st [Reg.CORE_SPPAR i, a, Reg.CORE_SPRERUN i] c d ∧
        Counted (Reg.CORE_SPPAR i) 1 c d ∧ Counted (Reg.CORE_SPRERUN i) 1 c d ∧ (d.core i).reruns = (c.core i).reruns + 1 ∧
        d.fld a Fl.CORE_SPPADDR_ARMED = 1 ∧ d.fld a Fl.CORE_SPPADDR_WORD = word.val ∧ d.fld a Fl.CORE_SPPADDR_VALID = 1 ∧
        (d.strm i p.st).pc = x.rePc ∧ (d.strm i p.st).lc = x.reLc ∧ (d.strm i p.st).wait = .none ∧
        (d.strm i p.st).flights = x.flights.filter (fun f => decide (f.ord < x.reOrd))) ∧
    (x.run = none → x.flights = [] → LeavesS (.parityRerun p word) s p c) ∧
    (x.run.isSome ∨ x.flights ≠ [] → (x.rerun = false ∨ armed ∨ 16 ≤ (c.core i).reruns) →
      ∃ d m, LeavesS (.parityRerun p word) s p d ∧ Counted (Reg.CORE_SPPAR i) 1 c d ∧ d.faultq = c.faultq ++ [m] ∧
        m.code.toNat = fcSpParity ∧ m.node.val = i ∧ d.strm i p.st = { x with wait := .fault } ∧ d.fld a Fl.CORE_SPPADDR_VALID = 1 ∧ d.mem = c.mem) ∧
    (∃ d, Leaves (.subportReadRepeat p.ch p.site word false) s p.ch d ∧ Regs [Reg.CORE_SPPAR i, a] c d ∧ Counted (Reg.CORE_SPPAR i) 1 c d ∧
      d.fld a Fl.CORE_SPPADDR_VALID = 1 ∧
      (c.fld a Fl.CORE_SPPADDR_VALID = 0 → d.fld a Fl.CORE_SPPADDR_SOURCE = 3 ∧ d.fld a Fl.CORE_SPPADDR_WORD = word.val)) ∧
    ∃ d m, Leaves (.subportReadRepeat p.ch p.site word true) s p.ch d ∧ Counted (Reg.CORE_SPPAR i) 2 c d ∧ d.faultq = c.faultq ++ [m] ∧
      m.code.toNat = fcSpParity ∧ m.arg1.toNat = spadBase i + 4 * word.val

/-- WATCH_CHECK: a check that is ready counts in NUM_ACHECK; a disagreement counts in NUM_ADIS and, with AFAULT, is raised. -/
def Sys2Proof.Says.WatchChecks : Prop :=
  ∀ (ch : Chan) (site : Site) (e : Check) (dis : Bool) (v : Nat) (s : State),
    let c := s.chan ch
    let i := site.val
    let l := [Reg.NUM_ACHECK, Reg.NUM_AMAX, Reg.NUM_ADIS, Reg.NUM_AREC, Reg.NUM_ARECD]
    c.usable i = true → (c.core i).check = some e → e.ready = some (dis, v) →
    (dis = false → ∃ d, Leaves (.watchCheck ch site) s ch d ∧
      RegsCore [Reg.NUM_ACHECK, Reg.NUM_AMAX] i { c.core i with check := none } c d ∧ Counted Reg.NUM_ACHECK 1 c d) ∧
    (dis = true → c.fld Reg.NUM_WCTRL Fl.NUM_WCTRL_AFAULT = 0 → ∃ d, Leaves (.watchCheck ch site) s ch d ∧
      RegsCore l i { c.core i with check := none } c d ∧ Counted Reg.NUM_ACHECK 1 c d ∧ Counted Reg.NUM_ADIS 1 c d) ∧
    (dis = true → c.fld Reg.NUM_WCTRL Fl.NUM_WCTRL_AFAULT = 1 → ∃ d m, Leaves (.watchCheck ch site) s ch d ∧
      Counted Reg.NUM_ADIS 1 c d ∧ d.faultq = c.faultq ++ [m] ∧ m.code.toNat = fcWatchDisagree ∧ m.node.val = i ∧
      (d.core i).check = none ∧ d.mem = c.mem)

/-- Parity errors of the scratchpad, repeated reads, and the watch's checks. -/
def Obligations.ParityAndWatch : Prop := Says.ParityErrors ∧ Says.WatchChecks

/-! ### Queues between cores -/

/-- QUEUE_LINE_ARRIVE: the oldest line on its way from a producer to a queue is taken: at a fenced core it is dropped and counted, at a core
of another epoch discarded with its credit returned, else it is stored behind the lines of the queue; then waiting RECVs go on. -/
def Sys2Proof.Says.QueueLineArrives : Prop :=
  ∀ (ch : Chan) (site src : Site) (q : Fin 8) (l : QLine) (e : QFlight) (s : State),
    let c := s.chan ch
    let i := site.val
    let y := (c.core i).queue q.val
    let c1 := { c with qlines := eraseFirst e c.qlines }
    c.qlines.find? (fun e => e.src == src.val && e.dst == i && e.q == q.val) = some e → e.line = l →
    (c.enabled i = true → c.fenced i = true →
      ∃ d, Leaves (.queueLineArrive ch site q src l) s ch d ∧ Regs [Reg.MESH_FENCEDROP] c1 d ∧ Counted Reg.MESH_FENCEDROP 1 c d) ∧
    (c.enabled i = false → Leaves (.queueLineArrive ch site q src l) s ch c1) ∧
    (c.usable i = true → (y.psite = none ∨ y.psite = some src.val) → l.hdr = true →
      (∃ x, (c.core i).owner = some x ∧ hConfig l.data.toNat = c.config x) → y.spill = false → y.fifo.length < 64 →
      ∃ d, Leaves (.queueLineArrive ch site q src l) s ch (d.pumpRecvs i) ∧
        RegsCore [] i ((c.core i).setQueue q.val { y with drop := 0, psite := some src.val, h := y.h + 1, fifo := y.fifo ++ [l] }) c1 d) ∧
    (c.usable i = true → (y.psite = none ∨ y.psite = some src.val) → l.hdr = true →
      (match (c.core i).owner with | some x => hConfig l.data.toNat != c.config x | none => true) = true →
      ∃ d, Leaves (.queueLineArrive ch site q src l) s ch (d.pumpRecvs i) ∧ Counted (Reg.CORE_EPFLUSH i) 1 c d ∧
        d.qcreds = c.qcreds ++ [⟨i, src.val, q.val⟩] ∧ d.mem = c.mem ∧ (d.core i).queue q.val = { y with drop := hLines l.data.toNat })

/-- CREDIT_RETURN: a credit on its way reaches its producer's pool, which holds at most 64, and the producer sends on; QUEUE_STARVED makes a
full queue of an owned core spill and counts it. -/
def Sys2Proof.Says.CreditsAndStarvation : Prop :=
  ∀ (ch : Chan) (site cons : Site) (q : Fin 8) (s : State),
    let c := s.chan ch
    let i := site.val
    let e : QCredit := ⟨cons.val, i, q.val⟩
    let y := (c.core i).queue q.val
    (e ∈ c.qcreds → ∃ d, Leaves (.creditReturn ch site cons q) s ch (d.pumpSends i) ∧
      RegsCore [] i { c.core i with pools := (c.core i).pools.map (fun p =>
        if p.site == cons.val && p.queue == q.val then { p with credits := min 64 (p.credits + 1) } else p) }
        { c with qcreds := eraseFirst e c.qcreds } d) ∧
    (e ∉ c.qcreds → Leaves (.creditReturn ch site cons q) s ch c) ∧
    ((c.core i).owner.isSome → c.fld Reg.SPAT_DLCFG Fl.SPAT_DLCFG_QWIN ≠ 0 → y.fifo.length = 64 → y.spill = false → c.ringLines i ≠ 0 →
      ∃ d, Leaves (.queueStarved ch site q) s ch d ∧ Counted Reg.SPAT_DLSPILL 1 c d ∧ ((d.core i).queue q.val).spill = true ∧
        ((d.core i).queue q.val).fifo = y.fifo ∧ d.mem = c.mem ∧ ∀ a, a ≠ Reg.SPAT_DLSPILL → d.rd a = c.rd a) ∧
    (c.fld Reg.SPAT_DLCFG Fl.SPAT_DLCFG_QWIN = 0 → Leaves (.queueStarved ch site q) s ch c)

/-- Lines and credits of the queues between cores, and a queue that spills. -/
def Obligations.QueueLinesAndCredits : Prop := Says.QueueLineArrives ∧ Says.CreditsAndStarvation

/-! ### The mesh and the control network -/

/-- MESH_FLIT_HOP: a flit that a sub-port injects leaves on the virtual channel of its kind, under the active generation, by the port that
the table names; it waits at its source while a swap runs, while its route waits for one, and behind an earlier flit of its sub-port and
virtual channel; a core out of service injects no request. The oldest flit of a router's input goes onto the port that the table of its
generation names, if that port has credit; an uncorrectable one is dropped with MESH_UNCORR, one that no table routes with MESH_UNREACH, a
malformed one is counted. -/
def Sys2Proof.Says.FlitHops : Prop :=
  ∀ (ch : Chan) (r : Site) (inp : MPort) (f : Flit) (s : State),
    let c := s.chan ch
    let a : FlitAt := ⟨r.val, inp, f⟩
    let c1 := c.dropFlit a
    let e := c.meshEntry f.gen r.val f.dst.val
    let g := c.meshGen
    let b := c.meshEntry g r.val f.dst.val
    let busy := c.fld Reg.MESH_CTRL Fl.MESH_CTRL_SWAP_BUSY
    let fi : Flit := { f with vc := kindVc f }
    let ai : FlitAt := ⟨r.val, .loc, fi⟩
    let ci := c.dropFlit ai
    let queue := c.meshQueue r.val f.srcsub (kindVc f)
    let hop := Instr.meshFlitHop ch r inp f .clean none
    let waits : Prop := LeavesF 128 hop s ch (if ai ∈ c.mesh.flits then c else { c with mesh := { c.mesh with flits := c.mesh.flits ++ [ai] } })
    (inp = .loc → f.srcsub.val = 0 → kindVc f = false → c.usable r.val = false → LeavesF 128 hop s ch c) ∧
    (inp = .loc → f.srcsub.val ≠ 0 ∨ kindVc f = true ∨ c.usable r.val = true →
      (busy = 0 → queue = [] ∨ queue.head? = some ai → f.dst.val ≤ 99 → f.kind.val < 4 →
        ∀ p n q, mportOf b = some p → meshNext r.val p = some (n, q) → (ci.meshHeld n q fi.vc).length < meshRoom n q →
        LeavesF 128 hop s ch { c with mesh := { ci.mesh with flits := ci.mesh.flits ++ [⟨n, q, { fi with gen := g }⟩] } }) ∧
      (busy = 1 → waits) ∧
      (∀ x, queue.head? = some x → x ≠ ai → waits) ∧
      (f.dst.val ≤ 99 → f.kind.val < 4 → 4 < b → c.meshEntry (!g) r.val f.dst.val ≤ 4 → waits)) ∧
    (inp ≠ .loc → (c.meshHeld r.val inp f.vc).head? = some a →
    (f.dst.val ≤ 99 → f.kind.val < 4 → ∀ p n q, mportOf e = some p → meshNext r.val p = some (n, q) →
      (c1.meshHeld n q f.vc).length < meshRoom n q →
      ∃ d, LeavesF 128 hop s ch d ∧ Regs [Reg.MESH_CORR] { c with mesh := { c1.mesh with flits := c1.mesh.flits ++ [⟨n, q, f⟩] } } d ∧
        d.rd Reg.MESH_CORR = c.rd Reg.MESH_CORR) ∧
    (f.dst.val ≤ 99 → f.kind.val < 4 → ∀ p n q, mportOf e = some p → meshNext r.val p = some (n, q) →
      meshRoom n q ≤ (c1.meshHeld n q f.vc).length → LeavesF 128 hop s ch c) ∧
    (f.dst.val ≤ 99 → f.kind.val < 4 → mportOf e = none →
      ∃ d m, LeavesF 128 hop s ch d ∧ d.mesh = c1.mesh ∧ d.faultq = c.faultq ++ [m] ∧
        m.code.toNat = fcMeshUnreach ∧ m.node.val = r.val ∧ d.mem = c.mem) ∧
    (99 < f.dst.val ∨ 5 < f.kind.val → ∃ d, LeavesF 128 hop s ch d ∧ d.mesh = c1.mesh ∧
      d.fld Reg.MESH_CORR Fl.MESH_CORR_BAD = min (c.fld Reg.MESH_CORR Fl.MESH_CORR_BAD + 1) 0xFF ∧ d.faultq = c.faultq) ∧
    (∃ d m, LeavesF 128 (.meshFlitHop ch r inp f .double none) s ch d ∧ d.mesh = c1.mesh ∧ d.faultq = c.faultq ++ [m] ∧
      m.code.toNat = fcMeshUncorr ∧ m.node.val = r.val ∧ d.mem = c.mem) ∧
    (f.dst.val ≤ 99 → f.kind.val ≤ 5 →
      LeavesF 128 hop s ch (((c1.addFld Reg.MESH_CORR Fl.MESH_CORR_CORR 0).meshRoute s.free r.val inp f).getD c)))

/-- MESH_WRITE: the oldest write flit of its source at its destination sub-port is stored by the agent that serves its address, and
acknowledged: into a scratchpad, into memory, into a register. Into the windows of a fenced core it is dropped and counted, and acknowledged
too. At an agent that does not serve its address nothing is stored (the model's choice, log 150). It waits behind an earlier write of its
source and for an agent that cannot take it yet. -/
def Sys2Proof.Says.MeshWriteStores : Prop :=
  ∀ (ch : Chan) (f : Flit) (a : BitVec 48) (data : List Byte) (s : State),
    let c := s.chan ch
    let b : FlitAt := ⟨f.dst.val, .loc, f⟩
    let c1 := { c with mesh := { c.mesh with eject := eraseFirst b c.mesh.eject } }
    let ack (d : Channel) : Channel := { d with mesh := { d.mesh with flits := d.mesh.flits ++ [⟨f.dst.val, .loc, flitAck f⟩] } }
    let home := (c.meshHome a.toNat).getD (f.dst.val, f.sub.val)
    (f.kind.val ≠ 2 ∨ c.meshOldest b = false ∨ c.meshBusy a.toNat data = true → LeavesF 128 (.meshWrite ch f a data) s ch c) ∧
    (f.kind.val = 2 → c.meshOldest b = true → c.meshBusy a.toNat data = false →
      (home ≠ (f.dst.val, f.sub.val) → LeavesF 128 (.meshWrite ch f a data) s ch (ack c1)) ∧
      (home = (f.dst.val, f.sub.val) → c.fencedWindow a.toNat = false → c.row a.toNat ≠ .regs →
        LeavesF 128 (.meshWrite ch f a data) s ch (ack (c1.busWrite a.toNat data)) ∧
        ((∃ i o, c.row a.toNat = .spad i o) → data.length ≤ 128 → ∃ d, LeavesF 128 (.meshWrite ch f a data) s ch (ack d) ∧ d = { c1 with mem := d.mem } ∧
          d.mem = (c1.st a.toNat false data).mem)) ∧
      (home = (f.dst.val, f.sub.val) → c.fencedWindow a.toNat = false → c.row a.toNat = .regs → data.length = 4 →
        LeavesF 128 (.meshWrite ch f a data) s ch (ack (c1.regWrite s.free (flitMaster f) a.toNat (leNat data)))) ∧
      (home = (f.dst.val, f.sub.val) → c.fencedWindow a.toNat = true →
        ∃ d, LeavesF 128 (.meshWrite ch f a data) s ch (ack d) ∧ Regs [Reg.MESH_FENCEDROP] c1 d ∧ Counted Reg.MESH_FENCEDROP 1 c d))

/-- The routing-table swap: RT_SWAP starts one, unless one runs; it ends with the generations exchanged and counted once no flit of the old
generation is left, or, at its timeout, with SWAP_FAIL and MESH_STALL in the fault unit. -/
def Sys2Proof.Says.MeshSwap : Prop :=
  ∀ (ch : Chan) (m : Master) (v : Word) (s : State),
    let c := s.chan ch
    let a := Reg.MESH_CTRL
    (Lands s ch m a → c.fld a Fl.MESH_CTRL_SWAP_BUSY = 0 →
      ∃ d, LeavesF 128 (.meshRtSwap ch m v) s ch d ∧
        d = { c with regs := d.regs, cmsgs := c.cmsgs ++ [.table 0], mesh := { c.mesh with swapAt := c.ts } } ∧
        d.fld a Fl.MESH_CTRL_SWAP_BUSY = 1 ∧ d.fld a Fl.MESH_CTRL_RT_GEN = c.fld a Fl.MESH_CTRL_RT_GEN ∧ ∀ r, r ≠ a → d.rd r = c.rd r) ∧
    (Lands s ch m a → c.fld a Fl.MESH_CTRL_SWAP_BUSY = 1 →
      ∃ d, LeavesF 128 (.meshRtSwap ch m v) s ch d ∧ Regs [a] c d ∧ d.fld a Fl.MESH_CTRL_SWAP_BUSY = 1) ∧
    (c.fld a Fl.MESH_CTRL_SWAP_BUSY = 1 → c.meshDrained = true →
      ∃ d, Leaves (.meshSwapComplete ch) s ch d ∧ d = { c with regs := d.regs, cmsgs := eraseFirst (.table 0) c.cmsgs } ∧
        d.fld a Fl.MESH_CTRL_SWAP_BUSY = 0 ∧ d.fld a Fl.MESH_CTRL_RT_GEN = 1 - c.fld a Fl.MESH_CTRL_RT_GEN ∧
        Counted Reg.MESH_SWAPS 1 c d ∧ ∀ r, r ≠ a → r ≠ Reg.MESH_SWAPS → d.rd r = c.rd r) ∧
    (c.fld a Fl.MESH_CTRL_SWAP_BUSY = 0 ∨ c.meshDrained = false → Leaves (.meshSwapComplete ch) s ch c) ∧
    (c.fld a Fl.MESH_CTRL_SWAP_BUSY = 1 → ∃ d : Channel, Leaves (.meshSwapTimeout ch) s ch (d.report (mkFault 100 fcMeshStall none 100 0) false) ∧
      d = { c with regs := d.regs, cmsgs := eraseFirst (.table 0) c.cmsgs } ∧ d.fld a Fl.MESH_CTRL_SWAP_BUSY = 0 ∧
      d.fld a Fl.MESH_CTRL_SWAP_FAIL = 1 ∧ d.fld a Fl.MESH_CTRL_RT_GEN = c.fld a Fl.MESH_CTRL_RT_GEN ∧ ∀ r, r ≠ a → d.rd r = c.rd r)

/-- Flits hop as the routing table of their generation says, and the generations swap. -/
def Obligations.MeshRouting : Prop := Says.FlitHops ∧ Says.MeshSwap

/-- Remote tacks: an ADD adds its value to an owned core's tack that accepts remote signals, a RELEASE raises the tack to at least its value; a
core of another context, or a tack that does not accept, counts it in CORE_TACKDROP; a double error on the control network drops the message
with CNET_UNCORR. -/
def Sys2Proof.Says.RemoteTacks : Prop :=
  ∀ (ch : Chan) (hdr pay : Word) (e : Ecc) (s : State),
    let c := s.chan ch
    let i := bits hdr.toNat 22 7
    let t := bits hdr.toNat 0 6
    let v := bits pay.toNat 0 16
    let c1 := { c with cmsgs := eraseFirst (.barrier hdr pay) c.cmsgs }
    let accepts := (c.core i).owner = some (bits hdr.toNat 6 4) ∧ c.fld (Reg.CORE_TACK i t) Fl.CORE_TACK_REMOTE = 1
    c.msgNext (.barrier hdr pay) = true →
    (i < 100 → c.usable i = true → bits hdr.toNat 10 3 = 0 → accepts → c.tack i t + v ≤ 0xFFFF →
      ∃ d, Leaves (.remoteTackAdd ch hdr pay .clean) s ch d ∧ Regs [Reg.CORE_TACK i t] c1 d ∧ d.tack i t = c.tack i t + v) ∧
    (i < 100 → c.usable i = true → bits hdr.toNat 10 3 = 1 → accepts →
      ∃ d, Leaves (.remoteTackRelease ch hdr pay .clean) s ch d ∧ Regs [Reg.CORE_TACK i t] c1 d ∧ d.tack i t = max (c.tack i t) v) ∧
    (i < 100 → c.usable i = true → bits hdr.toNat 10 3 = 0 → ((c.core i).owner ≠ some (bits hdr.toNat 6 4) ∨ c.fld (Reg.CORE_TACK i t) Fl.CORE_TACK_REMOTE = 0) →
      ∃ d, Leaves (.remoteTackAdd ch hdr pay .clean) s ch d ∧ Regs [Reg.CORE_TACKDROP i] c1 d ∧ Counted (Reg.CORE_TACKDROP i) 1 c d) ∧
    (bits hdr.toNat 10 3 = 1 →
      ∃ d m, Leaves (.remoteTackRelease ch hdr pay .double) s ch d ∧ d = { c1 with faultq := c.faultq ++ [m] } ∧
        m.code.toNat = fcCnetUncorr ∧ m.node.val = i ∧ m.arg1.toNat = hdr.toNat) ∧
    (bits hdr.toNat 10 3 = 0 → Leaves (.remoteTackRelease ch hdr pay e) s ch c)

/-- What arrives: write flits at a sub-port, remote tack messages at a core. -/
def Obligations.MeshArrivals : Prop := Says.MeshWriteStores ∧ Says.RemoteTacks

/-! ### The SRAM tier and LPDDR5X -/

/-- SLICE_READ, SLICE_WRITE and MERGE_WINDOW_CLOSE: a read that opens a merge entry, one that joins it, one outside merging; a write stores
its bytes and closes the entries of the lines it touches, and one that came over the router is acknowledged; an entry that closes sends a
requester that waits alone its reply (that it is sent then is the model's choice, log 152). -/
def Obligations.TierAccesses : Prop :=
  ∀ (ch : Chan) (slice : Site) (line : Fin 327680) (src : Site) (sub : Fin 8) (s : State),
    let c := s.chan ch
    let i := slice.val
    let on := c.fld Reg.MESH_CTRL Fl.MESH_CTRL_MERGE_WIN ≠ 0
    let open_ := c.merges.any (fun m => m.slice == i && m.line == line.val)
    let entry := c.merges.find? (fun m => m.slice == i && m.line == line.val)
    (on → open_ = false → c.mergeUsed i < 16 →
      Leaves (.sliceRead ch slice line src sub true true []) s ch { c with merges := c.merges ++ [⟨i, line.val, [(i, 0)]⟩] }) ∧
    (on → open_ = true → ∃ d, Leaves (.sliceRead ch slice line src sub true true []) s ch d ∧
      Regs [Reg.MESH_MERGED] (c.mergeJoin i line.val (i, 0)) d ∧ Counted Reg.MESH_MERGED 1 c d) ∧
    (on → open_ = false → 16 ≤ c.mergeUsed i →
      ∃ d, Leaves (.sliceRead ch slice line src sub true true []) s ch d ∧ Regs [Reg.MESH_MERGEFULL] c d ∧ Counted Reg.MESH_MERGEFULL 1 c d) ∧
    (Leaves (.sliceRead ch slice line src sub true false []) s ch c) ∧
    (∀ (b : Byte) (off : Fin 41943040) (vert : Bool),
      ∃ d, Leaves (.sliceWrite ch slice off [b] vert []) s ch d ∧ d.ldByte (sliceBase i + off.val) = b ∧
        (∀ a, a ≠ sliceBase i + off.val → (∀ o, c.row a ≠ .flat o) → d.ldByte a = c.ldByte a) ∧ d.regs = c.regs ∧ d.cores = c.cores ∧
        d.merges = c.merges.filter (fun m => !(m.slice == i && m.line == off.val / 128)) ∧
        (∀ q, vert = false → c.sliceWr i = some q → ⟨i, .loc, flitAck q.flit⟩ ∈ d.mesh.flits ∧ d.mesh.eject = eraseFirst q c.mesh.eject)) ∧
    (entry = none → Leaves (.mergeWindowClose ch slice line) s ch c) ∧
    ∀ e, entry = some e → ∃ d, Leaves (.mergeWindowClose ch slice line) s ch d ∧
      d = { c with mesh := d.mesh, merges := c.merges.filter (fun m => !(m.slice == i && m.line == line.val)) } ∧
      ∀ site tag, e.waiting = [(site, tag)] → site ≠ i →
        d.mesh = { c.mesh with flits := c.mesh.flits ++ [⟨i, .loc, sliceFlit i site 0 1 (BitVec.ofNat 16 tag) (c.ldN (lineAddr i line.val) 128) 0⟩] }

/-- An array word as it is found, in the tier and in LPDDR5X, by a demand read: a correctable one is counted and waits for its write-back, an
uncorrectable one is counted, recorded where no record stands, and raised; the write-backs take the word off the list. -/
def Sys2Proof.Says.ArrayErrors : Prop :=
  ∀ (ch : Chan) (slice : Site) (line : Fin 327680) (src : Site) (a : BitVec 48) (o : Nat) (raw : BitVec 576) (s : State),
    let c := s.chan ch
    let t := lineAddr slice.val line.val
    let k := memCtrl o
    ((dec36 raw.toNat).2 = 1 →
      ∃ d, Leaves (.sliceRead ch slice line src 0 true false [(t, raw)]) s ch d ∧ Counted Reg.TIER_CORR 1 c d ∧ t ∈ d.corr ∧ d.faultq = c.faultq) ∧
    ((dec36 raw.toNat).2 = 2 → c.fld Reg.TIER_UCSTAT Fl.TIER_UCSTAT_VALID = 0 →
      ∃ d m, Leaves (.sliceRead ch slice line src 0 true false [(t, raw)]) s ch d ∧ Counted Reg.TIER_UCCNT 1 c d ∧
        d.rd Reg.TIER_UCSTAT = 1 + 2 * slice.val ∧ d.rd Reg.TIER_UCADDR = 2 * line.val ∧ d.faultq = c.faultq ++ [m] ∧
        m.code.toNat = fcTierUncorr ∧ m.arg1.toNat = t) ∧
    (c.row a.toNat = .lp o → o % 64 = 0 → c.memServed a.toNat 64 = true → (dec36 raw.toNat).2 = 1 →
      ∃ d, Leaves (.memRead ch a 64 [(a.toNat, raw)] []) s ch d ∧ Counted (Reg.MEMC_CORR k) 1 c d ∧ a.toNat ∈ d.corr ∧ d.faultq = c.faultq) ∧
    (c.row a.toNat = .lp o → o % 64 = 0 → c.memServed a.toNat 64 = true → (dec36 raw.toNat).2 = 2 →
      ∃ d m, Leaves (.memRead ch a 64 [(a.toNat, raw)] []) s ch d ∧ Counted (Reg.MEMC_UCCNT k) 1 c d ∧ d.faultq = c.faultq ++ [m] ∧
        m.code.toNat = fcMemUncorr ∧ m.node.val = 114 + k ∧ m.arg1.toNat = a.toNat) ∧
    ((∃ t, c.row a.toNat = .tier t) → Leaves (.tierCorrectWriteback ch a) s ch { c with corr := c.corr.filter (fun x => x != a.toNat) }) ∧
    (c.row a.toNat = .lp o → Leaves (.memCorrectWriteback ch a) s ch { c with corr := c.corr.filter (fun x => x != a.toNat) })

/-- LPDDR5X: a clean read changes nothing, a write of whole units stores its bytes, a write of part of a unit counts a read-modify-write, and
an access that its controllers do not serve has no effect. -/
def Obligations.MemAccesses : Prop :=
  ∀ (ch : Chan) (a : BitVec 48) (o n : Nat) (data : List Byte) (s : State),
    let c := s.chan ch
    let k := memCtrl o
    c.row a.toNat = .lp o →
    (c.memServed a.toNat n = true → Leaves (.memRead ch a n [] []) s ch c) ∧
    (c.memServed a.toNat n = false → Leaves (.memRead ch a n [] []) s ch c) ∧
    (c.memServed a.toNat 256 = true → o % 256 = 0 → data.length = 256 →
      ∃ d, Leaves (.memWrite ch a data [] []) s ch d ∧ d.ld a.toNat 256 = data ∧ d.regs = c.regs ∧
        ∀ b, (b < a.toNat ∨ a.toNat + 256 ≤ b) → (∀ x, c.row b ≠ .flat x) → d.ldByte b = c.ldByte b) ∧
    (∀ b : Byte, c.memServed a.toNat 1 = true →
      ∃ d, Leaves (.memWrite ch a [b] [] []) s ch d ∧ d.ldByte a.toNat = b ∧ Counted (Reg.MEMC_RMW k) 1 c d ∧
        (∀ r, r ≠ Reg.MEMC_RMW k → d.rd r = c.rd r) ∧ d.faultq = c.faultq ∧
        ∀ x, x ≠ a.toNat → (∀ y, c.row x ≠ .flat y) → d.ldByte x = c.ldByte x) ∧
    (c.memServed a.toNat data.length = false → Leaves (.memWrite ch a data [] []) s ch c)

/-- Patrol scrubs of the tier and of LPDDR5X read the next line or unit in turn; the pass over the tier that ends counts; disabled they do
nothing. -/
def Sys2Proof.Says.PatrolScrubs : Prop :=
  ∀ (ch : Chan) (slice : Site) (ctrl : Fin 4) (s : State),
    let c := s.chan ch
    let i := slice.val
    let n := mget (fun _ => 0) c.scrub i
    let m := mset (fun _ => 0) c.scrub i (n + 1)
    let whole := (List.range 100).all (fun j => mget (fun _ => 0) m j == 327680)
    (c.fld Reg.TIER_CTRL Fl.TIER_CTRL_SCRUB_EN = 1 → n < 327680 → whole = false → Leaves (.tierScrub ch slice []) s ch { c with scrub := m }) ∧
    (c.fld Reg.TIER_CTRL Fl.TIER_CTRL_SCRUB_EN = 1 → n < 327680 → whole = true →
      ∃ d, Leaves (.tierScrub ch slice []) s ch d ∧ Regs [Reg.TIER_SCRUBS] { c with scrub := [] } d ∧ Counted Reg.TIER_SCRUBS 1 c d) ∧
    (c.fld Reg.TIER_CTRL Fl.TIER_CTRL_SCRUB_EN = 0 → Leaves (.tierScrub ch slice []) s ch c) ∧
    (c.fld (Reg.MEMC_CTRL ctrl.val) Fl.MEMC_CTRL_SCRUB_EN = 1 → c.memReady ctrl.val = true →
      Leaves (.memScrub ch ctrl [] 0) s ch
        { c with mscrub := mset (fun _ => 0) c.mscrub ctrl.val ((mget (fun _ => 0) c.mscrub ctrl.val + 1) % memUnits) }) ∧
    (c.fld (Reg.MEMC_CTRL ctrl.val) Fl.MEMC_CTRL_SCRUB_EN = 0 → Leaves (.memScrub ch ctrl [] 0) s ch c)

/-- Errors that reads of the tier and of LPDDR5X find, their write-backs, and the patrol scrubs. -/
def Obligations.ArraysAndScrubs : Prop := Says.ArrayErrors ∧ Says.PatrolScrubs

/-! ### Flash and the KT5 range -/

namespace Sys2Proof.Says

/-- The flash map is ready, no swap runs, and the controller has not failed. -/
def FlashUp (c : Channel) : Prop :=
  c.fstat Fl.FLASH_STATUS_READY = true ∧ c.fstat Fl.FLASH_STATUS_SWAP_BUSY = false ∧ c.fstat Fl.FLASH_STATUS_FAILED = false

/-- The controller serves accesses of unit u: no earlier one of the unit waits, and the buffer holds the unit, or no swap runs and its entry is
not STALE. -/
def FlashServes (c : Channel) (u : Nat) : Prop :=
  c.fstat Fl.FLASH_STATUS_READY = true ∧ c.fstat Fl.FLASH_STATUS_FAILED = false ∧
  c.flash.waiting.any (fun r => r.units.any (fun x => x == u)) = false ∧
  ((c.flashBuf u).isSome ∨ c.fstat Fl.FLASH_STATUS_SWAP_BUSY = false ∧ c.flash.stale.contains u = false)

/-- A pair of registers as one number of 64 bits. -/
def pair64 (c : Channel) (l h : Nat) : Nat := c.rd l + c.rd h * 2 ^ 32

/-- The ways of a page: where a KT5 page's place is. -/
def ktHit (c : Channel) (o : Nat) : Prop := (c.ktFind (o / 2 ^ 16)).isSome = true

end Sys2Proof.Says

/-- FLASH_READ and FLASH_WRITE of bytes within one unit. On a ready controller: a read of bytes that the buffer holds, or of a unit that
nothing holds, changes nothing; one of a unit in the cache makes it the last one read, and with STREAM changes nothing; one that goes to NAND
counts the block's read, which, short of FLASH_RDTHR, changes nothing but that count and, without STREAM, the cache; uncorrectable, it is
counted and recorded, its data becomes the unit's, and it is raised. A write enters the buffer, reads back, makes the controller DIRTY and
changes no other byte. A failed controller drops both and counts each, a read-only one the write. Before the map is ready, while a swap runs,
behind an earlier access of the unit and for a unit that is STALE both wait. Outside the flash row of the map neither has an effect. -/
def Obligations.FlashAccesses : Prop :=
  ∀ (ch : Chan) (a : BitVec 48) (o u n : Nat) (stream offl : Bool) (data bad : List Byte) (s : State),
    let c := s.chan ch
    let blk := c.fmap c.fgen u - 1
    let rd := Instr.flashRead ch a n stream .clean
    let wr := Instr.flashWrite ch a data offl
    let held (r : FlashReq) : Channel := { c with flash := { c.flash with waiting := c.flash.waiting ++ [r] } }
    let later (r : FlashReq) : Channel := if c.flash.stale = [] then held r else (held r).swapStart
    ((∀ x, c.row a.toNat ≠ .flash x) → Leaves rd s ch c ∧ Leaves wr s ch c) ∧
    (c.row a.toNat = .flash o → u = o / 0x4000 → 1 ≤ n → o % 0x4000 + n ≤ 0x4000 → data.length = n →
      (FlashServes c u →
        (c.buffered u o n = true ∨ c.fmap c.fgen u = 0 → Leaves rd s ch c) ∧
        (c.buffered u o n = false → c.fmap c.fgen u ≠ 0 → c.flash.cache.contains u = true →
          Leaves rd s ch (if stream then c else c.cacheUnit u)) ∧
        (c.buffered u o n = false → c.fmap c.fgen u ≠ 0 → c.flash.cache.contains u = false →
          ((c.blk blk).reads + 1 < max 1 (c.rd Reg.FLASH_RDTHR) →
            ∃ d, Leaves rd s ch d ∧ d = { c with flash := { c.flash with blocks := d.flash.blocks, cache := d.flash.cache } } ∧
              d.blk blk = { c.blk blk with reads := (c.blk blk).reads + 1 } ∧ (∀ x, x ≠ blk → d.blk x = c.blk x) ∧
              d.flash.cache = (if stream then c.flash.cache else (c.cacheUnit u).flash.cache)) ∧
          ∃ d m, Leaves (.flashRead ch a n stream (.uncorr bad)) s ch d ∧ Counted Reg.FLASH_UCCNT 1 c d ∧
            (c.fld Reg.FLASH_UCSTAT Fl.FLASH_UCSTAT_VALID = 0 → d.rd Reg.FLASH_UCSTAT = 1 ∧ d.rd Reg.FLASH_UCUNIT = u) ∧
            (∀ i, i < 0x4000 → i < bad.length → mget memDefault d.mem (flashUnit u + i) = nth 0 bad i) ∧
            d.faultq = c.faultq ++ [m] ∧ m.code.toNat = fcFlashUncorr ∧ m.node.val = 118 ∧ m.arg1.toNat = flashUnit u) ∧
        (c.fstat Fl.FLASH_STATUS_RO = false → c.flash.buf.length + b2n (c.flashBuf u).isNone ≤ 2048 →
          ∃ d, Leaves wr s ch d ∧ d.ld a.toNat n = data ∧ d.mem = c.mem ∧ Regs [Reg.FLASH_STATUS] { c with flash := { c.flash with buf := d.flash.buf } } d ∧
            d.fstat Fl.FLASH_STATUS_DIRTY = true ∧ FieldsBut Reg.FLASH_STATUS Fl.FLASH_STATUS_DIRTY c d ∧
            ∀ x, x < a.toNat ∨ a.toNat + n ≤ x → d.ldByte x = c.ldByte x)) ∧
      (c.fstat Fl.FLASH_STATUS_FAILED = true →
        (∃ d, Leaves rd s ch d ∧ Regs [Reg.FLASH_DROP] c d ∧ Counted Reg.FLASH_DROP 1 c d) ∧
        ∃ d, Leaves wr s ch d ∧ Regs [Reg.FLASH_DROP] c d ∧ Counted Reg.FLASH_DROP 1 c d) ∧
      (c.fstat Fl.FLASH_STATUS_FAILED = false → c.fstat Fl.FLASH_STATUS_RO = true →
        ∃ d, Leaves wr s ch d ∧ Regs [Reg.FLASH_DROP] c d ∧ Counted Reg.FLASH_DROP 1 c d) ∧
      (c.fstat Fl.FLASH_STATUS_FAILED = false → ¬ FlashServes c u →
        Leaves rd s ch (later (.read o n stream)) ∧ (c.fstat Fl.FLASH_STATUS_RO = false → Leaves wr s ch (later (.write o data offl)))))

/-- FLASH_UNIT_PROGRAM, UNIT_IDLE_TIMEOUT and FLASH_FLUSH: a unit that has been idle, and with FLUSH every unit, becomes due. A program of a
due unit, or of any where the buffer is full, into a block that takes it, its missing bytes read first where it is mapped: the unit is durable
and out of the buffer, both generations map it to the block, the host's write and the page's are counted; a unit of zeros is unmapped and
counts none. A program that fails counts its page, retires the block and keeps the unit in the buffer. Accesses that waited are then served.
A unit that is not due, or a block that does not take it, leaves the channel as it is. -/
def Obligations.FlashPrograms : Prop :=
  ∀ (ch : Chan) (unit : Fin 268435456) (blk : Nat) (b : BufUnit) (res : FlashRes) (m : Master) (v : Word) (s : State),
    let c := s.chan ch
    let u := unit.val
    let c0 := if b.bytes.length < 0x4000 ∧ c.fmap c.fgen u ≠ 0 then c.nandRead u 1 res else c
    let zero := (c0.unitBytes u b).all (· == 0)
    let due (p : BufUnit → Bool) : Channel := { c with flash := { c.flash with buf := c.flash.buf.map (fun x => if p x then { x with due := true } else x) } }
    let ready := c.fstat Fl.FLASH_STATUS_READY = true ∧ c.fstat Fl.FLASH_STATUS_FAILED = false ∧ c.flashBuf u = some b ∧
      (b.due = true ∨ 2048 ≤ c.flash.buf.length) ∧ c.blkTakes blk b.off = true
    let wrote (d : Channel) : Prop := (∀ i, i < 0x4000 → mget memDefault d.mem (flashUnit u + i) = nth 0 (c0.unitBytes u b) i) ∧
      (∀ x, ¬ (flashUnit u ≤ x ∧ x < flashUnit u + 0x4000) → mget memDefault d.mem x = mget memDefault c0.mem x)
    (ready → zero = false →
      (∃ d, Leaves (.flashUnitProgram ch unit blk true res) s ch d.flashRetry ∧ d.flashBuf u = none ∧ d.fmap false u = blk + 1 ∧
        d.fmap true u = blk + 1 ∧ wrote d ∧ pair64 d Reg.FLASH_HOSTWL Reg.FLASH_HOSTWH = min (pair64 c0 Reg.FLASH_HOSTWL Reg.FLASH_HOSTWH + 1) (2 ^ 64 - 1) ∧
        pair64 d Reg.FLASH_NANDWL Reg.FLASH_NANDWH = min (pair64 c0 Reg.FLASH_NANDWL Reg.FLASH_NANDWH + 1) (2 ^ 64 - 1) ∧
        d.cores = c.cores ∧ d.faultq = c0.faultq ∧ d.flash.waiting = c.flash.waiting) ∧
      ∃ d, Leaves (.flashUnitProgram ch unit blk false res) s ch d ∧ (d.blk blk).bad = true ∧ Counted Reg.FLASH_GROWN 1 c0 d ∧
        pair64 d Reg.FLASH_NANDWL Reg.FLASH_NANDWH = min (pair64 c0 Reg.FLASH_NANDWL Reg.FLASH_NANDWH + 1) (2 ^ 64 - 1) ∧
        d.flash.buf = c.flash.buf ∧ d.mem = c0.mem ∧ (1025 < c.spare → d.faultq = c0.faultq)) ∧
    (ready → zero = true → ∀ ok : Bool,
      ∃ d, Leaves (.flashUnitProgram ch unit blk ok res) s ch d.flashRetry ∧ d.flashBuf u = none ∧ d.fmap false u = 0 ∧ d.fmap true u = 0 ∧ wrote d ∧
        pair64 d Reg.FLASH_HOSTWL Reg.FLASH_HOSTWH = pair64 c0 Reg.FLASH_HOSTWL Reg.FLASH_HOSTWH ∧
        pair64 d Reg.FLASH_NANDWL Reg.FLASH_NANDWH = pair64 c0 Reg.FLASH_NANDWL Reg.FLASH_NANDWH ∧ d.faultq = c0.faultq) ∧
    (c.flashBuf u = none ∨ c.flashBuf u = some b ∧ (b.due = false ∧ c.flash.buf.length < 2048 ∨ c.blkTakes blk b.off = false) →
      ∀ ok : Bool, Leaves (.flashUnitProgram ch unit blk ok res) s ch c) ∧
    Leaves (.unitIdleTimeout ch unit) s ch (due (fun x => x.unit == u)) ∧
    (Lands s ch m Reg.FLASH_CTRL → ∃ d, LeavesF 128 (.flashFlush ch m v) s ch (if bit v.toNat 1 then d.swapStart else d) ∧
      Regs [Reg.FLASH_CTRL] (due (fun _ => true)) d ∧ d.fld Reg.FLASH_CTRL Fl.FLASH_CTRL_SWAP_MS = bits v.toNat 2 10 ∧
      d.fld Reg.FLASH_CTRL Fl.FLASH_CTRL_WL_SPREAD = bits v.toNat 12 8)

/-- The map's generations: a swap starts by command or interval on a ready map, and ends with the pending generation active, the new pending
one equal to it, no unit STALE, counted; on a failed or unready controller none starts. -/
def Sys2Proof.Says.FlashSwaps : Prop :=
  ∀ (ch : Chan) (m : Master) (v : Word) (s : State),
    let c := s.chan ch
    let a := Reg.FLASH_STATUS
    (c.fstat Fl.FLASH_STATUS_READY = true → c.fstat Fl.FLASH_STATUS_FAILED = false →
      (∃ d, Leaves (.flashSwapInterval ch) s ch d ∧ Regs [a] c d ∧ d.fstat Fl.FLASH_STATUS_SWAP_BUSY = true ∧ FieldsBut a Fl.FLASH_STATUS_SWAP_BUSY c d) ∧
      (Lands s ch m Reg.FLASH_CTRL → bit v.toNat 0 = false →
        ∃ d, LeavesF 128 (.flashSwap ch m v) s ch d ∧ Regs [a, Reg.FLASH_CTRL] c d ∧ d.fstat Fl.FLASH_STATUS_SWAP_BUSY = true ∧
          FieldsBut a Fl.FLASH_STATUS_SWAP_BUSY c d)) ∧
    (c.fstat Fl.FLASH_STATUS_READY = false ∨ c.fstat Fl.FLASH_STATUS_FAILED = true → Leaves (.flashSwapInterval ch) s ch c) ∧
    (c.fstat Fl.FLASH_STATUS_SWAP_BUSY = true → c.flash.waiting = [] →
      ∃ d, Leaves (.flashSwapComplete ch 0) s ch d ∧ d.fgen = (!c.fgen) ∧ d.fstat Fl.FLASH_STATUS_SWAP_BUSY = false ∧
        d.flash.map0 = (if c.fgen then c.flash.map0 else c.flash.map1) ∧ d.flash.map1 = d.flash.map0 ∧ d.flash.stale = [] ∧
        Counted Reg.FLASH_SWAPS 1 c d ∧ d.mem = c.mem ∧ d.cores = c.cores) ∧
    (c.fstat Fl.FLASH_STATUS_SWAP_BUSY = false → Leaves (.flashSwapComplete ch 0) s ch c)

/-- Background work and failures of the flash controller: relocation into the pending generation, whose failed program retires the block and
leaves the unit where it is, the scrub of a block that holds nothing, wear levelling, a
command that times out, the map that is rebuilt. -/
def Sys2Proof.Says.FlashUpkeep : Prop :=
  ∀ (ch : Chan) (unit : Fin 268435456) (blk : Nat) (s : State),
    let c := s.chan ch
    let u := unit.val
    let a := Reg.FLASH_STATUS
    let quiet := c.fmap c.fgen u ≠ 0 → (c.blk (c.fmap c.fgen u - 1)).reads + 1 < max 1 (c.rd Reg.FLASH_RDTHR)
    (FlashUp c → c.fmap (!c.fgen) u ≠ 0 → c.blkTakes blk (c.unitKind u) = true → quiet →
      (c.nandRead u 2 .clean).blkTakes blk ((c.nandRead u 2 .clean).unitKind u) = true →
      (∃ d, Leaves (.flashRelocate ch unit blk .clean true) s ch d ∧ d.fmap (!c.fgen) u = blk + 1 ∧ d.fmap c.fgen u = c.fmap c.fgen u ∧
        Counted Reg.FLASH_RELOC 1 c d ∧ d.mem = c.mem ∧ ∀ x, x ≠ u → ∀ g, d.fmap g x = c.fmap g x) ∧
      ∃ d, Leaves (.flashRelocate ch unit blk .clean false) s ch d ∧ (d.blk blk).bad = true ∧ Counted Reg.FLASH_GROWN 1 c d ∧ d.mem = c.mem ∧
        ∀ x g, d.fmap g x = c.fmap g x) ∧
    (c.fmap (!c.fgen) u = 0 → ∀ ok : Bool, Leaves (.flashRelocate ch unit blk .clean ok) s ch c) ∧
    (FlashUp c → (c.unitsIn c.fgen blk) = [] → (c.unitsIn (!c.fgen) blk) = [] → (c.blk blk).bad = false →
      (∃ d, Leaves (.retentionScrub ch blk [] true) s ch d ∧ d = { c with flash := d.flash } ∧
        d.blk blk = { c.blk blk with reads := 0, erases := (c.blk blk).erases + 1, pages := 0 } ∧ ∀ x, x ≠ blk → d.blk x = c.blk x) ∧
      (1025 < c.spare → ∃ d, Leaves (.retentionScrub ch blk [] false) s ch d ∧ (d.blk blk).bad = true ∧ Counted Reg.FLASH_GROWN 1 c d ∧ d.mem = c.mem)) ∧
    (c.fstat Fl.FLASH_STATUS_READY = false → Leaves (.retentionScrub ch blk [] true) s ch c) ∧
    (∀ src, FlashUp c → c.fld Reg.FLASH_CTRL Fl.FLASH_CTRL_WL_SPREAD < c.eraseMax - (c.blk src).erases →
      c.erasures.all (fun x => decide ((c.blk src).erases ≤ x)) = true → (c.blk blk).bad = false → c.unitsIn (!c.fgen) src = [u] → (c.blk blk).pages < blkPages →
      ∃ d, Leaves (.staticWearLevel ch src blk true) s ch d ∧ d.fmap (!c.fgen) u = blk + 1 ∧ Counted Reg.FLASH_RELOC 1 c d ∧ d.mem = c.mem) ∧
    (∀ src, c.eraseMax - (c.blk src).erases ≤ c.fld Reg.FLASH_CTRL Fl.FLASH_CTRL_WL_SPREAD → Leaves (.staticWearLevel ch src blk true) s ch c) ∧
    (c.fstat Fl.FLASH_STATUS_FAILED = false → c.flash.waiting = [] →
      ∃ d m, Leaves (.lunBusyTimeout ch) s ch d ∧ d.fstat Fl.FLASH_STATUS_FAILED = true ∧ d.faultq = c.faultq ++ [m] ∧
        m.code.toNat = fcFlashDown ∧ m.node.val = 118 ∧ Regs [a] { c with faultq := d.faultq, flash := d.flash } d ∧ d.flash = c.flash) ∧
    (c.fstat Fl.FLASH_STATUS_FAILED = true → Leaves (.lunBusyTimeout ch) s ch c) ∧
    (c.fstat Fl.FLASH_STATUS_READY = false → c.fstat Fl.FLASH_STATUS_FAILED = false → 1024 < c.spare → c.flash.waiting = [] →
      ∃ d, Leaves (.flashMapReady ch) s ch d ∧ Regs [a] { c with flash := d.flash } d ∧ d.flash = c.flash ∧
        d.fstat Fl.FLASH_STATUS_READY = true ∧ FieldsBut a Fl.FLASH_STATUS_READY c d) ∧
    (c.fstat Fl.FLASH_STATUS_READY = true → Leaves (.flashMapReady ch) s ch c)

/-- The flash map's generations, background work and failures of the flash controller. -/
def Obligations.FlashMaps : Prop := Says.FlashSwaps ∧ Says.FlashUpkeep

/-- The KT5 range: a line read that hits or misses counts, a written byte reads back, a page that reached its heat moves into the tier,
counters halve; outside the range in service an access has no effect. -/
def Sys2Proof.Says.Kt5Range : Prop :=
  ∀ (ch : Chan) (a : BitVec 48) (o : Nat) (b : Byte) (page : Nat) (s : State),
    let c := s.chan ch
    let pl := c.ktPlace page
    (c.row a.toNat = .flat o → c.ktOn = true → ktHit c o →
      ∃ d, Leaves (.kt5Access ch a 1 none false false) s ch d ∧ Regs [Reg.KT5_HITS] { c with kt5 := d.kt5 } d ∧ Counted Reg.KT5_HITS 1 c d ∧ d.mem = c.mem) ∧
    (c.row a.toNat = .flat o → c.ktOn = true → ¬ ktHit c o →
      ∃ d, Leaves (.kt5Access ch a 1 none true false) s ch d ∧ Regs [Reg.KT5_MISSES] { c with kt5 := d.kt5 } d ∧ Counted Reg.KT5_MISSES 1 c d ∧
        d.mem = c.mem ∧ d.kt5.cands = c.kt5.cands) ∧
    (c.row a.toNat = .flat o → c.ktOn = true → ¬ ktHit c o →
      ∃ d, Leaves (.kt5Access ch a 1 (some [b]) true false) s ch d ∧ d.ldByte a.toNat = b ∧ mget memDefault d.mem (c.ktBack o) = b ∧
        ∀ x, x ≠ c.ktBack o → mget memDefault d.mem x = mget memDefault c.mem x) ∧
    (c.ktOn = false ∨ (∀ o, c.row a.toNat ≠ .flat o) → Leaves (.kt5Access ch a 1 (some [b]) false false) s ch c) ∧
    (c.fld Reg.KT5_CTRL Fl.KT5_CTRL_EN = 1 → page ∈ c.kt5.pend →
      ∃ d, Leaves (.kt5Migration ch page []) s ch d ∧ page ∉ d.kt5.pend ∧ Counted Reg.KT5_MIGR 1 c d ∧ d.cores = c.cores ∧
        ∃ y, d.kt pl.1 pl.2.1 (c.ktVictim pl.1 pl.2.1) = some y ∧ y.tag = pl.2.2 ∧ y.dirty = false) ∧
    (page ∉ c.kt5.pend → Leaves (.kt5Migration ch page []) s ch c) ∧
    Leaves (.kt5HeatHalve ch) s ch { c with kt5 := { c.kt5 with cands := c.kt5.cands.map (fun e => (e.1, e.2.map (fun k => (k.1, k.2 / 2)))) } }

/-- KT5_ENABLE, KT5_DISABLE, KT5_FLUSH and KT5_FLUSH_DONE, where no context is in STEP or RINSE: what the control register and the cache
become; with a context in STEP or RINSE a write has no effect. -/
def Sys2Proof.Says.Kt5Control : Prop :=
  ∀ (ch : Chan) (m : Master) (v : Word) (s : State),
    let c := s.chan ch
    let a := Reg.KT5_CTRL
    let clean (d : Channel) : Prop := d.kt5.ways = [] ∧ d.kt5.pend = [] ∧ d.fld a Fl.KT5_CTRL_BUSY = 1
    (Lands s ch m a → c.anyBusy = false → c.fld a Fl.KT5_CTRL_EN = 0 → c.fld a Fl.KT5_CTRL_BUSY = 0 → bit v.toNat 1 = false →
      1 ≤ c.fld Reg.KT5_MAP Fl.KT5_MAP_SIZE → c.fld Reg.KT5_MAP Fl.KT5_MAP_LBASE + c.fld Reg.KT5_MAP Fl.KT5_MAP_SIZE ≤ 192 →
      1 ≤ bits v.toNat 8 6 → bits v.toNat 8 6 ≤ 32 →
      ∃ d, LeavesF 128 (.kt5Enable ch m v) s ch d ∧ Regs [a] c d ∧ d.fld a Fl.KT5_CTRL_EN = 1 ∧ d.fld a Fl.KT5_CTRL_TMB = bits v.toNat 8 6 ∧
        d.fld a Fl.KT5_CTRL_HEAT = bits v.toNat 4 4) ∧
    (Lands s ch m a → c.anyBusy = false → c.fld a Fl.KT5_CTRL_EN = 1 → c.kt5.disabling = false → bit v.toNat 1 = false →
      ∃ d, LeavesF 128 (.kt5Disable ch m v) s ch d ∧ clean d ∧ d.kt5.disabling = true ∧ d.fld a Fl.KT5_CTRL_EN = 1 ∧ d.cores = c.cores) ∧
    (Lands s ch m a → c.anyBusy = false → c.fld a Fl.KT5_CTRL_EN = 1 → c.fld a Fl.KT5_CTRL_BUSY = 0 → bit v.toNat 0 = true →
      ∃ d, LeavesF 128 (.kt5Flush ch m v) s ch d ∧ clean d ∧ d.kt5.disabling = c.kt5.disabling ∧ d.fld a Fl.KT5_CTRL_EN = 1 ∧ d.cores = c.cores) ∧
    (Lands s ch m a → c.anyBusy = true → LeavesF 128 (.kt5Enable ch m v) s ch c ∧ LeavesF 128 (.kt5Disable ch m v) s ch c ∧
      LeavesF 128 (.kt5Flush ch m v) s ch c) ∧
    (c.fld a Fl.KT5_CTRL_BUSY = 1 →
      ∃ d, Leaves (.kt5FlushDone ch) s ch d ∧ d.fld a Fl.KT5_CTRL_BUSY = 0 ∧ d.kt5.ways = [] ∧ d.kt5.disabling = false ∧
        d.fld a Fl.KT5_CTRL_EN = (if c.kt5.disabling then 0 else c.fld a Fl.KT5_CTRL_EN)) ∧
    (c.fld a Fl.KT5_CTRL_BUSY = 0 → Leaves (.kt5FlushDone ch) s ch c)

/-- The KT5 range: accesses, migrations, heat, and its control. -/
def Obligations.Kt5AccessesAndControl : Prop := Says.Kt5Range ∧ Says.Kt5Control

/-! ### Yelli ports -/

namespace Sys2Proof.Says

/-- No remote write and no PERMUTE waits in the channel. -/
def LinkQuiet (c : Channel) : Prop := c.yl.reqs = [] ∧ c.tat.perms = []

/-- Nothing waits to be sent on port k, and no lookup waits. -/
def PortIdle (c : Channel) (k : Nat) : Prop := (c.port k).txq = [] ∧ c.yl.waits = []

/-- From channel c to channel d nothing changes but registers, the ports, what leaves the channel. -/
def PortsOnly (l : List Nat) (c d : Channel) : Prop :=
  d = { c with regs := d.regs, yl := { c.yl with ports := d.yl.ports }, out := d.out } ∧ ∀ a, a ∉ l → d.rd a = c.rd a

/-- A packet that lies in the receive buffer of port k. -/
def Held (c : Channel) (k : Nat) (p : Pkt) : Prop := (p.vc, p) ∈ (c.port k).rxq

end Sys2Proof.Says

/-- DATA_CODEWORD_RX: an uncorrectable codeword is counted and leaves a gap; one out of order leaves a gap and is discarded; the one expected
moves the sequence on. In every other state of the port codewords have no effect. P2 to P5 take what comes; P0 and P1 take the codewords of
their partners in the package, in the order sent, and nothing where none is on its way. -/
def Sys2Proof.Says.DataCodewords : Prop :=
  ∀ (ch : Chan) (k : Port) (cw : BitVec 5440) (s : State),
    let c := s.chan ch
    let y := c.port k.val
    (∀ b, 2 ≤ k.val → s.onWay ch k b = true) ∧
    (∀ b, s.onWay ch 1 b = (((s.chan (ch + 1)).sentOn 0)[(c.port 1).seen]? == some b)) ∧
    (∀ b, s.onWay ch 0 b = (((s.chan (ch - 1)).sentOn 1)[(c.port 0).seen]? == some b)) ∧
    (s.onWay ch k false = false → LeavesF 128 (.dataCodewordRx ch k cw) s ch c) ∧
    (s.onWay ch k false = true → ∃ d, LeavesF 128 (.dataCodewordRx ch k cw) s ch d ∧
      (k.val < 2 → c.pstate k.val = psActive → (d.port k.val).seen = y.seen + 1)) ∧
    (s.onWay ch k false = true → c.pstate k.val = psActive ∨ c.pstate k.val = psMiswired →
      (dec544 cw.toNat = none → y.unc.length < 63 →
        ∃ d, LeavesF 128 (.dataCodewordRx ch k cw) s ch d ∧ PortsOnly [Reg.YLP_FECUNC k.val] c d ∧ Counted (Reg.YLP_FECUNC k.val) 1 c d ∧
          (d.port k.val).gap = true ∧ (d.port k.val).rxSeq = y.rxSeq ∧ (d.port k.val).rxq = y.rxq) ∧
      (∀ p, dec544 cw.toNat = some (p, []) → bits p 10 10 ≠ y.rxSeq →
        ∃ d, LeavesF 128 (.dataCodewordRx ch k cw) s ch d ∧ PortsOnly [] c d ∧ (d.port k.val).gap = true ∧ (d.port k.val).rxSeq = y.rxSeq ∧
          (d.port k.val).rxq = y.rxq) ∧
      (∀ p, dec544 cw.toNat = some (p, []) → bits p 10 10 = y.rxSeq →
        ∃ d, LeavesF 128 (.dataCodewordRx ch k cw) s ch d ∧ (d.port k.val).gap = false ∧ (d.port k.val).rxSeq = (y.rxSeq + 1) % 1024 ∧ d.mem = c.mem)) ∧
    (c.pstate k.val ≠ psActive → c.pstate k.val ≠ psMiswired → LeavesF 128 (.dataCodewordRx ch k cw) s ch c)

/-- Markers and the retry: a marker that acknowledges frees what it acknowledges and takes over the credit; the marker sent counts; an
acknowledgement that does not come sends the kept codewords again and counts them. The fourth position in a row without a marker makes the
port retrain. A codeword leaves on the eight lanes, or on lane 0 where the link is narrow. -/
def Sys2Proof.Says.MarkersAndRetry : Prop :=
  ∀ (ch : Chan) (k : Port) (cw : BitVec 5440) (p : Nat) (s : State),
    let c := s.chan ch
    let y := c.port k.val
    let plain := y.pre % 256 = 0
    let narrow := c.fld (Reg.YLP_STAT k.val) Fl.YLP_STAT_NARROW = 1
    (s.onWay ch k true = false → LeavesF 128 (.markerRx ch k cw) s ch c) ∧
    (s.onWay ch k true = true → c.pstate k.val = psActive → LinkQuiet c → dec544 cw.toNat = none → y.missed = 3 → y.unc.length < 63 →
      ∃ d, LeavesF 128 (.markerRx ch k cw) s ch d ∧ d.pstate k.val = psRetrain ∧ Counted (Reg.YLP_RETRAIN k.val) 1 c d) ∧
    (s.onWay ch k true = true → c.pstate k.val = psActive → LinkQuiet c → PortIdle c k.val → dec544 cw.toNat = some (p, []) → bit p 90 = false → bits p 80 10 = y.txSeq →
      y.kept.findIdx? (fun e => e.seq == y.txSeq) = none →
      ∃ d, LeavesF 128 (.markerRx ch k cw) s ch d ∧ PortsOnly [] c d ∧ (d.port k.val).kept = [] ∧
        (d.port k.val).cred = (List.range 5).map (fun v => bits p (96 + 16 * v) 16) ∧ d.out = c.out) ∧
    (c.pstate k.val = psTraining ∨ c.pstate k.val = psActive ∨ c.pstate k.val = psMiswired →
      ∃ d o ls, LeavesF 128 (.markerSend ch k) s ch d ∧ PortsOnly [] c d ∧ d.out = .codeword c.num k.val true o ls :: c.out ∧
        (d.port k.val).mcount = (y.mcount + 1) % 2 ^ 16 ∧
        (plain → ∀ i u, i < 544 → u < 5 →
          (nth [] ls (if narrow then 0 else i % 8))[if narrow then 5 * i + u else 5 * (i / 8) + u]? = some (gray (bits o.toNat (10 * i + 2 * u) 2)))) ∧
    (c.pstate k.val = psDown → LeavesF 128 (.markerSend ch k) s ch c) ∧
    (c.pstate k.val = psActive ∨ c.pstate k.val = psMiswired → y.kept ≠ [] →
      ∃ d, LeavesF 128 (.ackTimeout ch k) s ch d ∧ PortsOnly [Reg.YLP_REPLAY k.val, Reg.YLP_REPCW k.val] c d ∧ Counted (Reg.YLP_REPLAY k.val) 1 c d ∧
        Counted (Reg.YLP_REPCW k.val) y.kept.length c d ∧ (d.port k.val).kept = y.kept ∧ d.out.length = c.out.length + y.kept.length) ∧
    (y.kept = [] → LeavesF 128 (.ackTimeout ch k) s ch c)

/-- Codewords and markers of a port, and the retry. -/
def Obligations.CodewordsAndRetry : Prop := Says.DataCodewords ∧ Says.MarkersAndRetry

/-- The states of a port: loss of the markers retrains it, a retrain that ends makes it ACTIVE again with what it kept sent once more, one that
does not end takes it DOWN, training ends ACTIVE with the lanes as found, and goes on where they are neither straight nor wholly reversed,
silence is LOST and raised; in STOP and AGREE of a rinse a port that enters DOWN or LOST joins the channel's view. -/
def Sys2Proof.Says.PortStates : Prop :=
  ∀ (ch : Chan) (k : Port) (ids : List Nat) (inv pre : Byte) (s : State),
    let c := s.chan ch
    let st := Reg.YLP_STAT k.val
    let y := c.port k.val
    LinkQuiet c → PortIdle c k.val →
    (c.pstate k.val = psActive ∨ c.pstate k.val = psMiswired →
      ∃ d, LeavesF 128 (.markerLockLoss ch k) s ch d ∧ PortsOnly [st, Reg.YLP_RETRAIN k.val] c d ∧ d.pstate k.val = psRetrain ∧
        Counted (Reg.YLP_RETRAIN k.val) 1 c d ∧ (d.port k.val).kept = y.kept) ∧
    (c.pstate k.val = psRetrain → y.kept = [] →
      ∃ d, LeavesF 128 (.retrainDone ch k) s ch d ∧ PortsOnly [st] c d ∧ d.pstate k.val = psActive ∧ d.out = c.out ∧
        (d.port k.val).partnered = false) ∧
    (c.pstate k.val = psRetrain →
      ∃ d : Channel, LeavesF 128 (.retrainTimeout ch k) s ch d.viewPorts ∧ PortsOnly [st] c d ∧ d.pstate k.val = psDown ∧ (d.port k.val).kept = [] ∧ d.out = c.out) ∧
    (c.pstate k.val = psTraining → ∀ rev : Bool, ids = (if rev then [0x3C7, 0x3C6, 0x3C5, 0x3C4, 0x3C3, 0x3C2, 0x3C1, 0x3C0] else
        [0x3C0, 0x3C1, 0x3C2, 0x3C3, 0x3C4, 0x3C5, 0x3C6, 0x3C7]) →
      ∃ d, LeavesF 128 (.portTrained ch k ids inv pre) s ch d ∧ PortsOnly [st] c d ∧ d.pstate k.val = psActive ∧
        d.fld st Fl.YLP_STAT_LANEREV = b2n rev ∧ d.fld st Fl.YLP_STAT_POLINV = inv.toNat ∧ (d.port k.val).lastPicot = c.ts) ∧
    (c.pstate k.val = psTraining → ids ≠ straightIds → ids ≠ reversedIds → LeavesF 128 (.portTrained ch k ids inv pre) s ch c) ∧
    (c.pstate k.val = psActive →
      ∃ (d : Channel) (m : FaultMsg), LeavesF 128 (.ylLost ch k) s ch d.viewPorts ∧ PortsOnly [st] { c with faultq := c.faultq ++ [m] } d ∧ d.pstate k.val = psLost ∧
        (d.port k.val).kept = [] ∧ m.code.toNat = fcYlLost ∧ m.node.val = 108 + k.val) ∧
    (c.pstate k.val = psTraining → LeavesF 128 (.ylLost ch k) s ch c ∧ LeavesF 128 (.markerLockLoss ch k) s ch c) ∧
    (c.pstate k.val = psActive → LeavesF 128 (.portTrained ch k ids inv pre) s ch c ∧ LeavesF 128 (.retrainDone ch k) s ch c ∧
      LeavesF 128 (.retrainTimeout ch k) s ch c)

/-- Port control: EN starts training or takes the port DISABLED, RESTART trains a port that is DOWN, LOST or MISWIRED, a wake goes to an ACTIVE
neighbour; a width that was agreed takes effect. -/
def Sys2Proof.Says.PortControl : Prop :=
  ∀ (ch : Chan) (m : Master) (k : Port) (v : Word) (w : Nat) (s : State),
    let c := s.chan ch
    let a := Reg.YLP_CTRL k.val
    let l := [a, Reg.YLP_STAT k.val, Reg.YLP_PARTNER k.val]
    (Lands s ch m a → c.fld a Fl.YLP_CTRL_EN = 0 → bit v.toNat 1 = false →
      ∃ d, LeavesF 128 (.portEnable ch m k v) s ch d ∧ PortsOnly l c d ∧ d.fld a Fl.YLP_CTRL_EN = 1 ∧ d.pstate k.val = psTraining ∧
        d.fld (Reg.YLP_PARTNER k.val) Fl.YLP_PARTNER_VALID = 0 ∧ d.fld a Fl.YLP_CTRL_RETRAIN_US = bits v.toNat 2 10) ∧
    (Lands s ch m a → c.fld a Fl.YLP_CTRL_EN = 1 → PortIdle c k.val → bit v.toNat 1 = false →
      ∃ d, LeavesF 128 (.portDisable ch m k v) s ch d ∧ PortsOnly l c d ∧ d.fld a Fl.YLP_CTRL_EN = 0 ∧ d.pstate k.val = psDisabled ∧
        d.port k.val = YPort.reset) ∧
    (Lands s ch m a → c.fld a Fl.YLP_CTRL_EN = 1 → bit v.toNat 0 = true → (c.pstate k.val = psDown ∨ c.pstate k.val = psLost ∨ c.pstate k.val = psMiswired) →
      ∃ d, LeavesF 128 (.portRestart ch m k v) s ch d ∧ PortsOnly l c d ∧ d.pstate k.val = psTraining ∧ d.port k.val = YPort.reset) ∧
    (Lands s ch m a → c.fld a Fl.YLP_CTRL_EN = 1 → bit v.toNat 0 = true → c.pstate k.val = psActive →
      ∃ d, LeavesF 128 (.portRestart ch m k v) s ch d ∧ Regs [a] c d ∧ d.pstate k.val = psActive) ∧
    (Lands s ch m Reg.YL_WAKE → v.toNat % 8 = k.val → c.pstate k.val = psActive → (c.port k.val).txq = [] → (c.port k.val).credit 4 1 = true →
      (c.port k.val).kept.length < 512 →
      ∃ d, LeavesF 128 (.ylWake ch m v) s ch d ∧ PortsOnly [] c d ∧ (d.port k.val).kept.length = (c.port k.val).kept.length + 1 ∧
        ∃ o ls, d.out = .codeword c.num k.val false o ls :: c.out) ∧
    (Lands s ch m Reg.YL_WAKE → v.toNat % 8 = k.val → c.pstate k.val ≠ psActive → LeavesF 128 (.ylWake ch m v) s ch c) ∧
    ((c.port k.val).width = some w → (c.port k.val).agreed = true →
      ∃ d, Leaves (.widthChangeDone ch k) s ch d ∧ PortsOnly [Reg.YLP_STAT k.val] c d ∧ d.fld (Reg.YLP_STAT k.val) Fl.YLP_STAT_NARROW = b2n (w == 1) ∧
        (d.port k.val).width = none) ∧
    ((c.port k.val).width = none → Leaves (.widthChangeDone ch k) s ch c)

/-- The states of a port, as events change them and as register writes do. -/
def Obligations.Ports : Prop := Says.PortStates ∧ Says.PortControl

/-- WRITE and WRESP packets for this channel: a WRITE into an open window that passes the checks is stored, counted and answered; one that
fails a check stores nothing; a WRESP ends its packet. -/
def Obligations.RemoteWrites : Prop :=
  ∀ (ch : Chan) (k : Port) (p : Pkt) (s : State),
    let c := s.chan ch
    let c1 := c.takeRx k.val p
    let n := p.win
    let answer (d : Channel) (st : Nat) : Prop := LeavesF 128 (.ylWrite ch k p) s ch ((d.routeResp none (d.respTo p st)).onward s.free)
    Held c k.val p → c1.look p.dst = .here → (∀ w ∈ c.yl.waits, w.inp ≠ some k.val) →
    (p.ptype = 1 → c.look p.dst = .here → c.winHeld k.val p = true → LeavesF 128 (.ylWrite ch k p) s ch c) ∧
    (p.ptype = 1 → p.crcOk = true → n < 64 → c.winOpen n = true → c.fld (Reg.YLW_CTRL n) Fl.YLW_CTRL_ACCEPT = 0 →
      p.offset + p.data.length * 64 ≤ c.winSize n → (∃ o, c.row (c.winBase n + p.offset) = .lp o) →
      c.winBase n + p.offset + p.data.length * 64 ≤ 0x0130_0000_0000 →
      ∃ d, answer d 0 ∧ d.ld (c.winBase n + p.offset) (p.data.length * 64) = p.data.flatMap slotBytes ∧
        Regs (Reg.YLW_WRITES n :: (List.range 4).map Reg.MEMC_RMW) { c1 with mem := d.mem, corr := d.corr, cmsgs := c.cmsgs ++ (if p.lastp ∧ p.data ≠ [] ∧ c.fld (Reg.YLW_CTRL n) Fl.YLW_CTRL_NOTIFY = 1 then
          [barrierMsg (c.fld (Reg.YLW_CTRL n) Fl.YLW_CTRL_SITE) (108 + k.val) 0 (c.winCtx n) (c.fld (Reg.YLW_CTRL n) Fl.YLW_CTRL_TACK) 1] else []) } d ∧
        Counted (Reg.YLW_WRITES n) 1 c d ∧ (∀ x ∈ d.corr, x ∈ c.corr) ∧
        ∀ x, ¬ (c.winBase n + p.offset ≤ x ∧ x < c.winBase n + p.offset + p.data.length * 64) → mget memDefault d.mem x = mget memDefault c.mem x) ∧
    (p.ptype = 1 → p.crcOk = true → n < 64 → c.winOpen n = false →
      ∃ d, answer d 1 ∧ Regs [Reg.YLW_WDROP n] c1 d ∧ Counted (Reg.YLW_WDROP n) 1 c d) ∧
    (p.ptype = 1 → p.crcOk = true → n < 64 → c.winOpen n = true → c.fld (Reg.YLW_CTRL n) Fl.YLW_CTRL_ACCEPT = 1 →
      p.src ≠ c.fld (Reg.YLW_SRC n) Fl.YLW_SRC_COORD → answer c1 3) ∧
    (p.ptype = 1 → p.crcOk = true → n < 64 → c.winOpen n = true → c.fld (Reg.YLW_CTRL n) Fl.YLW_CTRL_ACCEPT = 0 →
      c.winSize n < p.offset + p.data.length * 64 → answer c1 2) ∧
    (p.ptype = 1 → p.crcOk = false → ∃ d m, answer d 5 ∧ Regs [Reg.YL_ECRC] { c1 with faultq := c.faultq ++ [m] } d ∧ Counted Reg.YL_ECRC 1 c d ∧
      m.code.toNat = fcYlEcrc ∧ m.node.val = 108 + k.val) ∧
    (p.ptype = 2 → p.status = 0 →
      LeavesF 128 (.wresp ch k p) s ch ((c1.takeResp p).onward s.free) ∧ (c1.takeResp p) = { c1 with yl := { c1.yl with reqs := (c1.takeResp p).yl.reqs } }) ∧
    (p.ptype = 2 → p.status = 1 → ∃ d, LeavesF 128 (.wresp ch k p) s ch (d.onward s.free) ∧ Counted Reg.YL_WCLOSEDRX 1 c d ∧ d.mem = c.mem) ∧
    (p.ptype ≠ 1 → LeavesF 128 (.ylWrite ch k p) s ch c1) ∧ (p.ptype ≠ 2 → LeavesF 128 (.wresp ch k p) s ch c1)

/-- PACKET_FORWARD, LOOKUP_WAIT_TIMEOUT, YL_STUCK, REMOTE_WRITE_TIMEOUT: a packet for another channel goes onto the port that its route names, on the VC of
R358; one without a route is counted and, a WRITE, answered; a lookup that waited too long is answered too; a stuck port and a request
without an answer are reported. -/
def Obligations.ForwardingAndTimeouts : Prop :=
  ∀ (ch : Chan) (k : Port) (p : Pkt) (vc : Fin 4) (w : RtWait) (t : List RtWait) (i : Nat) (r : RwReq) (s : State),
    let c := s.chan ch
    let c1 := c.takeRx k.val p
    (p.ptype = 1 ∨ p.ptype = 2 → (∀ w ∈ c.yl.waits, w.inp ≠ some k.val) → ∀ out dl, c1.look p.dst = .port out dl →
      LeavesF 128 (.packetForward ch k p) s ch ((c1.sendPkt out (outVc p.vc (some k.val) out dl) (p.reVc (outVc p.vc (some k.val) out dl))).onward s.free)) ∧
    (p.ptype = 2 → (∀ w ∈ c.yl.waits, w.inp ≠ some k.val) → c1.look p.dst = .none → LinkQuiet c →
      ∃ d, LeavesF 128 (.packetForward ch k p) s ch d ∧ Regs [Reg.YL_NOROUTE] c1 d ∧ Counted Reg.YL_NOROUTE 1 c d) ∧
    (p.ptype = 1 ∨ p.ptype = 2 → (∀ w ∈ c.yl.waits, w.inp ≠ some k.val) → c1.look p.dst = .wait → LinkQuiet c →
      ∃ d, LeavesF 128 (.packetForward ch k p) s ch d ∧ d = { c1 with yl := { c1.yl with ports := d.yl.ports, waits := c.yl.waits ++ [⟨some k.val, p, c.ts, true⟩] } } ∧
        (d.port k.val).rxq = (c1.port k.val).rxq ∧
        (Held c k.val p → ∀ v, nth 0 (d.port k.val).freed v % 2 ^ 16 = nth 0 (c.port k.val).freed v % 2 ^ 16)) ∧
    (c1.look p.dst = .here → LeavesF 128 (.packetForward ch k p) s ch c1) ∧
    (c.yl.waits = w :: t → LeavesF 128 (.lookupWaitTimeout ch) s ch
      ((((Channel.endWait { c with yl := { c.yl with waits := t } } w).noRoute w.pkt).retryWaits).onward s.free)) ∧
    (c.yl.waits = [] → LeavesF 128 (.lookupWaitTimeout ch) s ch c) ∧
    (c.pstate k.val = psActive → c.fld Reg.YL_RCTRL Fl.YL_RCTRL_STUCK_US ≠ 0 → c.vcHolds k.val vc.val = true →
      ∃ m, LeavesF 128 (.ylStuck ch k vc) s ch { c with faultq := c.faultq ++ [m] } ∧ m.code.toNat = fcYlStuck ∧ m.node.val = 108 + k.val) ∧
    (c.fld Reg.YL_RCTRL Fl.YL_RCTRL_STUCK_US = 0 ∨ c.vcHolds k.val vc.val = false → LeavesF 128 (.ylStuck ch k vc) s ch c) ∧
    (c.yl.reqs[i]? = some r → r.open_ ≠ [] →
      ∃ d, LeavesF 128 (.remoteWriteTimeout ch i) s ch ((d.rwEnd i r 6).onward s.free) ∧ Regs [Reg.YL_RWTIMEOUT] c d ∧ Counted Reg.YL_RWTIMEOUT 1 c d)

/-- Picots, VIEW, WAKE and WIDTH packets: an ACTIVE port sends its picot; a valid one received is noted, an invalid one makes the port
MISWIRED, which the view of a rinse takes in; a WAKE wakes where wakes by link are enabled; a partner's width is answered. -/
def Obligations.ControlPackets : Prop :=
  ∀ (ch : Chan) (k : Port) (p : Pkt) (s : State),
    let c := s.chan ch
    let c1 := c.takeRx k.val p
    let y := c1.port k.val
    (c.pstate k.val = psActive → c.dark = false →
      LeavesF 128 (.picotSend ch k) s ch (c.sendPkt k.val 4 (c.picot k.val (decide (c.rphase ≠ 0))))) ∧
    (c.dark = true → LeavesF 128 (.picotSend ch k) s ch c) ∧
    (p.ptype = 4 → LinkQuiet c → c.pstate k.val = psActive → y.partnered = true → c1.picotOk k.val p = true →
      ∃ d, LeavesF 128 (.picot ch k p) s ch d ∧ PortsOnly [Reg.YLP_PGAP k.val] c1 d ∧ (d.port k.val).lastPicot = c.ts ∧ (d.port k.val).confirmed = true ∧
        d.pstate k.val = psActive) ∧
    (p.ptype = 4 → LinkQuiet c → PortIdle c k.val → c.pstate k.val = psActive → y.partnered = true → c1.picotOk k.val p = false →
      ∃ (d : Channel) (m : FaultMsg), LeavesF 128 (.picot ch k p) s ch d.viewPorts ∧ d.pstate k.val = psMiswired ∧ d.faultq = c.faultq ++ [m] ∧ m.code.toNat = fcYlMiswire ∧ d.mem = c.mem) ∧
    (p.ptype = 5 → p.fld 0x1C 8 = 0 → Leaves (.view ch k p) s ch (c1.takeView p.view)) ∧
    (p.ptype = 5 → p.fld 0x1C 8 ≠ 0 → ∃ d, Leaves (.view ch k p) s ch d ∧ Regs [Reg.YLP_BAD k.val] c1 d ∧ Counted (Reg.YLP_BAD k.val) 1 c d) ∧
    (p.ptype = 7 → c.fld Reg.PWR_WAKECFG Fl.PWR_WAKECFG_LINKEN = 1 → Leaves (.wake ch k p) s ch (c1.wakeEvent 1 k.val)) ∧
    (p.ptype = 7 → c.fld Reg.PWR_WAKECFG Fl.PWR_WAKECFG_LINKEN = 0 → Leaves (.wake ch k p) s ch c1) ∧
    (p.ptype = 8 → ∀ v, p.fld 0x1C 8 = v → v = 1 ∨ v = 8 → y.width = some v →
      ∃ d, Leaves (.width ch k p) s ch d ∧ PortsOnly [] c1 d ∧ (d.port k.val).agreed = true ∧ (d.port k.val).width = some v) ∧
    (p.ptype = 8 → p.fld 0x1C 8 ≠ 1 → p.fld 0x1C 8 ≠ 8 → Leaves (.width ch k p) s ch c1)

/-- The routing table of the torus: SWAP exchanges the generations, FILL writes the default routes into the inactive one, both unless a fill
runs; FILL_DONE ends it. -/
def Sys2Proof.Says.TorusRoutes : Prop :=
  ∀ (ch : Chan) (m : Master) (v : Word) (s : State),
    let c := s.chan ch
    let a := Reg.YL_RCTRL
    Lands s ch m a →
    (c.fillBusy = false → LinkQuiet c → c.yl.waits = [] → bit v.toNat 2 = false →
      ∃ d, LeavesF 128 (.ylSwap ch m v) s ch d ∧ Regs [a, Reg.YL_SWAPS] { c with yl := d.yl } d ∧ d.yl = c.yl ∧ d.rtGen = (!c.rtGen) ∧ Counted Reg.YL_SWAPS 1 c d) ∧
    (c.fillBusy = false → bit v.toNat 0 = false →
      ∃ d, LeavesF 128 (.ylFill ch m v) s ch d ∧ Regs [a] { c with yl := d.yl } d ∧ d.fillBusy = true ∧
        (∀ i, i < 8192 → d.rtEntry (!c.rtGen) i = c.defaultEntry i) ∧ ∀ i, d.rtEntry c.rtGen i = c.rtEntry c.rtGen i) ∧
    (c.fillBusy = true → bit v.toNat 2 = false → ∃ d, LeavesF 128 (.ylSwap ch m v) s ch d ∧ Regs [a] c d ∧ d.rtGen = c.rtGen) ∧
    ∃ d, Leaves (.ylFillDone ch) s ch d ∧ Regs [a] c d ∧ d.fillBusy = false ∧ FieldsBut a Fl.YL_RCTRL_FILL_BUSY c d

/-- Remote windows: a good one opens, a bad one takes ERR; an open one that is written closed goes through CLOSING, which the
engine ends. -/
def Sys2Proof.Says.RemoteWindows : Prop :=
  ∀ (ch : Chan) (m : Master) (n : Que) (v : Word) (s : State),
    let c := s.chan ch
    let a := Reg.YLW_CTRL n.val
    let c1 := (if bit v.toNat 2 then c.setFld a Fl.YLW_CTRL_ERR 0 else c)
    let ready := c1.wr a (setBits (c1.rd a) 3 19 (bits v.toNat 3 19))
    (Lands s ch m a → c.winOpen n.val = false → c.fld a Fl.YLW_CTRL_CLOSING = 0 → ready.winOk n.val = true →
      ∃ d, LeavesF 128 (.windowOpen ch m n v) s ch d ∧ Regs [a] c d ∧ d.winOpen n.val = true ∧ d.winCtx n.val = bits v.toNat 4 4) ∧
    (Lands s ch m a → c.winOpen n.val = false → c.fld a Fl.YLW_CTRL_CLOSING = 0 → ready.winOk n.val = false →
      ∃ d, LeavesF 128 (.windowOpen ch m n v) s ch d ∧ Regs [a] c d ∧ d.winOpen n.val = false ∧ d.fld a Fl.YLW_CTRL_ERR = 1) ∧
    (Lands s ch m a → c.winOpen n.val = true →
      ∃ d, LeavesF 128 (.windowClose ch m n v) s ch d ∧ Regs [a] c d ∧ d.winOpen n.val = false ∧ d.fld a Fl.YLW_CTRL_CLOSING = 1) ∧
    (Lands s ch m a → c.winOpen n.val = true → LeavesF 128 (.windowOpen ch m n v) s ch c) ∧
    ∃ d, Leaves (.windowCloseDone ch n) s ch d ∧ Regs [a] c d ∧ d.fld a Fl.YLW_CTRL_CLOSING = 0 ∧ FieldsBut a Fl.YLW_CTRL_CLOSING c d

/-- The torus routing tables and the remote-write windows. -/
def Obligations.RoutesAndWindows : Prop := Says.TorusRoutes ∧ Says.RemoteWindows

/-! ### The tatting engine and the press -/

namespace Sys2Proof.Says

/-- The command that brings a COLL packet of each kind to the engine. -/
def collRow (ch : Chan) (k : Port) (p : Pkt) : Nat → Instr
  | 0 => .collScale ch k p
  | 1 => .collRs ch k p
  | 2 => .collAg ch k p
  | 3 => .collNorm ch k p
  | 4 => .collPg ch k p
  | _ => .collBarrier ch k p

/-- The command that brings a PRESS frame of each kind. -/
def pressRow (ch : Chan) (k : Port) (p : Pkt) : Nat → Instr
  | 0 => .vote ch k p
  | _ => .commit ch k p

end Sys2Proof.Says

/-- A COLL packet of any kind at the engine: relayed where the channel only carries it; with a wrong ECRC discarded and raised; of another epoch
dropped and counted; else it goes to its collective, or waits for it; while the store of early packets is full it stays in its port. -/
def Obligations.CollectivePackets : Prop :=
  ∀ (ch : Chan) (k : Port) (p : Pkt) (j : Fin 6) (s : State),
    let c := s.chan ch
    let c1 := c.takeRx k.val p
    let row := collRow ch k p j.val
    p.ptype = 3 →
    (p.kind = j.val → c.storeFull = false → p.relay = true → c1.carries p.ctx p.half k.val = true →
      LeavesF 128 row s ch (c1.sendPkt (oppPort k.val) 0 p)) ∧
    (p.kind = j.val → c.storeFull = false → (p.relay && c1.carries p.ctx p.half k.val) = false → p.crcOk = false →
      ∃ m, LeavesF 128 row s ch { c1 with faultq := c.faultq ++ [m] } ∧ m.code.toNat = fcTatEcrc ∧ m.node.val = 106 ∧ m.ctx.val = p.ctx ∧ m.arg0.toNat = p.tag) ∧
    (p.kind = j.val → c.storeFull = false → (p.relay && c1.carries p.ctx p.half k.val) = false → p.crcOk = true → p.epoch ≠ c.press p.ctx →
      ∃ d, LeavesF 128 row s ch d ∧ Regs [Reg.TAT_EPDROP] c1 d ∧ Counted Reg.TAT_EPDROP 1 c d) ∧
    (p.kind = j.val → c.storeFull = false → (p.relay && c1.carries p.ctx p.half k.val) = false → p.crcOk = true → p.epoch = c.press p.ctx →
      LeavesF 128 row s ch ((((c1.collDeliver s.free k.val p).pumpHeld s.free).wakeNorm p.ctx (s.free + 1)).onward s.free)) ∧
    (p.kind = j.val → j.val ≤ 2 → c.storeFull = false → p.relay = false → p.crcOk = true → p.epoch = c.press p.ctx →
      c.tat.passes = [] → c.tat.held = [] → c.tat.gathers = [] → c.tat.chains = [] → LinkQuiet c → (c.step p.ctx).known = none →
      LeavesF 128 row s ch { c1 with tat := { c.tat with held := [(k.val, p)] } }) ∧
    (c.storeFull = true → LeavesF 128 row s ch c)

/-- A VOTE or COMMIT frame: one for no context of this channel is counted at its port; a COMMIT for a context that has voted commits its press:
the press epoch counts one more, the context is READY, its STEP command ends with OK. -/
def Sys2Proof.Says.PressFrames : Prop :=
  ∀ (ch : Chan) (k : Port) (p : Pkt) (j : Fin 2) (x : Nat) (s : State),
    let c := s.chan ch
    let c1 := c.takeRx k.val p
    let row := pressRow ch k p j.val
    p.ptype = 6 → p.kind = j.val →
    (c1.pressCtx p = none → ∃ d, LeavesF 128 row s ch d ∧ Regs [Reg.YLP_BAD k.val] c1 d ∧ Counted (Reg.YLP_BAD k.val) 1 c d) ∧
    (c1.pressCtx p = some x → LeavesF 128 row s ch (((c1.chainPktRx x k.val s.free p).pumpHeld s.free).onward s.free)) ∧
    (c1.pressCtx p = some x → c1.findChain x (.votes 0) = none → c.tat.held = [] → LinkQuiet c → c.tat.chains = [] →
      LeavesF 128 row s ch { c1 with tat := { c.tat with held := [(k.val, p)] } })

/-- The commit of a press of context x: CTX_PRESS counts on modulo 2^32, the presses count, the running digest becomes the pressed one, the phase
is IDLE. -/
def Sys2Proof.Says.PressCommits : Prop :=
  ∀ (c : Channel) (x : Fin 16), c.phase x.val = phVoted → c.ctxState x.val = ctxStep →
    let d := c.commitStep x.val
    d.press x.val = (c.press x.val + 1) % 2 ^ 32 ∧ Counted Reg.UPD_PRESSES 1 c d ∧ d.phase x.val = phIdle ∧ d.ctxState x.val = ctxReady ∧
    (∀ k, k < 8 → d.rd (Reg.TAT_PDIG x.val k) = c.rd (Reg.TAT_CDIG x.val k)) ∧
    ∀ y : Fin 16, y ≠ x → d.press y.val = c.press y.val ∧ d.ctxState y.val = c.ctxState y.val

/-- VOTE and COMMIT frames, and what the commit of a press does. -/
def Obligations.Presses : Prop := Says.PressFrames ∧ Says.PressCommits

/-- REDUCTION_START and BUCKET_START: once every owned core has ended its last B run the context's valid buckets queue up, once a step; the first
bucket that may start begins its pass; with four passes running, or none that may start, nothing begins; a group that does not fit is raised. -/
def Obligations.ReductionsStart : Prop :=
  ∀ (ch : Chan) (x : Ctx) (e : Nat × Nat) (s : State),
    let c := s.chan ch
    let t := c.step x.val
    let go := c.ctxState x.val = ctxStep ∧ t.reducing = false ∧ (c.ownedSites x.val).all (fun i => (c.core i).bDone) = true
    (go → c.nbkt x.val = 0 → Leaves (.reductionStart ch x) s ch (c.setStep x.val { t with reducing := true })) ∧
    (go → c.nbkt x.val = 1 → (c.bEntry x.val 0).valid = true → (c.bkt x.val 0).st = 2 →
      ∃ d, Leaves (.reductionStart ch x) s ch d ∧ d.tat.queue = c.tat.queue ++ [(x.val, 0)] ∧ (d.step x.val).reducing = true ∧ d.regs = c.regs ∧ d.mem = c.mem) ∧
    (go → c.nbkt x.val = 1 → (c.bEntry x.val 0).valid = true → (c.bkt x.val 0).st = 1 →
      ∃ d m, Leaves (.reductionStart ch x) s ch d ∧ d.faultq = c.faultq ++ [m] ∧ m.code.toNat = fcTatContrib ∧ m.ctx = x ∧ d.tat = c.tat) ∧
    (¬ go → Leaves (.reductionStart ch x) s ch c) ∧
    (c.tat.passes.length < 4 → c.nextBucket = some e → (c.bkt e.1 e.2).st = 2 → c.groupOk e.1 = false → e.1 < 16 → LinkQuiet c →
      ∃ m, LeavesF 128 (.bucketStart ch) s ch { c with tat := { c.tat with queue := eraseFirst e c.tat.queue }, faultq := c.faultq ++ [m] } ∧
        m.code.toNat = fcTatGroup ∧ m.ctx.val = e.1) ∧
    (c.tat.passes.length < 4 → c.nextBucket = some e → (c.bkt e.1 e.2).st = 2 → c.groupOk e.1 = true → LinkQuiet c → c.tat.held = [] → c.gsize e.1 = 1 →
      ∃ d : Channel, LeavesF 128 (.bucketStart ch) s ch (d.onward s.free) ∧ d.tat.queue = eraseFirst e c.tat.queue ∧
        d.tat.passes.length = c.tat.passes.length + 1 ∧ (d.bkt e.1 e.2).st = 4 ∧ d.mem = c.mem) ∧
    (4 ≤ c.tat.passes.length ∨ c.nextBucket = none → LinkQuiet c → LeavesF 128 (.bucketStart ch) s ch c)

/-- PASS_END and BUCKET_DONE: a pass that ends without flagged blocks has its bucket ready for delivery; the delivered bucket is DONE, counted, and
its pass is gone, its signal sent where the entry asks for one. -/
def Obligations.PassesEnd : Prop :=
  ∀ (ch : Chan) (x : Ctx) (b : Fin 4096) (i : Nat) (p : Pass) (s : State),
    let c := s.chan ch
    let e := c.bEntry x.val b.val
    c.findPass x.val b.val = some i → c.tat.passes[i]? = some p → LinkQuiet c →
    (p.ended = true → (c.bkt x.val b.val).st = 4 → p.flags = [] →
      LeavesF 128 (.passEnd ch x b) s ch (c.setBkt x.val b.val { c.bkt x.val b.val with st := 5 })) ∧
    (p.ended = true → (c.bkt x.val b.val).st = 4 → p.flags ≠ [] → p.pass < 4 →
      let c1 := if p.pass ≤ 2 then c.count Reg.TAT_RESTARTS 1 else c.count Reg.TAT_BF16 1
      let r := c1.startDim (c1.bEntry x.val b.val) 8 p.again
      LeavesF 128 (.passEnd ch x b) s ch ((((r.1.setPasses (r.1.tat.passes.set i r.2)).passState r.2).pumpHeld s.free).onward s.free)) ∧
    (p.ended = false → LeavesF 128 (.passEnd ch x b) s ch c) ∧
    ((c.bkt x.val b.val).st = 5 →
      ∃ d : Channel, LeavesF 128 (.bucketDone ch x b) s ch (d.onward s.free) ∧ (d.bkt x.val b.val).st = 6 ∧ d.tat.passes = c.tat.passes.eraseIdx i ∧
        Counted Reg.TAT_BUCKETS 1 c d ∧ d.cores = c.cores ∧
        d.cmsgs = c.cmsgs ++ (if bit e.flags 1 then [barrierMsg e.osite 106 0 x.val e.otack 1] else [])) ∧
    ((c.bkt x.val b.val).st ≠ 5 → LeavesF 128 (.bucketDone ch x b) s ch c)

/-- COLL_TIMEOUT, PRESS_BEGIN and PRESS_TIMEOUT. -/
def Obligations.PressAndTimeouts : Prop :=
  ∀ (ch : Chan) (x : Ctx) (tag : BitVec 16) (ep : Nat) (s : State),
    let c := s.chan ch
    let a := Reg.UPD_PRESS x.val
    (c.collEpoch x.val tag.toNat = some ep →
      ∃ m, Leaves (.collTimeout ch x tag) s ch { c with faultq := c.faultq ++ [m] } ∧ m.code.toNat = fcTatTimeout ∧ m.node.val = 101 ∧ m.ctx = x ∧
        m.arg0.toNat = tag.toNat) ∧
    (c.collEpoch x.val tag.toNat = none → Leaves (.collTimeout ch x tag) s ch c) ∧
    (c.ctxState x.val = ctxStep → c.phase x.val = phLocal → (c.ownedSites x.val).all (fun i => (c.core i).uDone) = true → c.fld a Fl.UPD_PRESS_MULTI = 0 →
      (c.step x.val).reducing = true →
      ∃ d : Channel, LeavesF 128 (.pressBegin ch x) s ch ((d.commitStep x.val).onward s.free) ∧ Regs [a] { c with steps := d.steps } d ∧ d.phase x.val = phVoted ∧
        (d.step x.val).voted = c.ts) ∧
    (c.ctxState x.val = ctxStep → c.phase x.val = phLocal → (c.ownedSites x.val).all (fun i => (c.core i).uDone) = true → c.fld a Fl.UPD_PRESS_MULTI = 1 →
      (c.step x.val).reducing = true →
      ∃ d : Channel, LeavesF 128 (.pressBegin ch x) s ch (((d.chainBegin x.val s.free (.votes 1)).pumpHeld s.free).onward s.free) ∧
        Regs [a] { c with steps := d.steps } d ∧ d.phase x.val = phVoted) ∧
    (c.phase x.val ≠ phLocal → LinkQuiet c → LeavesF 128 (.pressBegin ch x) s ch c) ∧
    (c.phase x.val = phVoted → c.ctxState x.val = ctxStep → c.fld a Fl.UPD_PRESS_MULTI = 1 →
      ∃ m, Leaves (.pressTimeout ch x) s ch { c with faultq := c.faultq ++ [m] } ∧ m.code.toNat = fcPressTimeout ∧ m.node.val = 106 ∧ m.ctx = x ∧
        m.arg1.toNat = (c.press x.val + 1) % 2 ^ 32) ∧
    (c.fld a Fl.UPD_PRESS_MULTI = 0 → Leaves (.pressTimeout ch x) s ch c)

/-! ### The host port -/

namespace Sys2Proof.Says

/-- The command of a queue entry, by its opcode; `data` is what the host's memory returns to a DMA, `raws`
words of a bundle as they are read. -/
def hostRow (ch : Chan) (q : Que) (w : BitVec 512) (data : List Byte) (raws : RawWords) : Nat → Instr
  | 0 => .cmdNop ch q w
  | 1 => .loadPricking ch q w raws
  | 2 => .unload ch q w
  | 3 => .cmdStep ch q w
  | 4 => .permute ch q w
  | 5 => .rwrite ch q w
  | _ => .dma ch q w data

/-- Queue q may serve its next entry w now, and nothing holds that entry back. -/
def Starts (c : Channel) (q : Nat) (w : BitVec 512) : Prop :=
  let opc := cf w 0 1
  let x := c.sq q Fl.HIF_SQ_CFG_CTX
  c.mayStart q = true ∧ c.cmdAsleep opc = false ∧ c.marks q = 0 ∧ ¬ (bit (cf w 1 1) 0 = true ∧ c.host.cmds.any (fun k => k.sq == q) = true) ∧
    ¬ ((opc = 3 ∨ opc = 4) ∧ c.ctxState x = ctxStep)

/-- Queue q has taken its next entry w: its head has moved on, and the command is in progress under the next number. -/
def Served (c : Channel) (q : Nat) (w : BitVec 512) (d : Channel) : Prop :=
  let p := c.sq q Fl.HIF_SQ_CFG_PRIO
  let k : Cmd := ⟨c.host.next, q, cf w 2 2, c.sq q Fl.HIF_SQ_CFG_CQ, cf w 0 1, c.sq q Fl.HIF_SQ_CFG_CTX⟩
  Regs [Reg.HIF_SQ_STAT q] { c with host := { c.host with cmds := c.host.cmds ++ [k], next := c.host.next + 1, last := c.host.last.set p q } } d ∧
    d.sqHead q = (c.sqHead q + 1) % c.sqSize q % 2 ^ 16

/-- A host access of n TLPs to a channel that the bridge die answers: they are counted in MOD_DROP, nothing else happens but a read's
ones. -/
def Dropped (i : Instr) (s : State) (ch : Chan) (read : Option Nat) (n : Nat) : Prop :=
  ∃ t, exec i s = .next t ∧
    t = { s with mod := t.mod, out := (match read with | some n => [Out.readData ch.val (List.replicate n 0xFF)] | none => []) ++ s.out } ∧
    t.mrd (Reg.MOD_DROP ch.val) = min (s.mrd (Reg.MOD_DROP ch.val) + n) 0xFFFF_FFFF ∧ ∀ a, a ≠ Reg.MOD_DROP ch.val → t.mrd a = s.mrd a

end Sys2Proof.Says

/-- Doorbells: a value in range is latched, another is counted and told; a completion-queue doorbell also lowers the count of entries not yet
covered; without a way they are dropped (that they need no wake in C3 is the model's choice, log 30). The coalescing time and the clearing of events;
a vector leaves, or waits while it is masked. -/
def Sys2Proof.Says.DoorbellsAndEvents : Prop :=
  ∀ (ch : Chan) (q : Que) (m : Master) (v : Word) (s : State),
    let c := s.chan ch
    let p := c.fld Reg.HIF_EVPEND Fl.HIF_EVPEND_PEND
    let bad (i : Instr) : Prop := ∃ e : Channel, Leaves i s ch (e.event 9) ∧ Regs [Reg.HIF_DBERR] c e ∧ Counted Reg.HIF_DBERR 1 c e
    (c.hostWay = .open →
      (c.sqOn q.val = true → v.toNat < c.sqSize q.val →
        ∃ d, Leaves (.sqDoorbell ch q v) s ch d ∧ d = { c with host := { c.host with tails := d.host.tails } } ∧ d.sqTail q.val = v.toNat ∧
          ∀ r, r ≠ q.val → d.sqTail r = c.sqTail r) ∧
      (c.sqOn q.val = false ∨ c.sqSize q.val ≤ v.toNat → bad (.sqDoorbell ch q v)) ∧
      (c.cqOn q.val = true → v.toNat < c.cqSize q.val →
        ∃ d, Leaves (.cqDoorbell ch q v) s ch d ∧ d = { c with host := { c.host with heads := d.host.heads, uncovered := d.host.uncovered } } ∧
          d.cqHead q.val = v.toNat ∧ d.uncovered q.val = min (c.uncovered q.val) ((c.cqTail q.val + c.cqSize q.val - v.toNat) % c.cqSize q.val) ∧
          ∀ r, r ≠ q.val → d.cqHead r = c.cqHead r ∧ d.uncovered r = c.uncovered r) ∧
      (c.cqOn q.val = false ∨ c.cqSize q.val ≤ v.toNat → bad (.cqDoorbell ch q v))) ∧
    (c.hostWay = .bridge → Dropped (.sqDoorbell ch q v) s ch none 1 ∧ Dropped (.cqDoorbell ch q v) s ch none 1) ∧
    (c.hostWay = .none → exec (.sqDoorbell ch q v) s = .next s ∧ exec (.cqDoorbell ch q v) s = .next s) ∧
    (c.cqOn q.val = true → c.cq q.val Fl.HIF_CQ_CFG_IEN = 1 → 0 < c.uncovered q.val →
      ∃ d, Leaves (.cqCoalesceTimeout ch q) s ch d ∧ d.uncovered q.val = 0 ∧
        d = { c.msix (c.cq q.val Fl.HIF_CQ_CFG_VEC) with host := { c.host with uncovered := d.host.uncovered } }) ∧
    (∀ x, (c.msiUp = false → c.msix x = c) ∧ (c.msiUp = true → c.vecMasked x = false → c.msix x = c.emit (.msix c.num x)) ∧
      (c.msiUp = true → c.vecMasked x = true → ∃ l, c.msix x = { c with vecs := { c.vecs with pend := l } } ∧ ∀ y, y ∈ l ↔ y = x ∨ y ∈ c.vecs.pend)) ∧
    (c.uncovered q.val = 0 ∨ c.cq q.val Fl.HIF_CQ_CFG_IEN = 0 → Leaves (.cqCoalesceTimeout ch q) s ch c) ∧
    (Lands s ch m Reg.HIF_EVPEND →
      ∃ d, LeavesF 128 (.evpendClear ch m v) s ch d ∧ Regs [Reg.HIF_EVPEND] c d ∧ d.fld Reg.HIF_EVPEND Fl.HIF_EVPEND_PEND = p - (p &&& v.toNat))

/-- Queue configuration: a good one enables the queue empty, a bad one sets ERR; an enabled queue keeps its fields; disabling a submission queue
is immediate; a completion queue that an enabled submission queue names stays enabled and sets ERR. -/
def Sys2Proof.Says.QueueConfiguration : Prop :=
  ∀ (ch : Chan) (q : Que) (m : Master) (v : Word) (s : State),
    let c := s.chan ch
    let sa := Reg.HIF_SQ_CFG q.val
    let ca := Reg.HIF_CQ_CFG q.val
    let n := bits v.toNat 2 5
    (Lands s ch m sa →
      (c.sqOn q.val = false → 4 ≤ n → n ≤ 16 → c.cqOn (bits v.toNat 11 6) = true →
        ∃ d, LeavesF 128 (.sqEnable ch m q v) s ch d ∧
          Regs [sa, Reg.HIF_SQ_STAT q.val] { c with host := { c.host with tails := d.host.tails, marks := d.host.marks } } d ∧ d.sqOn q.val = true ∧
          d.sq q.val Fl.HIF_SQ_CFG_LOG2SIZE = n ∧ d.sq q.val Fl.HIF_SQ_CFG_CTX = bits v.toNat 7 4 ∧ d.sq q.val Fl.HIF_SQ_CFG_CQ = bits v.toNat 11 6 ∧
          d.sq q.val Fl.HIF_SQ_CFG_PRIO = bits v.toNat 17 2 ∧ d.sqHead q.val = 0 ∧ d.sqTail q.val = 0) ∧
      (c.sqOn q.val = false → n < 4 ∨ 16 < n ∨ c.cqOn (bits v.toNat 11 6) = false →
        ∃ d, LeavesF 128 (.sqEnable ch m q v) s ch d ∧ Regs [sa] c d ∧ d.sqOn q.val = false ∧ d.sq q.val Fl.HIF_SQ_CFG_ERR = 1) ∧
      (c.sqOn q.val = true →
        ∃ d, LeavesF 128 (.sqEnable ch m q v) s ch d ∧ Regs [sa] c d ∧ FieldsBut sa Fl.HIF_SQ_CFG_ERR c d ∧
          d.sq q.val Fl.HIF_SQ_CFG_ERR = if bit v.toNat 1 then 0 else c.sq q.val Fl.HIF_SQ_CFG_ERR) ∧
      (c.sqOn q.val = true → bit v.toNat 1 = false →
        ∃ d, LeavesF 128 (.sqDisable ch m q v) s ch d ∧ Regs [sa] { c with host := { c.host with marks := d.host.marks } } d ∧ d.sqOn q.val = false ∧
          FieldsBut sa Fl.HIF_SQ_CFG_EN c d) ∧
      (c.sqOn q.val = false →
        ∃ d, LeavesF 128 (.sqDisable ch m q v) s ch d ∧ Regs [sa] c d ∧ d.sqOn q.val = false ∧ d.sq q.val Fl.HIF_SQ_CFG_LOG2SIZE = n)) ∧
    (Lands s ch m ca →
      (c.cqOn q.val = false → 4 ≤ n → n ≤ 16 →
        ∃ d, LeavesF 128 (.cqEnable ch m q v) s ch d ∧
          Regs [ca, Reg.HIF_CQ_STAT q.val] { c with host := { c.host with heads := d.host.heads, uncovered := d.host.uncovered } } d ∧ d.cqOn q.val = true ∧
          d.cq q.val Fl.HIF_CQ_CFG_LOG2SIZE = n ∧ d.cq q.val Fl.HIF_CQ_CFG_VEC = bits v.toNat 8 11 ∧ d.cqTail q.val = 0 ∧ d.cqHead q.val = 0 ∧
          d.fld (Reg.HIF_CQ_STAT q.val) Fl.HIF_CQ_STAT_PHASE = 1 ∧ d.uncovered q.val = 0) ∧
      (c.cqOn q.val = false → n < 4 ∨ 16 < n →
        ∃ d, LeavesF 128 (.cqEnable ch m q v) s ch d ∧ Regs [ca] c d ∧ d.cqOn q.val = false ∧ d.cq q.val Fl.HIF_CQ_CFG_ERR = 1) ∧
      (c.cqOn q.val = true → bit v.toNat 1 = false → LeavesF 128 (.cqEnable ch m q v) s ch c) ∧
      (c.cqOn q.val = true → bit v.toNat 1 = false → (∀ r, r < 64 → c.sqOn r = true → c.sq r Fl.HIF_SQ_CFG_CQ ≠ q.val) →
        ∃ d, LeavesF 128 (.cqDisable ch m q v) s ch d ∧ Regs [ca] c d ∧ d.cqOn q.val = false ∧ FieldsBut ca Fl.HIF_CQ_CFG_EN c d) ∧
      (c.cqOn q.val = true → (∃ r, r < 64 ∧ c.sqOn r = true ∧ c.sq r Fl.HIF_SQ_CFG_CQ = q.val) →
        ∃ d, LeavesF 128 (.cqDisable ch m q v) s ch d ∧ Regs [ca] c d ∧ d.cqOn q.val = true ∧ d.cq q.val Fl.HIF_CQ_CFG_ERR = 1))

/-- The host's queues: doorbells, configuration, coalescing, events. -/
def Obligations.HostQueues : Prop := Says.DoorbellsAndEvents ∧ Says.QueueConfiguration

/-- Commands from a submission queue: the entry is served and the command does its work, or ends with the status of the first check that fails;
an entry that a rinse covers ends with RINSED; one that must wait holds its queue; COMMAND_START serves the queue that the scheduling rules pick. -/
def Obligations.QueueCommands : Prop :=
  ∀ (ch : Chan) (q : Que) (w : BitVec 512) (data : List Byte) (raws : RawWords) (j : Fin 7) (s : State),
    let c := s.chan ch
    let x := c.sq q.val Fl.HIF_SQ_CFG_CTX
    let id := c.host.next
    let c1 := (c.serve q.val w).1
    let st := c1.cmdCheck w x
    let row := hostRow ch q w data raws j.val
    Served c q.val w c1 ∧
    (cf w 0 1 = j.val → Starts c q.val w → st ≠ 0 → LeavesF 128 row s ch (c1.endCmd id st 0 0)) ∧
    (cf w 0 1 = j.val → Starts c q.val w → st = 0 →
      (j.val = 0 → LeavesF 128 row s ch (c1.endCmd id 0 0 0)) ∧
      (j.val = 1 → LeavesF 128 row s ch (c1.loadStart id x (cf w 8 8) (bit (cf w 1 1) 1) raws)) ∧
      (j.val = 2 → ∃ d : Channel, LeavesF 128 row s ch (d.endCmd id 0 0 0) ∧ d.ctxState x = ctxEmpty ∧ d.mbs x = 0 ∧ (∀ k, k < 8 → d.rd (Reg.CTX_DIGEST x k) = 0) ∧ d.mem = c.mem ∧ d.host = c1.host ∧
        (∀ i, i < 100 → (c.core i).owner = some x → (d.core i).owner = none) ∧ ∀ i, (c.core i).owner ≠ some x → (d.core i).owner = (c.core i).owner) ∧
      (j.val = 3 → ∃ d, LeavesF 128 row s ch d ∧ d.ctxState x = ctxStep ∧ d.phase x = phLocal ∧
        d.step x = { StepSt.reset with fillers := cf w 0x16 2, cmd := some id } ∧ d.mem = c.mem ∧ d.host = c1.host ∧ d.tat = c.tat) ∧
      (j.val = 4 → ∃ d : Channel, LeavesF 128 row s ch (d.onward s.free) ∧
        d = { c1 with tat := { c1.tat with perms := c1.tat.perms ++
          [⟨x, id, cf w 8 8, List.range (c1.ldN (cf w 8 8) 4), 0, if bit (c1.ldN (cf w 8 8 + 8) 4) 0 then 5 else 1, 0⟩] } }) ∧
      (j.val = 5 → ∃ d : Channel, LeavesF 128 row s ch (d.onward s.free) ∧ d = { c1 with yl := { c1.yl with reqs := c1.yl.reqs ++ [cmdReq w id] } }) ∧
      (j.val = 6 → cf w 0x1C 1 ≠ 1 → c1.hostReach = true → cf w 0x18 4 = data.length → (∃ o, c.row (cf w 0x10 8) = .lp o) →
        cf w 0x10 8 + data.length ≤ 0x0130_0000_0000 →
        ∃ d : Channel, LeavesF 128 row s ch (d.endCmd id 0 0 data.length) ∧
          d = { c1 with mem := d.mem, corr := d.corr, regs := d.regs } ∧ (∀ a, (∀ k, k < 4 → a ≠ Reg.MEMC_RMW k) → d.rd a = c1.rd a) ∧
          d.ld (cf w 0x10 8) data.length = data ∧ ∀ a, ¬ (cf w 0x10 8 ≤ a ∧ a < cf w 0x10 8 + data.length) → mget memDefault d.mem a = mget memDefault c.mem a) ∧
      (j.val = 6 → cf w 0x1C 1 = 1 → c1.hostReach = true → (∃ o, c.row (cf w 0x10 8) = .lp o) →
        LeavesF 128 row s ch ((c1.emit (.hostWrite c.num (cf w 8 8) (c.ld (cf w 0x10 8) (cf w 0x18 4)))).endCmd id 0 0 (cf w 0x18 4)))) ∧
    (cf w 0 1 = 6 → Starts c q.val w → st = 0 → cf w 0x1C 1 ≠ 1 →
      ∃ d : Channel, LeavesF 128 (.hostReadFail ch q w data) s ch (d.endCmd id 6 1 0) ∧ d = c1.busWrite (cf w 0x10 8) (data.take (cf w 0x18 4))) ∧
    (cf w 0 1 = j.val → c.mayStart q.val = true → c.cmdAsleep j.val = false → 0 < c.marks q.val →
      ∃ d : Channel, LeavesF 128 row s ch (d.endCmd id 4 0 0) ∧ d = { c1 with host := { c1.host with marks := d.host.marks } } ∧ d.marks q.val = c.marks q.val - 1) ∧
    (cf w 0 1 = j.val → c.mayStart q.val = true → c.cmdAsleep j.val = false → c.marks q.val = 0 →
      (bit (cf w 1 1) 0 = true ∧ c.host.cmds.any (fun k => k.sq == q.val) = true ∨ (j.val = 3 ∨ j.val = 4) ∧ c.ctxState x = ctxStep) →
      LeavesF 128 row s ch { c with host := { c.host with blocked := q.val :: c.host.blocked } }) ∧
    (c.mayStart q.val = false → LeavesF 128 row s ch c ∧ LeavesF 128 (.hostReadFail ch q w data) s ch c) ∧
    (c.pickSq = some q.val → cf w 0 1 = j.val → exec (.commandStart ch w data raws) s = exec row s) ∧
    (c.pickSq = none → LeavesF 128 (.commandStart ch w data raws) s ch c)

/-- The end of a command and its completion: the command is in progress no more, its completion is due, commands held back are looked at again; the
completion queue takes the oldest completion due for it, holds it while full, drops it when disabled; a load that waits for its queues goes on or ends with STATE. -/
def Obligations.Completions : Prop :=
  ∀ (ch : Chan) (q : Que) (x : Ctx) (k : Cmd) (id st det res : Nat) (e : Compl) (l : LoadWait) (s : State),
    let c := s.chan ch
    let a := Reg.HIF_CQ_STAT q.val
    let gone : Channel := { c with host := { c.host with compl := eraseFirst e c.host.compl } }
    let due := c.host.compl.find? (fun e => e.cq == q.val)
    let rest : Channel := { c with host := { c.host with loads := c.host.loads.filter (fun e => e.ctx != x.val) } }
    (c.host.cmds.find? (fun k => k.id == id) = some k → k.cq < 64 →
      ∃ h, Regs [Reg.HIF_CMDS] { c with host := h } (c.endCmd id st det res) ∧ Counted Reg.HIF_CMDS 1 c (c.endCmd id st det res) ∧
        h = { c.host with cmds := c.host.cmds.filter (fun k => k.id != id), blocked := [],
                          compl := c.host.compl ++ [⟨k.sq, k.cid, k.cq, st, det, if st = 0 then res else 0⟩] }) ∧
    (due = some e → c.cqOn q.val = true → c.cqFull q.val = false → c.way.link = true →
      ∃ d o, Leaves (.completionWrite ch q) s ch d ∧ Regs [a] { gone with host := { gone.host with uncovered := d.host.uncovered }, vecs := d.vecs, out := d.out } d ∧
        d.cqTail q.val = (c.cqTail q.val + 1) % c.cqSize q.val % 2 ^ 16 ∧
        d.fld a Fl.HIF_CQ_STAT_PHASE = (if (c.cqTail q.val + 1) % c.cqSize q.val = 0 then 1 - c.fld a Fl.HIF_CQ_STAT_PHASE else c.fld a Fl.HIF_CQ_STAT_PHASE) ∧
        d.out = o ++ (if c.hostReach then [Out.hostWrite c.num (c.cqAddr q.val) (c.complBytes e)] else []) ++ c.out ∧
        (o = [] ∨ o = [.msix c.num (c.cq q.val Fl.HIF_CQ_CFG_VEC)]) ∧
        (c.cq q.val Fl.HIF_CQ_CFG_IEN = 0 → o = [] ∧ d.vecs = c.vecs ∧ d.uncovered q.val = c.uncovered q.val + 1)) ∧
    (due = some e → c.cqOn q.val = true → c.cqFull q.val = true → Leaves (.completionWrite ch q) s ch c) ∧
    (due = some e → c.cqOn q.val = false → Leaves (.completionWrite ch q) s ch gone) ∧
    (due = none → Leaves (.completionWrite ch q) s ch c) ∧
    (c.host.loads.find? (fun l => l.ctx == x.val) = some l →
      Leaves (.reconfigDrainTimeout ch x) s ch (rest.endCmd l.id 1 0 0) ∧
      (c.drained x.val = false → Leaves (.reconfigDrainDone ch x) s ch c) ∧
      (c.drained x.val = true → Leaves (.reconfigDrainDone ch x) s ch (rest.loadGo l.id x.val (c.bundleAt l.bundle) false) ∧
        ((rest.loadGo l.id x.val (c.bundleAt l.bundle) false).ctxState x.val = ctxReady) ∧
        (rest.loadGo l.id x.val (c.bundleAt l.bundle) false).config x.val = (c.config x.val + 1) % 256)) ∧
    (c.host.loads.find? (fun l => l.ctx == x.val) = none → Leaves (.reconfigDrainTimeout ch x) s ch c ∧ Leaves (.reconfigDrainDone ch x) s ch c)

/-- Host accesses: the window that QSEQ serves, its timeout, BAR2, requests the bridge die answers, poisoned writes. An access of 64 bits to a
window register has no effect and reads 0. A BAR2 read of a bobbin counts an element that it finds with a single-bit error and raises one with
a double-bit error. The bridge die counts each TLP. -/
def Obligations.HostAccesses : Prop :=
  ∀ (ch : Chan) (m : Master) (a : BitVec 13) (v : Word) (off : Fin 68719476736) (n tl : Nat) (data : List Byte) (s : State),
    let c := s.chan ch
    let r := 0xA000 + a.toNat
    let b := c.fld Reg.HIF_APBASE Fl.HIF_APBASE_BASE * 2 ^ 30 + off.val
    (Lands s ch m r → LeavesF 128 (.windowAccess ch m a (some v) false) s ch (c.regWrite s.free m r v.toNat) ∧
      LeavesF 128 (.windowAccess ch m a (some v) true) s ch c) ∧
    (c.hostWay = .open → c.regAsleep r = false → c.fld Reg.HIF_STATUS Fl.HIF_STATUS_WIN_UP = 1 →
      Leaves (.windowAccess ch .pf a none false) s ch (c.emit (.readData c.num (leBytes 4 (c.regRead .pf r)))) ∧
      Leaves (.windowAccess ch .pf a none true) s ch (c.emit (.readData c.num (List.replicate 8 0)))) ∧
    (c.hostWay = .open → c.regAsleep r = false → c.fld Reg.HIF_STATUS Fl.HIF_STATUS_WIN_UP = 0 → ∀ w : Bool,
      Leaves (.windowAccess ch .pf a none w) s ch c ∧ LeavesF 128 (.windowAccess ch .pf a (some v) w) s ch c) ∧
    (c.hostWay = .open →
      (∃ d, Leaves (.windowAccessTimeout ch true) s ch d ∧ Regs [Reg.HIF_WINTO] c d ∧ Counted Reg.HIF_WINTO 1 c d) ∧
      (∃ d, Leaves (.windowAccessTimeout ch false) s ch d ∧ Regs [Reg.HIF_WINTO] (c.emit (.readData c.num (List.replicate 4 0xFF))) d ∧ Counted Reg.HIF_WINTO 1 c d)) ∧
    (c.hostWay = .open → c.apertureHole b = true →
      (∃ d, Leaves (.bar2Access ch off n none tl []) s ch d ∧ Regs [Reg.HIF_APHOLE] (c.emit (.readData c.num (List.replicate n 0))) d ∧ Counted Reg.HIF_APHOLE 1 c d) ∧
      (∃ d, Leaves (.bar2Access ch off n (some data) tl []) s ch d ∧ Regs [Reg.HIF_APHOLE] c d ∧ Counted Reg.HIF_APHOLE 1 c d)) ∧
    (c.hostWay = .open → c.pst ≤ 2 → (∃ o, c.row b = .lp o) →
      Leaves (.bar2Access ch off n none tl []) s ch (c.emit (.readData c.num (c.ld b n))) ∧
      (b + data.length ≤ 0x0130_0000_0000 →
        ∃ d, Leaves (.bar2Access ch off n (some data) tl []) s ch d ∧ d = { c with mem := d.mem, corr := d.corr, regs := d.regs } ∧
          (∀ x, (∀ k, k < 4 → x ≠ Reg.MEMC_RMW k) → d.rd x = c.rd x) ∧ d.ld b data.length = data ∧
          ∀ y, ¬ (b ≤ y ∧ y < b + data.length) → mget memDefault d.mem y = mget memDefault c.mem y)) ∧
    (c.hostWay = .open → c.pst ≤ 1 → c.fencedWindow b = false → b % 8 = 0 → ∀ i o, c.row b = .bob i o →
      (∃ d, Leaves (.bar2Access ch off 8 none tl [(0, .single)]) s ch d ∧ Regs [Reg.CORE_BOBCORR i] (c.emit (.readData c.num (c.ld b 8))) d ∧
        Counted (Reg.CORE_BOBCORR i) 1 c d) ∧
      ∃ f, Leaves (.bar2Access ch off 8 none tl [(0, .double)]) s ch { c.emit (.readData c.num (c.ld b 8)) with faultq := c.faultq ++ [f] } ∧
        f.code.toNat = fcBobUncorr ∧ f.node.val = i ∧ f.arg0.toNat = o / 0x8000 + 16 * (o % 0x8000 / 8)) ∧
    (c.hostWay = .bridge →
      Dropped (.hostRequestDropped ch n true tl) s ch none tl ∧ Dropped (.hostRequestDropped ch n false tl) s ch (some n) tl ∧
      Dropped (.bar2Access ch off n none tl []) s ch (some n) tl ∧ Dropped (.bar2Access ch off n (some data) tl []) s ch none tl ∧
      Dropped (.windowAccessTimeout ch false) s ch (some 4) 1 ∧ Dropped (.windowAccess ch .pf a none false) s ch (some 4) 1 ∧
      Dropped (.windowAccess ch .pf a none true) s ch (some 8) 1) ∧
    (c.hostWay ≠ .bridge → exec (.hostRequestDropped ch n true tl) s = .next s ∧ exec (.hostRequestDropped ch n false tl) s = .next s) ∧
    (c.way.pcie = true → exec (.poisonedWrite ch) s = .next { s with out := .aer ch.val :: s.out }) ∧
    (c.way.pcie = false → exec (.poisonedWrite ch) s = .next s)

/-! ### Mailboxes and the requests that the sequencers answer -/

namespace Sys2Proof.Says

/-- A mailbox access by master m gets to its channel. -/
def Gets (c : Channel) (m : Master) : Prop := m ≠ .pf0 ∧ (m = .pf → c.hostWay = .open)

/-- Of the requests that change nothing but the mailboxes: the receiver, the function and the result by the state and the argument. -/
def asked (ch : Chan) : Nat → Instr × Nat × Nat × (Channel → Nat → Nat)
  | 0 => (.version ch, 0x20, 0x10, fun c _ => c.fld Reg.DWG_UCVER Fl.DWG_UCVER_MAJOR * 2 ^ 16 + c.fld Reg.DWG_UCVER Fl.DWG_UCVER_MINOR * 2 ^ 8 +
      c.fld Reg.DWG_UCVER Fl.DWG_UCVER_BUILD % 256)
  | 1 => (.ctxstate ch, 0x20, 0x11, fun c a => c.ctxState (a % 16) + 4 * min 7 (c.cmdsOf (a % 16)).length)
  | 2 => (.inflight ch, 0x21, 0x40, fun c _ => c.inflight + 2 ^ 7 * c.reducing)
  | 3 => (.spare ch, 0x23, 0x30, fun c _ => min c.spare 0xFF_FFFF)
  | 4 => (.pwrState ch, 0x22, 0x20, fun c _ => c.pst + 8 * c.gated + 2 ^ 5 * c.hf 0 Fl.PWR_HALF_DIV + 2 ^ 9 * c.hf 1 Fl.PWR_HALF_DIV +
      2 ^ 13 * c.fld Reg.PWR_STATUS Fl.PWR_STATUS_EMERG)
  | _ => (.temp ch, 0x22, 0x24, fun c _ => c.hf 0 Fl.PWR_HALF_TEMP + 2 ^ 12 * c.hf 1 Fl.PWR_HALF_TEMP)

/-- The word of a reply to request word w. -/
def replyWord (w stat res : Nat) : Nat := bits w 28 4 * 2 ^ 28 + stat * 2 ^ 24 + res % 2 ^ 24

/-- From channel c to channel d nothing changes but registers, replies that wait, what leaves the channel. -/
def MailOnly (c d : Channel) : Prop := d = { c with regs := d.regs, vecs := d.vecs, out := d.out, host := { c.host with replies := d.host.replies } }

end Sys2Proof.Says

/-- Mailboxes: the sender's word fills an empty one and the receiver learns of it, a full one keeps its word and shows OVR, a write by another is
counted; a sequencer's word that the control network corrects is counted, one it cannot correct is lost and raised; the receiver's clear empties it and the sender learns of it; the timeout shows TIMEOUT; a reply enters its mailbox, or waits. -/
def Sys2Proof.Says.Mailboxes : Prop :=
  ∀ (ch : Chan) (m : Master) (n : Fin 16) (v : Word) (r w : Nat) (a : Reply) (k : Nat) (s : State),
    let c := s.chan ch
    let id := masterId ch.val m
    let st := Reg.MBX_STAT n.val
    let told (b : Bool) (e : Nat) (d : Channel) : Channel := if b then d.event e else d
    (Gets c m → c.isTx n.val id = true → c.mbxFull n.val = false →
      ∃ d, Leaves (.mbxWrite ch m n v .clean) s ch (told (c.isRx n.val c.hostId) 3 d) ∧ Regs [st, Reg.MBX_DATA n.val] c d ∧ d.rd (Reg.MBX_DATA n.val) = v.toNat ∧
        d.mbxFull n.val = true ∧ FieldsBut st Fl.MBX_STAT_FULL c d) ∧
    (Gets c m → c.isTx n.val id = true → c.mbxFull n.val = true →
      ∃ d, Leaves (.mbxWrite ch m n v .clean) s ch d ∧ Regs [st] c d ∧ d.fld st Fl.MBX_STAT_OVR = 1 ∧ FieldsBut st Fl.MBX_STAT_OVR c d) ∧
    (Gets c m → c.isTx n.val id = false → ∃ d, Leaves (.mbxWrite ch m n v .clean) s ch d ∧ Regs [Reg.MBX_BADW] c d ∧ Counted Reg.MBX_BADW 1 c d) ∧
    (Gets c m → masterNode m ≠ 105 →
      (∃ d, Regs [Reg.CNET_CORR] c d ∧ d.fld Reg.CNET_CORR Fl.CNET_CORR_CORR = min (c.fld Reg.CNET_CORR Fl.CNET_CORR_CORR + 1) (2 ^ Fl.CNET_CORR_CORR.w - 1) ∧
        exec (.mbxWrite ch m n v .single) s = exec (.mbxWrite ch m n v .clean) (s.setChan ch d)) ∧
      ∃ f, Leaves (.mbxWrite ch m n v .double) s ch { c with faultq := c.faultq ++ [f] } ∧ f.code.toNat = fcCnetUncorr ∧ f.node.val = 105) ∧
    (Gets c m → c.isRx n.val id = true → c.mbxFull n.val = true →
      ∃ d, Leaves (.mbxClear ch m n) s ch ((told (c.isTx n.val c.hostId) 4 d).mbxNext n.val) ∧ Regs [st] c d ∧ d.mbxFull n.val = false ∧
        FieldsBut st Fl.MBX_STAT_FULL c d) ∧
    (Gets c m → c.isRx n.val id = true → c.mbxFull n.val = false → Leaves (.mbxClear ch m n) s ch c) ∧
    (Gets c m → c.isRx n.val id = false → ∃ d, Leaves (.mbxClear ch m n) s ch d ∧ Regs [Reg.MBX_BADW] c d ∧ Counted Reg.MBX_BADW 1 c d) ∧
    (c.mbxFull n.val = true → c.bindF n.val Fl.MBX_BIND_VALID = 1 →
      ∃ d, Leaves (.mbxTimeout ch n) s ch (told (c.isTx n.val c.hostId) 5 d) ∧ Regs [st] c d ∧ d.fld st Fl.MBX_STAT_TIMEOUT = 1 ∧ FieldsBut st Fl.MBX_STAT_TIMEOUT c d) ∧
    (c.mbxFull n.val = false ∨ c.bindF n.val Fl.MBX_BIND_VALID = 0 → Leaves (.mbxTimeout ch n) s ch c) ∧
    (c.repBox r = some k → c.mbxFull k = false → c.reply r w a = c.mbxFill k (replyWord w a.stat a.res)) ∧
    (c.repBox r = some k → c.mbxFull k = true →
      c.reply r w a = { c with host := { c.host with replies := c.host.replies ++ [(k, replyWord w a.stat a.res)] } }) ∧
    (c.repBox r = none → c.reply r w a = c)

/-- Requests of the host to a sequencer: the request's mailbox is emptied and the answer goes back with state OK and the function's result; PING is
answered OK, a function that the receiver does not have UNKNOWN; without such a request nothing happens. -/
def Sys2Proof.Says.SequencerRequests : Prop :=
  ∀ (ch : Chan) (j r : Nat) (i : Instr) (f : Nat) (g : Channel → Nat → Nat) (p : Fin 5) (n : Nat) (s : State),
    let c := s.chan ch
    let w := c.rd (Reg.MBX_DATA n)
    let free := c.mbxFree n
    asked ch j = (i, r, f, g) →
    MailOnly c free ∧
    (c.reqBox r = some n → reqFunc w = f → Leaves i s ch (free.reply r w ⟨0, g c (reqArg w)⟩)) ∧
    (c.reqBox r = some n → reqFunc w ≠ f → Leaves i s ch c) ∧
    (c.reqBox r = none → Leaves i s ch c) ∧
    (c.reqBox (0x20 + p.val) = some n → reqFunc w = 0 → Leaves (.ping ch p) s ch (free.reply (0x20 + p.val) w ⟨0, 0⟩)) ∧
    (c.reqBox (0x20 + p.val) = some n → hasFunc (0x20 + p.val) (reqFunc w) = false → reqFunc w ≠ 0 →
      Leaves (.ping ch p) s ch (free.reply (0x20 + p.val) w ⟨2, 0⟩)) ∧
    (c.reqBox (0x20 + p.val) = some n → hasFunc (0x20 + p.val) (reqFunc w) = true → Leaves (.ping ch p) s ch c) ∧
    (c.reqBox 0x23 = some n → reqFunc w = 0x31 →
      (c.flash.buf = [] → Leaves (.flush ch) s ch (free.reply 0x23 w ⟨0, 1⟩)) ∧
      (c.flash.buf ≠ [] → Leaves (.flush ch) s ch (free.flashFlush.reply 0x23 w ⟨1, 0⟩))) ∧
    (c.reqBox 0x22 = some n → reqFunc w = 0x21 →
      (bits (reqArg w) 0 3 = 0 ∨ 4 < bits (reqArg w) 0 3 → Leaves (.pwrEnter ch) s ch (free.reply 0x22 w ⟨3, 0⟩)) ∧
      (0 < bits (reqArg w) 0 3 → bits (reqArg w) 0 3 ≤ 4 → c.entryCheck (bits (reqArg w) 0 3) = none →
        Leaves (.pwrEnter ch) s ch ((free.pwrReq c.hostId (bits (reqArg w) 0 5)).reply 0x22 w ⟨0, 0⟩)) ∧
      (0 < bits (reqArg w) 0 3 → bits (reqArg w) 0 3 ≤ 4 → ∀ who why, c.entryCheck (bits (reqArg w) 0 3) = some (who, why) →
        Leaves (.pwrEnter ch) s ch ((free.pwrReq c.hostId (bits (reqArg w) 0 5)).reply 0x22 w ⟨3, who + why * 2 ^ 8⟩))) ∧
    (c.reqBox 0x22 = some n → reqFunc w = 0x22 → Leaves (.pwrExitReq ch) s ch ((free.wakeEvent 2 0).reply 0x22 w ⟨0, 0⟩)) ∧
    (c.reqBox 0x22 = some n → reqFunc w = 0x23 →
      let h := bits (reqArg w) 0 1
      let dv := bits (reqArg w) 1 4
      let vs := bits (reqArg w) 5 8
      let sd := bit (reqArg w) 13
      let sv := bit (reqArg w) 14
      (sd = true ∨ sv = true → c.dvfsCheck h dv vs sd sv = none → Leaves (.dvfs ch) s ch ((free.dvfsReq c.hostId h dv vs sd sv).reply 0x22 w ⟨0, 0⟩)) ∧
      (sd = true ∨ sv = true → ∀ why, c.dvfsCheck h dv vs sd sv = some why →
        Leaves (.dvfs ch) s ch ((free.dvfsReq c.hostId h dv vs sd sv).reply 0x22 w ⟨3, 0x22 + why * 2 ^ 8⟩)) ∧
      (sd = false → sv = false → Leaves (.dvfs ch) s ch (free.reply 0x22 w ⟨0, 0⟩)))

/-- Mailboxes, and the requests of the host that the sequencers answer. -/
def Obligations.MailboxesAndRequests : Prop := Says.Mailboxes ∧ Says.SequencerRequests

/-! ### The boot block -/

namespace Sys2Proof.Says

/-- A request for the boot block waits in mailbox n with word w. -/
def Asks (c : Channel) (n f : Nat) : Prop := c.reqBox 0x24 = some n ∧ reqFunc (c.rd (Reg.MBX_DATA n)) = f

/-- The field of DWG_STATUS f is v. -/
def Dwg (c : Channel) (f : Fld) (v : Nat) : Prop := c.dwg f = v

end Sys2Proof.Says

/-- BOOT runs phases 1 to 5 of a channel in phase 0: the active slot's image if it passes the checks, else the other's with FALLBACK, else FAILED with
the code; then training ends the boot RUNNING, or FAILED with code 9. Without supply, held, or past phase 0 it has no effect. -/
def Obligations.Booting : Prop :=
  ∀ (ch : Chan) (slow : Bool) (bus : Byte) (mem : BitVec 4) (g : Nat) (s : State),
    let c := s.chan ch
    let m := c.slotImage c.activeSlot
    let m' := c.slotImage (1 - c.activeSlot)
    let r := c.otp.genBytes g
    let up (d : Channel) (slot : Nat) (img : List Byte) : Prop :=
      Leaves (.boot ch slow) s ch d ∧ d = { c with regs := d.regs, fw := d.fw } ∧ d.dwg Fl.DWG_STATUS_PHASE = 6 ∧ d.dwg Fl.DWG_STATUS_SLOT = slot ∧
      d.dwg Fl.DWG_STATUS_OTPGEN = g ∧ d.dwg Fl.DWG_STATUS_SLOWIO = b2n slow ∧ d.fld Reg.SEQ_STATE Fl.SEQ_STATE_RUN = 15 ∧
      d.rd Reg.DWG_UCVER = fieldAt img 0x10 4 ∧ d.fld Reg.MBX_CTRL Fl.MBX_CTRL_LOCK = 1 ∧ d.fw.svn = fieldAt img 0xC 4
    let failed (d : Channel) (code : Nat) : Prop :=
      Leaves (.boot ch slow) s ch d ∧ d = { c with regs := d.regs, fw := d.fw } ∧ d.dwg Fl.DWG_STATUS_PHASE = 8 ∧ d.dwg Fl.DWG_STATUS_CODE = code ∧
      d.fld Reg.SEQ_STATE Fl.SEQ_STATE_RUN = 0 ∧ d.fld Reg.MBX_CTRL Fl.MBX_CTRL_LOCK = 0
    let ready := s.pins.conv = true ∧ c.way.held = false ∧ c.pst ≠ 4 ∧ c.dwg Fl.DWG_STATUS_PHASE = 0
    (ready → c.otp.gen = none → ∃ d, failed d 1) ∧
    (ready → c.otp.gen = some g → imageCheck r m = 0 → ∃ d, up d c.activeSlot m) ∧
    (ready → c.otp.gen = some g → imageCheck r m ≠ 0 → imageCheck r m' = 0 →
      ∃ d, up d (1 - c.activeSlot) m' ∧ d.dwg Fl.DWG_STATUS_FALLBACK = 1 ∧ d.dwg Fl.DWG_STATUS_CODE = imageCheck r m) ∧
    (ready → c.otp.gen = some g → imageCheck r m ≠ 0 → imageCheck r m' ≠ 0 → ∃ d, failed d (imageCheck r m')) ∧
    (¬ ready → exec (.boot ch slow) s = .next s) ∧
    (c.dwg Fl.DWG_STATUS_PHASE = 6 → mem = 0 → bus = 0 →
      ∃ d, exec (.bootTrainDone ch mem bus) s = .next ((s.setChan ch d).setModBit Fl.MOD_STATUS_CH_RUN ch.val true) ∧ d = { c with regs := d.regs } ∧
        d.dwg Fl.DWG_STATUS_PHASE = 7 ∧ d.fld Reg.HIF_STATUS Fl.HIF_STATUS_WIN_UP = 1 ∧ d.fld Reg.FLASH_STATUS Fl.FLASH_STATUS_BUS_UP = 255 ∧
        ∀ k, k < 4 → d.fld (Reg.MEMC_STATUS k) Fl.MEMC_STATUS_READY = 1) ∧
    (c.dwg Fl.DWG_STATUS_PHASE = 6 → mem ≠ 0 →
      ∃ d, Leaves (.bootTrainDone ch mem bus) s ch d ∧ d = { c with regs := d.regs } ∧ d.dwg Fl.DWG_STATUS_PHASE = 8 ∧ d.dwg Fl.DWG_STATUS_CODE = 9 ∧
        d.fld Reg.SEQ_STATE Fl.SEQ_STATE_RUN = 0) ∧
    (c.dwg Fl.DWG_STATUS_PHASE ≠ 6 → exec (.bootTrainDone ch mem bus) s = .next s)

/-- The long operations of the boot block: ATTEST writes its report, STAGE verifies and erases, its end programs the slot; OTP_COMMIT checks, its end
programs the record; a request while an operation runs is answered BUSY, one whose span is wrong DENIED with code 14. -/
def Obligations.LongOperations : Prop :=
  ∀ (ch : Chan) (n : Nat) (good : Bool) (s : State),
    let c := s.chan ch
    let w := c.rd (Reg.MBX_DATA n)
    let free := c.mbxFree n
    let st := Reg.DWG_STATUS
    let img := c.ld c.dwgAddr (c.rd Reg.DWG_LEN)
    let rec384 := c.ld c.dwgAddr 384
    let idle := c.dwg Fl.DWG_STATUS_OP = 0
    let say (d : Channel) (stat : Nat) : Channel := d.reply 0x24 w ⟨stat, 0⟩
    let coded (d : Channel) (code : Nat) : Prop := Regs [st] free d ∧ d.dwg Fl.DWG_STATUS_CODE = code
    let starts (d : Channel) (op : Nat) : Prop := d.dwg Fl.DWG_STATUS_OP = op ∧ d.dwg Fl.DWG_STATUS_OPSTAT = 0
    let ends (d : Channel) : Prop := d.dwg Fl.DWG_STATUS_OP = 0 ∧ d.dwg Fl.DWG_STATUS_OPSTAT = 1
    (Asks c n 1 → c.dwgSpanOk 864 = true →
      LeavesF 128 (.attest ch) s ch (say (free.st c.dwgAddr false (free.report864 ++ leBytes 64 (Config.signature s.free).toNat)) 0)) ∧
    (Asks c n 1 → c.dwgSpanOk 864 = false → ∃ d, LeavesF 128 (.attest ch) s ch (say d 3) ∧ coded d 14) ∧
    (Asks c n 2 → ¬ idle → Leaves (.stage ch) s ch (say free 1)) ∧
    (Asks c n 2 → idle → c.dwgSpanOk (c.rd Reg.DWG_LEN) = false → ∃ d, Leaves (.stage ch) s ch (say d 3) ∧ coded d 14) ∧
    (Asks c n 2 → idle → c.dwgSpanOk (c.rd Reg.DWG_LEN) = true → c.rd Reg.DWG_LEN ≤ slotSize → imageCheck c.genRec img = 0 →
      ∃ d, Leaves (.stage ch) s ch (say d 0) ∧ Regs [st] { free with fw := { c.fw with stage := img }, bflash := d.bflash } d ∧ starts d 1 ∧
        (∀ o, o < slotSize → mget bfDefault d.bflash (slotBase (1 - c.activeSlot) + o) = 0xFF) ∧
        ∀ a, ¬ (slotBase (1 - c.activeSlot) ≤ a ∧ a < slotBase (1 - c.activeSlot) + slotSize) → mget bfDefault d.bflash a = mget bfDefault c.bflash a) ∧
    (Asks c n 2 → idle → c.dwgSpanOk (c.rd Reg.DWG_LEN) = true → c.rd Reg.DWG_LEN ≤ slotSize → imageCheck c.genRec img ≠ 0 →
      ∃ d, Leaves (.stage ch) s ch (say d 0) ∧ coded d (imageCheck c.genRec img) ∧ d.dwg Fl.DWG_STATUS_OP = 0 ∧ d.dwg Fl.DWG_STATUS_OPSTAT = 2) ∧
    (c.dwg Fl.DWG_STATUS_OP = 1 →
      ∃ d, LeavesF 128 (.stageDone ch true) s ch d ∧ Regs [st] { c with fw := { c.fw with stage := [] }, bflash := d.bflash } d ∧ ends d ∧
        ∀ o b, c.fw.stage[o]? = some b → mget bfDefault d.bflash (slotBase (1 - c.activeSlot) + o) = b) ∧
    (c.dwg Fl.DWG_STATUS_OP = 1 →
      ∃ d, LeavesF 128 (.stageDone ch false) s ch d ∧ Regs [st] { c with fw := { c.fw with stage := [] }, bflash := d.bflash } d ∧
        d.dwg Fl.DWG_STATUS_OP = 0 ∧ d.dwg Fl.DWG_STATUS_OPSTAT = 2) ∧
    (c.dwg Fl.DWG_STATUS_OP ≠ 1 → LeavesF 128 (.stageDone ch good) s ch c) ∧
    (Asks c n 4 → ¬ idle → Leaves (.otpCommit ch) s ch (say free 1)) ∧
    (Asks c n 4 → idle → c.dwgSpanOk 384 = true → c.commitCheck rec384 ≠ 0 → ∃ d, Leaves (.otpCommit ch) s ch (say d 3) ∧ coded d (c.commitCheck rec384)) ∧
    (Asks c n 4 → idle → c.dwgSpanOk 384 = true → c.commitCheck rec384 = 0 → c.anyBusy = true → Leaves (.otpCommit ch) s ch (say free 1)) ∧
    (Asks c n 4 → idle → c.dwgSpanOk 384 = true → c.commitCheck rec384 = 0 → c.anyBusy = false →
      ∃ d, Leaves (.otpCommit ch) s ch (say d 0) ∧ Regs [st] { free with fw := { c.fw with otpNew := slice rec384 0 256 } } d ∧ starts d 3) ∧
    (c.dwg Fl.DWG_STATUS_OP = 3 →
      ∃ d, Leaves (.otpProgramDone ch) s ch d ∧ Regs [st] { c with fw := { c.fw with otpNew := [] }, otp := { c.otp with recs := d.otp.recs } } d ∧ ends d ∧
        ∀ o b, c.fw.otpNew[o]? = some b →
          mget (fun _ => (0 : Byte)) d.otp.recs (fieldAt c.fw.otpNew 4 1 * 256 + o) =
            (mget (fun _ => (0 : Byte)) c.otp.recs (fieldAt c.fw.otpNew 4 1 * 256 + o) ||| b)) ∧
    (c.dwg Fl.DWG_STATUS_OP ≠ 3 → Leaves (.otpProgramDone ch) s ch c)

/-- MEND and its steps: the inactive image is verified and its code loaded, then the mend waits at step 3; it parks unless an emergency or a rinse
defers it; at the safe points the banks switch, the directory names the other slot and the mend is DONE; a park too late is tried eight times. -/
def Obligations.Mending : Prop :=
  ∀ (ch : Chan) (n : Nat) (us : BitVec 16) (s : State),
    let c := s.chan ch
    let w := c.rd (Reg.MBX_DATA n)
    let free := c.mbxFree n
    let st := Reg.DWG_STATUS
    let m := c.slotImage (1 - c.activeSlot)
    let bindOk := ∀ i, i < 16 → fieldAt ((imgPart m 4 0).getD []) (4 * i) 4 % 2 ^ 17 = c.rd (Reg.MBX_BIND i)
    let failed (d : Channel) (code : Nat) : Prop := Regs [st] free d ∧ d.dwg Fl.DWG_STATUS_OP = 0 ∧ d.dwg Fl.DWG_STATUS_OPSTAT = 2 ∧ d.dwg Fl.DWG_STATUS_CODE = code
    let idle := c.dwg Fl.DWG_STATUS_OP = 0
    (Asks c n 3 → ¬ idle → Leaves (.mend ch) s ch (free.reply 0x24 w ⟨1, 0⟩)) ∧
    (Asks c n 3 → idle → imageCheck c.genRec m ≠ 0 → ∃ d, Leaves (.mend ch) s ch (d.reply 0x24 w ⟨0, 0⟩) ∧ failed d (imageCheck c.genRec m)) ∧
    (Asks c n 3 → idle → imageCheck c.genRec m = 0 → fieldAt m 0x14 2 ≠ c.fw.handover → ∃ d, Leaves (.mend ch) s ch (d.reply 0x24 w ⟨0, 0⟩) ∧ failed d 11) ∧
    (Asks c n 3 → idle → imageCheck c.genRec m = 0 → fieldAt m 0x14 2 = c.fw.handover → ¬ bindOk →
      ∃ d, Leaves (.mend ch) s ch (d.reply 0x24 w ⟨0, 0⟩) ∧ failed d 10) ∧
    (Asks c n 3 → idle → imageCheck c.genRec m = 0 → fieldAt m 0x14 2 = c.fw.handover → bindOk → c.mendWaits = false →
      ∃ d, Leaves (.mend ch) s ch (d.reply 0x24 w ⟨0, 0⟩) ∧ Regs [st] { free with fw := d.fw } d ∧ d.dwg Fl.DWG_STATUS_OP = 2 ∧ d.fw.mend = 3 ∧ d.fw.tries = 0 ∧
        d.fw.dmem = c.fw.dmem) ∧
    (c.fw.mend = 3 → c.mendWaits = false →
      ∃ d, Leaves (.mendPark ch) s ch d ∧ Regs [st] { c with fw := { c.fw with mend := 4 } } d ∧ d.dwg Fl.DWG_STATUS_DEFERRED = 0) ∧
    (c.fw.mend = 3 → c.mendWaits = true → c.dwg Fl.DWG_STATUS_DEFERRED = 0 →
      ∃ d : Channel, Leaves (.mendPark ch) s ch (d.event 8) ∧ Regs [st, Reg.SEQ_DEFER] c d ∧ d.dwg Fl.DWG_STATUS_DEFERRED = 1 ∧ Counted Reg.SEQ_DEFER 1 c d) ∧
    (c.fw.mend ≠ 3 → Leaves (.mendPark ch) s ch c) ∧
    (c.fw.mend = 5 → Leaves (.mendRetry ch) s ch (Channel.mendPark { c with fw := { c.fw with mend := 3 } })) ∧
    (c.fw.mend ≠ 5 → Leaves (.mendRetry ch) s ch c) ∧
    (c.fw.mend = 4 → c.fw.tries < 7 → Leaves (.mendParkTimeout ch) s ch { c with fw := { c.fw with mend := 5, tries := c.fw.tries + 1 } }) ∧
    (c.fw.mend = 4 → 7 ≤ c.fw.tries →
      ∃ d, Leaves (.mendParkTimeout ch) s ch d ∧ Regs [st] { c with fw := { c.fw with mend := 0, tries := 0 } } d ∧ d.dwg Fl.DWG_STATUS_OP = 0 ∧
        d.dwg Fl.DWG_STATUS_OPSTAT = 2 ∧ d.dwg Fl.DWG_STATUS_CODE = 15) ∧
    (c.fw.mend ≠ 4 → Leaves (.mendParkTimeout ch) s ch c ∧ Leaves (.mendSwitch ch us) s ch c) ∧
    (c.fw.mend = 4 → c.safePoints = false → Leaves (.mendSwitch ch us) s ch c) ∧
    (c.fw.mend = 4 → c.safePoints = true →
      ∃ d : Channel, Leaves (.mendSwitch ch us) s ch (d.event 8) ∧ d = { c with regs := d.regs, fw := d.fw, bflash := d.bflash } ∧ d.fw.mend = 0 ∧
        d.dwg Fl.DWG_STATUS_SLOT = 1 - c.activeSlot ∧ d.dwg Fl.DWG_STATUS_OP = 0 ∧ d.dwg Fl.DWG_STATUS_OPSTAT = 1 ∧ Counted Reg.SEQ_MENDS 1 c d ∧
        d.fld Reg.SEQ_STATE Fl.SEQ_STATE_BANK = 15 - c.fld Reg.SEQ_STATE Fl.SEQ_STATE_BANK ∧ d.rd Reg.DWG_UCVER = fieldAt m 0x10 4 ∧ d.fw.svn = fieldAt m 0xC 4)

/-! ### The module: resets, bridge links, SMBus, pins and supplies -/

namespace Sys2Proof.Says

/-- A channel as a reset leaves it: its registers but the trouble log, the counters of its whole life and the wake pin are as at reset, memory
below LPDDR5X reads 0, its units hold nothing; LPDDR5X, flash blocks, boot flash, the way to the host and the clock stay. -/
def WasReset (c d : Channel) : Prop :=
  d.num = c.num ∧ d.way = c.way ∧ d.vecs = c.vecs ∧ d.ts = c.ts ∧ d.bflash = c.bflash ∧ d.cores = [] ∧ d.faultq = [] ∧ d.cmsgs = [] ∧ d.host = HostSt.reset ∧ d.tat = TatSt.reset ∧
  d.yl = YlSt.reset ∧ d.bkts = [] ∧ d.steps = [] ∧ d.dark = false ∧ d.dwg Fl.DWG_STATUS_PHASE = 0 ∧ d.pst = 0 ∧
  (∀ a, a < lpBase → mget memDefault d.mem a = 0) ∧ (∀ a, lpBase ≤ a → a < flashBase → mget memDefault d.mem a = mget memDefault c.mem a) ∧
  (∀ x : Fin 16, d.ctxState x.val = ctxEmpty) ∧ ∀ a, logReg a = true → d.rd a = c.rd a

/-- Nothing of the module changes but the MOD block, what leaves the module, channel ch (which becomes d), and the count of free values. -/
def ModAnd (s t : State) (ch : Chan) (d : Channel) : Prop :=
  t = { s.setChan ch d with mod := t.mod, out := t.out, free := t.free }

/-- The MOD block changes in MOD_STATUS alone, which becomes v; PF0 sends its vector where it changes and may be sent (R422). -/
def StatusIs (s t : State) (v : Nat) : Prop :=
  t.mrd Reg.MOD_STATUS = v ∧ (∀ a, a ≠ Reg.MOD_STATUS → t.mrd a = s.mrd a) ∧
    t.out = (if v ≠ s.mrd Reg.MOD_STATUS ∧ s.pf0Up = true then [Out.msix 4 0] else []) ++ s.out

end Sys2Proof.Says

/-- Holds, releases and function-level resets: HOLD resets and holds its channel, its end lets it boot, a reset of a channel's function does both and
leaves it running to boot; one of PF0 puts MOD_ARB and the MOD_DROP counters back. -/
def Obligations.ChannelResets : Prop :=
  ∀ (ch : Chan) (s : State),
    let c := s.chan ch
    let held := bit (s.mfld Reg.MOD_CHRST Fl.MOD_CHRST_HOLD) ch.val
    let pf : Fin 5 := ⟨ch.val + 1, by omega⟩
    (s.modUp = true → held = false →
      ∃ t d, exec (.channelHold ch) s = .next t ∧ ModAnd s t ch { d with way := { c.way with held := true } } ∧ WasReset c d ∧
        bit (t.mfld Reg.MOD_CHRST Fl.MOD_CHRST_HOLD) ch.val = true ∧ bit (t.mfld Reg.MOD_STATUS Fl.MOD_STATUS_CH_RUN) ch.val = false) ∧
    (s.modUp = true → held = true → exec (.channelHold ch) s = .next s) ∧
    (s.modUp = true → held = true →
      ∃ t, exec (.channelRelease ch) s = .next t ∧ ModAnd s t ch { c with way := { c.way with held := s.pins.mrst } } ∧ t.out = s.out ∧ t.free = s.free ∧
        bit (t.mfld Reg.MOD_CHRST Fl.MOD_CHRST_HOLD) ch.val = false ∧ ∀ a, a ≠ Reg.MOD_CHRST → t.mrd a = s.mrd a) ∧
    (s.modUp = true → held = false → exec (.channelRelease ch) s = .next s) ∧
    (s.modUp = false → exec (.channelHold ch) s = .next s ∧ exec (.channelRelease ch) s = .next s) ∧
    (s.pins.mrst = false →
      ∃ t d, exec (.functionLevelReset pf) s = .next t ∧ ModAnd s t ch { d with way := { c.way with held := false, d3 := false }, vecs := VecSt.reset } ∧ WasReset c d ∧
        bit (t.mfld Reg.MOD_CHRST Fl.MOD_CHRST_HOLD) ch.val = false ∧ bit (t.mfld Reg.MOD_STATUS Fl.MOD_STATUS_CH_RUN) ch.val = false) ∧
    ∃ t, exec (.functionLevelReset 0) s = .next t ∧ t = { s with mod := t.mod, pins := { s.pins with d3 := false } } ∧
      t.mrd Reg.MOD_ARB = (modDefault Reg.MOD_ARB).toNat ∧ (∀ k, k < 4 → t.mrd (Reg.MOD_DROP k) = 0) ∧
      ∀ a, a ≠ Reg.MOD_ARB → (∀ k, k < 4 → a ≠ Reg.MOD_DROP k) → (a < Reg.MOD_DROP 0 ∨ Reg.MOD_DROP 3 < a) → t.mrd a = s.mrd a

/-- The bridge links. BRIDGE_LINK_DOWN completes where the link is up, the channel not in C4 and the conversion on: it shows as CH_LINK 0 and, unless the
channel is held, CH_FAULT 1. BRIDGE_LINK_UP completes where MRST_N is high and the conversion on: CH_LINK 1. BRIDGE_LOST completes where the link is down, the
channel neither held nor in C4, and the conversion on: a fault of the bridge endpoint and CH_FAULT 1. PF0 sends its vector 0 as the status changes. Elsewhere the
three cannot occur and have no effect (the model's choice, log 40). -/
def Sys2Proof.Says.BridgeLinks : Prop :=
  ∀ (ch : Chan) (s : State),
    let c := s.chan ch
    let x := s.mrd Reg.MOD_STATUS
    let down : Channel := { c with way := { c.way with link := false } }
    let cut := setBits x (4 + ch.val) 1 0
    let vec (a b : Nat) : List Out := if a ≠ b ∧ s.pf0Up = true then [Out.msix 4 0] else []
    (c.way.link = true → c.pst ≠ 4 → s.pins.conv = true → c.way.held = true →
      ∃ t, exec (.bridgeLinkDown ch) s = .next t ∧ ModAnd s t ch down ∧ t.free = s.free ∧ StatusIs s t cut) ∧
    (c.way.link = true → c.pst ≠ 4 → s.pins.conv = true → c.way.held = false →
      ∃ t, exec (.bridgeLinkDown ch) s = .next t ∧ ModAnd s t ch down ∧ t.free = s.free ∧
        t.mrd Reg.MOD_STATUS = setBits cut (8 + ch.val) 1 1 ∧ (∀ a, a ≠ Reg.MOD_STATUS → t.mrd a = s.mrd a) ∧
        t.out = vec cut (setBits cut (8 + ch.val) 1 1) ++ (vec x cut ++ s.out)) ∧
    (c.way.link = false ∨ c.pst = 4 ∨ s.pins.conv = false → exec (.bridgeLinkDown ch) s = .next s) ∧
    (s.pins.mrst = false → s.pins.conv = true →
      ∃ t, exec (.bridgeLinkUp ch) s = .next t ∧ ModAnd s t ch { c with way := { c.way with link := true } } ∧ t.free = s.free ∧
        StatusIs s t (setBits x (4 + ch.val) 1 1)) ∧
    (s.pins.mrst = true ∨ s.pins.conv = false → exec (.bridgeLinkUp ch) s = .next s) ∧
    (c.way.link = false → c.way.held = false → c.pst ≠ 4 → s.pins.conv = true →
      ∃ t m, exec (.bridgeLost ch) s = .next t ∧ ModAnd s t ch { c with faultq := c.faultq ++ [m] } ∧ t.free = s.free ∧
        m = mkFault 105 fcBridgeLost none 0 0 ∧ StatusIs s t (setBits x (8 + ch.val) 1 1)) ∧
    (c.way.link = true ∨ c.way.held = true ∨ c.pst = 4 ∨ s.pins.conv = false → exec (.bridgeLost ch) s = .next s)

/-- SMBus reads (R32, R502). MODULE_ID, MODULE_STATUS, SERIAL, DIE_TEMP, VIN, IIN and PIN each complete in every state: while 3V3_AUX is applied the target, at
address 58H plus the address straps as sampled, returns its value and changes nothing else, and where the controller clocks one more byte, one that makes the packet
error code of the whole transfer 0; without the conversion the temperatures read 8000H and the current and power 0. SMBUS_NACK completes in every state: the transfer is
not acknowledged. Without 3V3_AUX none of them has an effect. -/
def Sys2Proof.Says.SmbusReads : Prop :=
  ∀ (ch : Chan) (v : BitVec 16) (s : State),
    let c := s.chan ch
    let at7 := 0x58 + s.pins.sampled.toNat % 4
    let read (code : Nat) (block : Bool) (mk : Bool → Instr) (l : List Byte) : Prop :=
      exec (mk false) s = .next { s with out := .smbus at7 l :: s.out } ∧
      ∃ e : Byte, exec (mk true) s = .next { s with out := .smbus at7 (l ++ [e]) :: s.out } ∧
        ([2 * at7, code, 2 * at7 + 1] ++ (if block then [l.length] else []) ++ l.map (·.toNat) ++ [e.toNat]).foldl pecByte 0 = 0
    let hot := max (signed 12 (c.hf 0 Fl.PWR_HALF_TEMP)) (signed 12 (c.hf 1 Fl.PWR_HALF_TEMP))
    (s.pins.aux = true →
      read 0x00 true (.moduleId ·) (leBytes 4 (setBits (s.mrd Reg.MOD_ID) 8 2 s.ch0.otp.grade)) ∧
      read 0x01 true (.moduleStatus ·) (leBytes 4 (s.mrd Reg.MOD_STATUS)) ∧
      read 0x02 true (.serial ·) (leBytes 4 (s.mrd (Reg.MOD_SERIAL 0)) ++ leBytes 4 (s.mrd (Reg.MOD_SERIAL 1)) ++ leBytes 4 (s.mrd (Reg.MOD_SERIAL 2)) ++
        leBytes 4 (s.mrd (Reg.MOD_SERIAL 3))) ∧
      (s.pins.conv = true → read (0x10 + ch.val) false (.dieTemp ch ·) (leBytes 2 (hot % 65536).toNat) ∧ read 0x21 false (.iin v ·) (leBytes 2 v.toNat) ∧
        read 0x22 false (.pin v ·) (leBytes 2 v.toNat)) ∧
      (s.pins.conv = false → read (0x10 + ch.val) false (.dieTemp ch ·) [0x00, 0x80] ∧ read 0x21 false (.iin v ·) [0, 0] ∧ read 0x22 false (.pin v ·) [0, 0]) ∧
      read 0x20 false (.vin v ·) (leBytes 2 v.toNat) ∧
      exec .smbusNack s = .next { s with out := .nack :: s.out }) ∧
    (s.pins.aux = false → ∀ pec, ∀ i ∈ [Instr.moduleId pec, .moduleStatus pec, .serial pec, .dieTemp ch pec, .vin v pec, .iin v pec, .pin v pec, .smbusNack],
      exec i s = .next s)

/-- What a stop of the conversion leaves of channel c: its flash, as far as it was durable, boot flash, OTP and the registers of its whole life (R40, R504). -/
def Sys2Proof.Says.WentDark (c d : Channel) : Prop :=
  d.num = c.num ∧ d.way = HostLink.reset ∧ d.vecs = VecSt.reset ∧ d.ts = 0 ∧ d.cores = [] ∧ d.faultq = [] ∧ d.cmsgs = [] ∧ d.host = HostSt.reset ∧
  d.bflash = c.bflash ∧ (c.dwg Fl.DWG_STATUS_OP ≠ 3 → d.otp = c.otp) ∧ (∀ a, a < flashBase → mget memDefault d.mem a = 0) ∧
  (∀ x : Fin 16, d.ctxState x.val = ctxEmpty) ∧
  (c.flash.buf = [] → (∀ a, flashBase ≤ a → mget memDefault d.mem a = mget memDefault c.mem a) ∧ d.flash.blocks = c.flash.blocks ∧
    ∀ a, lifeReg a = true → d.rd a = c.rd a)

/-- The input and the pins (R401, R500, R501, R504, R505). VIN48_VALID completes where MRST_N is high, PRSNT_N closed and the conversion off: it starts the conversion and
samples the straps. VIN48_LOSS and PRSNT_OPEN while the conversion is on take every channel and the bridge die down to what is durable. MRST_ASSERT completes while the
conversion is on: the bridge die and every channel are reset and held; MRST_DEASSERT where MRST_N is low: the channels are free, the straps sampled. PERST_ASSERT disables every queue
of every channel, discards completions and resets the MSI-X state, and PERST_DEASSERT, PCIE_LINK_UP (PERST# and MRST_N high, conversion on) and D3HOT open and close the way.
PRSNT_CLOSE and AUX_SUPPLY_CHANGE complete in every state, VIN_OK_CHANGE while the
conversion is on; where it is so already, a row has no further effect. -/
def Sys2Proof.Says.PinsAndSupplies : Prop :=
  ∀ (ch : Chan) (b : Bool) (s : State),
    let c := s.chan ch
    let p := s.pins
    let dead (i : Instr) (prsnt : Bool) : Prop := ∃ t, exec i s = .next t ∧ t.pins = { p with conv := false, d3 := false, prsnt := prsnt } ∧ t.mod = [] ∧ t.out = s.out ∧
      t.pending = s.pending ∧ WentDark c (t.chan ch)
    let queueRegs (a : Nat) : Prop := ∃ q, q < 64 ∧ (a = Reg.HIF_SQ_CFG q ∨ a = Reg.HIF_CQ_CFG q)
    (p.conv = false → p.mrst = false → p.prsnt = true →
      ∃ t, exec .vin48Valid s = .next t ∧ t = { s with mod := t.mod, out := t.out, pins := { p with conv := true, sampled := p.straps } } ∧ t.mfld Reg.MOD_STATUS Fl.MOD_STATUS_VIN_OK = 1 ∧
        (∀ a, a ≠ Reg.MOD_STATUS → t.mrd a = s.mrd a) ∧ t.mrd Reg.MOD_STATUS = setBits (s.mrd Reg.MOD_STATUS) 12 1 1) ∧
    (p.conv = true ∨ p.mrst = true ∨ p.prsnt = false → exec .vin48Valid s = .next s) ∧
    (p.conv = true → dead .vin48Loss p.prsnt ∧ dead .prsntOpen false) ∧
    (p.conv = false → exec .vin48Loss s = .next s ∧ exec .prsntOpen s = .next { s with pins := { p with prsnt := false } }) ∧
    exec .prsntClose s = .next { s with pins := { p with prsnt := true } } ∧
    exec (.auxSupplyChange b) s = .next { s with pins := { p with aux := b } } ∧
    (p.conv = true → ∃ t, exec (.vinOkChange b) s = .next t ∧ t = { s with mod := t.mod, out := t.out } ∧ StatusIs s t (setBits (s.mrd Reg.MOD_STATUS) 12 1 (b2n b))) ∧
    (p.conv = false → exec (.vinOkChange b) s = .next s) ∧
    (p.mrst = false → p.conv = true →
      ∃ t, exec .mrstAssert s = .next t ∧ t.pins = { p with mrst := true, d3 := false } ∧ t.out = s.out ∧ t.pending = s.pending ∧
        (∃ d, WasReset c d ∧ t.chan ch = { d with way := ⟨true, false, false, false⟩, vecs := VecSt.reset }) ∧
        t.mrd Reg.MOD_STATUS = s.mfld Reg.MOD_STATUS Fl.MOD_STATUS_VIN_OK * 2 ^ 12 ∧ ∀ a, a ≠ Reg.MOD_STATUS → t.mrd a = (modDefault a).toNat) ∧
    (p.mrst = true ∨ p.conv = false → exec .mrstAssert s = .next { s with pins := { p with mrst := true } }) ∧
    (p.mrst = true → ∃ t, exec .mrstDeassert s = .next t ∧ t.pins = { p with mrst := false, sampled := p.straps } ∧ t.mod = s.mod ∧ t.out = s.out ∧ t.free = s.free ∧
      t.pending = s.pending ∧ t.chan ch = { c with way := { c.way with held := false } }) ∧
    (p.mrst = false → exec .mrstDeassert s = .next s) ∧
    (∃ t, exec .perstAssert s = .next t ∧ t.pins = { p with perst := true, d3 := false } ∧ t.mod = s.mod ∧ t.out = s.out ∧ t.free = s.free ∧ t.pending = s.pending ∧
      t.chan ch = { c with regs := (t.chan ch).regs, way := { c.way with pcie := false, d3 := false }, vecs := VecSt.reset,
                           host := { c.host with cmds := c.host.cmds.map (fun k => { k with cq := 64 }), compl := [], marks := [], uncovered := [] } } ∧
      (∀ a, ¬ queueRegs a → (t.chan ch).rd a = c.rd a) ∧
      ∀ q, q < 64 → (t.chan ch).sqOn q = false ∧ (t.chan ch).cqOn q = false ∧ FieldsBut (Reg.HIF_SQ_CFG q) Fl.HIF_SQ_CFG_EN c (t.chan ch) ∧
        FieldsBut (Reg.HIF_CQ_CFG q) Fl.HIF_CQ_CFG_EN c (t.chan ch)) ∧
    exec .perstDeassert s = .next { s with pins := { p with perst := false } } ∧
    (p.perst = false → p.mrst = false → p.conv = true →
      ∃ t, exec .pcieLinkUp s = .next t ∧ t.pins = p ∧ t.mod = s.mod ∧ t.out = s.out ∧ t.free = s.free ∧ t.pending = s.pending ∧
        t.chan ch = { c with way := { c.way with pcie := true } }) ∧
    (p.perst = true ∨ p.mrst = true ∨ p.conv = false → exec .pcieLinkUp s = .next s) ∧
    exec (.d3hot 0 b) s = .next { s with pins := { p with d3 := b } } ∧
    exec (.d3hot ⟨ch.val + 1, by omega⟩ b) s = .next (s.setChan ch { c with way := { c.way with d3 := b } })

/-- The module. -/
def Obligations.ModuleLines : Prop := Says.BridgeLinks ∧ Says.SmbusReads ∧ Says.PinsAndSupplies

/-! ### Power -/

namespace Sys2Proof.Says

/-- The write of PWR_REQ with each target. -/
def pwrRow (ch : Chan) (m : Master) (v : Word) : Nat → Instr
  | 2 => .pwrC2 ch m v
  | 3 => .pwrC3 ch m v
  | 4 => .pwrC4 ch m v
  | _ => .pwrGate ch m v

/-- A refusal has been counted and, unless one stands, recorded: register a counts; refuser, requester, reason and target as given, kind 1 for a DVFS order. -/
def Refused (a refuser who reason target kind : Nat) (c d : Channel) : Prop :=
  let r := Reg.PWR_REFREC
  Regs [a, r] c d ∧ Counted a 1 c d ∧
    (c.fld r Fl.PWR_REFREC_VALID = 0 → d.fld r Fl.PWR_REFREC_VALID = 1 ∧ d.fld r Fl.PWR_REFREC_REFUSER = refuser % 2 ^ 8 ∧
      d.fld r Fl.PWR_REFREC_REQUESTER = who % 2 ^ 8 ∧ d.fld r Fl.PWR_REFREC_REASON = reason % 2 ^ 4 ∧ d.fld r Fl.PWR_REFREC_TARGET = target % 2 ^ 3 ∧ d.fld r Fl.PWR_REFREC_KIND = kind) ∧
    (c.fld r Fl.PWR_REFREC_VALID = 1 → d.rd r = c.rd r)

/-- An entry has been given up at abort point ap because of wake event (src, port): counted and, unless one stands, recorded; PSEQ is not busy. -/
def Aborted (target ap src port : Nat) (c d : Channel) : Prop :=
  let r := Reg.PWR_ABREC
  d = { c with regs := d.regs, cmsgs := d.cmsgs, pwr := { c.pwr with entry := none, acks := d.pwr.acks } } ∧ (∀ a, a ∉ [Reg.PWR_STATUS, Reg.PWR_ABORTED, r] → d.rd a = c.rd a) ∧
    d.fld Reg.PWR_STATUS Fl.PWR_STATUS_BUSY = 0 ∧ d.pst = c.pst ∧ Counted Reg.PWR_ABORTED 1 c d ∧
    (c.fld r Fl.PWR_ABREC_VALID = 0 → d.fld r Fl.PWR_ABREC_VALID = 1 ∧ d.fld r Fl.PWR_ABREC_SOURCE = src ∧ d.fld r Fl.PWR_ABREC_TARGET = target ∧
      d.fld r Fl.PWR_ABREC_AP = ap ∧ d.fld r Fl.PWR_ABREC_PORT = port) ∧
    (c.fld r Fl.PWR_ABREC_VALID = 1 → d.rd r = c.rd r)

/-- Message m of PSEQ is on its way at c, and d is c without it but for the parts of `f`. -/
def Took (m : CMsg) (c : Channel) : Channel := { c with cmsgs := eraseFirst m c.cmsgs }

/-- A fault with code and node of the power sequencer is on its way. -/
def PwrRaises (i : Instr) (s : State) (ch : Chan) (code arg : Nat) : Prop :=
  ∃ m, Leaves i s ch { s.chan ch with faultq := (s.chan ch).faultq ++ [m] } ∧ m.code.toNat = code ∧ m.node.val = 102 ∧ m.ctxv = false ∧ m.arg0.toNat = arg

end Sys2Proof.Says

/-- Requests for power states: an entry that R480 refuses is counted, recorded and told; an accepted one begins, BUSY, QUIESCE going out at once for C2; gating
sends GATE and UNGATE for the halves that change; an exit ends a state, or marks the entry under way. -/
def Obligations.PowerRequests : Prop :=
  ∀ (ch : Chan) (m : Master) (v : Word) (t : Nat) (e : PwrEntry) (s : State),
    let c := s.chan ch
    let id := masterId c.num m
    let st := Reg.PWR_STATUS
    let on := halfSites 3 |>.filter c.usable
    let h := bits v.toNat 3 2
    let up := h &&& (3 - c.gated)
    let dn := c.gated &&& (3 - h)
    Lands s ch m Reg.PWR_REQ →
    (1 ≤ t → t ≤ 4 → ∀ who why, c.entryCheck t = some (who, why) →
      ∃ d : Channel, LeavesF 128 (pwrRow ch m v t) s ch (d.event 6) ∧ Refused Reg.PWR_REFUSED who id why t 0 c d) ∧
    (c.entryCheck 2 = none →
      ∃ d, LeavesF 128 (.pwrC2 ch m v) s ch d ∧
        Regs [st] { c with cmsgs := c.cmsgs ++ on.map (fun i => pwrMsg i 4 0), pwr := { c.pwr with entry := some ⟨2, id, 3, none⟩, acks := c.pwr.acks ++ on.map (fun i => (i, 4)) } } d ∧
        d.fld st Fl.PWR_STATUS_BUSY = 1 ∧ FieldsBut st Fl.PWR_STATUS_BUSY c d) ∧
    (t = 3 ∨ t = 4 → c.entryCheck t = none →
      ∃ d, LeavesF 128 (pwrRow ch m v t) s ch d ∧ Regs [st] { c with pwr := { c.pwr with entry := some ⟨t, id, 1, none⟩ } } d ∧
        d.fld st Fl.PWR_STATUS_BUSY = 1 ∧ FieldsBut st Fl.PWR_STATUS_BUSY c d) ∧
    (c.entryCheck 1 = none →
      ∃ d, LeavesF 128 (.pwrGate ch m v) s ch d ∧ d = { c with cmsgs := d.cmsgs, pwr := { c.pwr with acks := d.pwr.acks } } ∧
        d.cmsgs = c.cmsgs ++ (if up = 0 then [] else [pwrMsg 127 0 up]) ++ if dn = 0 then [] else [pwrMsg 127 1 dn]) ∧
    (c.pwr.stop = false → c.pwr.removed = false → c.pwr.entry = none → c.pwr.exit = false → c.pst = 1 ∨ c.pst = 2 ∨ c.pst = 3 →
      ∃ d, LeavesF 128 (.pwrExit ch m v) s ch d ∧ Regs [st] { c with cmsgs := d.cmsgs, pwr := { c.pwr with exit := true, acks := d.pwr.acks } } d ∧
        d.fld st Fl.PWR_STATUS_BUSY = 1 ∧ d.pst = c.pst ∧
        d.cmsgs = c.cmsgs ++ (if c.gated = 0 then [] else [pwrMsg 127 1 c.gated]) ++
          if c.pst = 1 then [] else pwrMsg 127 3 3 :: on.map (fun i => pwrMsg i 5 0)) ∧
    (c.pwr.stop = false → c.pwr.removed = false → c.pwr.entry = some e → e.wake = none →
      LeavesF 128 (.pwrExit ch m v) s ch { c with pwr := { c.pwr with entry := some { e with wake := some (2, 0) } } }) ∧
    (c.pwr.entry = none → c.pst = 0 → LeavesF 128 (.pwrExit ch m v) s ch c)

/-- The steps of an entry: step 2 ends with no command in progress, then the flash is flushed and QUIESCE goes out; a drain too late refuses; step 4 ends
with every acknowledgement; step 7 enters the state. A wake event undoes the entry at the next abort point. The end of an exit is C0, from C4 a reset. -/
def Obligations.PowerEntrySteps : Prop :=
  ∀ (ch : Chan) (e : PwrEntry) (s : State),
    let c := s.chan ch
    let st := Reg.PWR_STATUS
    let on := halfSites 3 |>.filter c.usable
    let src := (e.wake.getD (0, 0)).1
    let port := (e.wake.getD (0, 0)).2
    let clean := c.flash.buf = [] ∨ c.fstat Fl.FLASH_STATUS_FAILED = true ∨ c.fstat Fl.FLASH_STATUS_RO = true
    let at0 (d : Channel) : Prop := d.fld st Fl.PWR_STATUS_BUSY = 0 ∧ d.pwr.entry = none ∧ d.gated = 0
    (c.pwr.entry = some e → e.target ≤ 4 → src ≤ 3 → port ≤ 5 →
      (e.step = 1 → c.host.cmds = [] → e.wake = none → clean →
        ∃ d, Leaves (.entryDrainDone ch) s ch d ∧ d.pwr.entry = some { e with step := 3 } ∧ d.cmsgs = c.cmsgs ++ on.map (fun i => pwrMsg i 4 0) ∧
          d.pwr.acks = c.pwr.acks ++ on.map (fun i => (i, 4)) ∧ d.mem = c.mem ∧ d.cores = c.cores ∧ d.regs = c.regs) ∧
      (e.step = 1 → c.host.cmds = [] → e.wake = none → ¬ clean →
        ∃ d, Leaves (.entryDrainDone ch) s ch d ∧ d.pwr = { c.pwr with entry := some { e with step := 2 } } ∧ d.mem = c.mem ∧ d.cmsgs = c.cmsgs) ∧
      (e.step = 1 → c.host.cmds = [] → e.wake ≠ none → ∃ d : Channel, Leaves (.entryDrainDone ch) s ch (d.event 6) ∧ Aborted e.target 2 src port c d) ∧
      (e.step ≠ 1 ∨ c.host.cmds ≠ [] → Leaves (.entryDrainDone ch) s ch c) ∧
      (e.step = 1 → c.host.cmds ≠ [] →
        ∃ d1 d : Channel, Leaves (.entryDrainTimeout ch) s ch (d.event 6) ∧ Refused Reg.PWR_REFUSED 0x20 e.who 1 e.target 0 d1 d ∧
          Regs [st] { c with cmsgs := d.cmsgs, pwr := { c.pwr with entry := none, acks := d.pwr.acks } } d1 ∧ d.fld st Fl.PWR_STATUS_BUSY = 0) ∧
      (e.step ≠ 1 ∨ c.host.cmds = [] → Leaves (.entryDrainTimeout ch) s ch c) ∧
      (e.step = 3 → c.pwr.acks.any (fun a => a.2 == 4) = false → e.wake = none → e.target = 2 →
        ∃ d, Leaves (.entryQuiesced ch) s ch d ∧ d = { c with cmsgs := c.cmsgs ++ [pwrMsg 127 2 3], pwr := { c.pwr with entry := some { e with step := 4 }, acks := d.pwr.acks } }) ∧
      (e.step = 3 → c.pwr.acks.any (fun a => a.2 == 4) = false → e.wake = none → 3 ≤ e.target →
        ∃ d, Leaves (.entryQuiesced ch) s ch d ∧ d.pwr.entry = some { e with step := 4 } ∧ d.cmsgs.getLast? = some (pwrMsg 127 2 3) ∧ d.mem = c.mem ∧
          ∀ n, n < 64 → d.winOpen n = false) ∧
      (e.step = 3 → c.pwr.acks.any (fun a => a.2 == 4) = false → e.wake ≠ none →
        ∃ d : Channel, Leaves (.entryQuiesced ch) s ch (d.event 6) ∧ Aborted e.target 4 src port c d) ∧
      (e.step ≠ 3 ∨ c.pwr.acks.any (fun a => a.2 == 4) = true → Leaves (.entryQuiesced ch) s ch c) ∧
      (c.pwr.stop = false → e.step = 4 → pwrMsg 127 2 3 ∉ c.cmsgs → e.wake = none → e.target = 2 →
        ∃ d : Channel, LeavesF 128 (.powerEntryDone ch) s ch (d.event 6) ∧ Regs [st, Reg.PWR_ENTRIES] { c with pwr := { c.pwr with entry := none, acks := [] } } d ∧ at0 d ∧
          d.pst = 2 ∧ Counted Reg.PWR_ENTRIES 1 c d) ∧
      (c.pwr.stop = false → e.step = 4 → pwrMsg 127 2 3 ∉ c.cmsgs → e.wake = none → e.target = 3 ∨ e.target = 4 →
        ∃ d : Channel, LeavesF 128 (.powerEntryDone ch) s ch (d.event 6) ∧ at0 d ∧ d.pst = e.target ∧ d.cores = [] ∧ Counted Reg.PWR_ENTRIES 1 c d ∧
          (∀ a, a < lpBase → mget memDefault d.mem a = 0) ∧
          ∀ a, lpBase ≤ a → a < flashBase → mget memDefault d.mem a = if e.target = 3 then mget memDefault c.mem a else 0) ∧
      (c.pwr.stop = false → e.step ≠ 4 → LeavesF 128 (.powerEntryDone ch) s ch c)) ∧
    (c.pwr.stop = true → c.rphase = 0 → c.pst ≠ 4 → ∃ d : Channel, LeavesF 128 (.powerEntryDone ch) s ch (d.event 6) ∧ d.pst = 4) ∧
    (c.pwr.stop = true → c.rphase ≠ 0 ∨ c.pst = 4 → LeavesF 128 (.powerEntryDone ch) s ch c) ∧
    (c.pwr.stop = false → c.pwr.entry = none → LeavesF 128 (.powerEntryDone ch) s ch c) ∧
    (c.pwr.entry = none → Leaves (.entryDrainDone ch) s ch c ∧ Leaves (.entryDrainTimeout ch) s ch c ∧ Leaves (.entryQuiesced ch) s ch c) ∧
    (c.pwr.exit = true → c.pst = 1 → c.pwr.waits = [] →
      ∃ d : Channel, LeavesF 128 (.powerExitDone ch) s ch (d.event 6) ∧ d.pst = 0 ∧ d.gated = 0 ∧ d.fld st Fl.PWR_STATUS_BUSY = 0 ∧ d.mem = c.mem ∧
        d.pwr = { c.pwr with exit := false, acks := [] } ∧ ∀ i, i ∈ on → (d.core i).quiet = false) ∧
    (c.pwr.exit = true → c.pst = 4 → exec (.powerExitDone ch) s = .next (s.chanReset ch)) ∧
    (c.pwr.exit = false → exec (.powerExitDone ch) s = .next s)

/-- What an error makes of a POWER message to node dst (R63): corrected, it is counted and the message acts; uncorrectable, the message is lost and the node raises it. -/
def EccOf (mk : Ecc → Instr) (ch : Chan) (dst cmd arg : Nat) (s : State) : Prop :=
  let c := s.chan ch
  let m := pwrMsg dst cmd arg
  c.msgNext m = true →
    exec (mk .single) s = exec (mk .clean) (s.setChan ch (c.addFld Reg.CNET_CORR Fl.CNET_CORR_CORR 1)) ∧
    ∃ f, Leaves (mk .double) s ch { Took m c with faultq := c.faultq ++ [f] } ∧ f.code.toNat = fcCnetUncorr ∧ f.node.val = dst ∧ f.arg0.toNat = dst ∧
      m = .power (f.arg1.setWidth 32) []

/-- POWER messages, each taken where it is the oldest of its way: GATE and UNGATE change the gated set and with it C0 and C1; ISLAND_OFF loses array and bobbins,
ISLAND_ON brings the scratchpad back as far as it was retained; QUIESCE and RESUME stop and free a core, and at a core out of service are lost and counted; an acknowledgement
counts once its command has arrived. A message that is not next has no effect; an error is corrected and counted, or loses the message. -/
def Sys2Proof.Says.PowerMessages : Prop :=
  ∀ (ch : Chan) (hv : BitVec 2) (site : Site) (node : Fin 128) (cmd : BitVec 4) (ecc : Ecc) (s : State),
    let c := s.chan ch
    let st := Reg.PWR_STATUS
    let h := hv.toNat
    let sent (k : Nat) : Prop := c.msgNext (pwrMsg 127 k h) = true
    let took (k : Nat) : Channel := Took (pwrMsg 127 k h) c
    let gates (i : Instr) (k g : Nat) : Prop :=
      ∃ d : Channel, Leaves i s ch (if c.pst < 2 ∧ d.pst ≠ c.pst then d.event 6 else d) ∧ Regs [st] (took k) d ∧ d.gated = g ∧
        d.pst = (if 2 ≤ c.pst then c.pst else if g = 0 then 0 else 1) ∧ d.fld st Fl.PWR_STATUS_BUSY = c.fld st Fl.PWR_STATUS_BUSY
    let mine (i : Nat) : Prop := i ∈ halfSites h ∧ c.usable i = true
    let bobbed (a : Nat) : Prop := ∃ i, mine i ∧ bobBase i ≤ a ∧ a < bobBase (i + 1)
    let lost (a : Nat) : Prop := ∃ i g, mine i ∧ g < 16 ∧ bit (c.spretEff i) g = false ∧ spadBase i + g * 0x2_0000 ≤ a ∧ a < spadBase i + (g + 1) * 0x2_0000
    let order (k : Nat) (q : Bool) (mk : Ecc → Instr) : Prop :=
      let x := pwrMsg site.val k 0
      let d := Took x c
      (c.msgNext x = true → c.usable site.val = true → Leaves (mk .clean) s ch (d.setCore site.val { c.core site.val with quiet := q })) ∧
      (c.msgNext x = true → c.usable site.val = false → Leaves (mk .clean) s ch (d.addFld Reg.CNET_CORR Fl.CNET_CORR_LOST 1)) ∧
      (c.msgNext x = false → Leaves (mk ecc) s ch c) ∧ EccOf mk ch site.val k 0 s
    (sent 0 → gates (.gate ch hv .clean) 0 (c.gated ||| h)) ∧ (¬ sent 0 → Leaves (.gate ch hv ecc) s ch c) ∧ EccOf (.gate ch hv ·) ch 127 0 h s ∧
    (sent 1 → gates (.ungate ch hv .clean) 1 (c.gated &&& (3 - h))) ∧ (¬ sent 1 → Leaves (.ungate ch hv ecc) s ch c) ∧ EccOf (.ungate ch hv ·) ch 127 1 h s ∧
    (sent 2 → ∃ d, Leaves (.islandOff ch hv .clean) s ch d ∧ d = { took 2 with mem := d.mem, cores := d.cores } ∧
      (∀ i, mine i → (d.core i).arr = Arr.reset) ∧ (∀ i, ¬ mine i → d.core i = c.core i) ∧
      (∀ a, bobbed a → mget memDefault d.mem a = 0) ∧ ∀ a, ¬ bobbed a → mget memDefault d.mem a = mget memDefault c.mem a) ∧
    (¬ sent 2 → Leaves (.islandOff ch hv ecc) s ch c) ∧ EccOf (.islandOff ch hv ·) ch 127 2 h s ∧
    (sent 3 → c.pst = 2 → ∃ d, Leaves (.islandOn ch hv .clean) s ch d ∧ d = { took 3 with mem := d.mem } ∧
      (∀ a, lost a → mget memDefault d.mem a = 0) ∧ ∀ a, ¬ lost a → mget memDefault d.mem a = mget memDefault c.mem a) ∧
    (sent 3 → c.pst ≠ 2 → Leaves (.islandOn ch hv .clean) s ch (took 3)) ∧ (¬ sent 3 → Leaves (.islandOn ch hv ecc) s ch c) ∧ EccOf (.islandOn ch hv ·) ch 127 3 h s ∧
    order 4 true (.quiesce ch site ·) ∧ order 5 false (.resume ch site ·) ∧
    ((node.val, cmd.toNat) ∈ c.pwr.acks → (∀ x l, CMsg.power x l ∈ c.cmsgs → bits x.toNat 0 4 ≠ cmd.toNat ∨ bits x.toNat 22 7 ≠ node.val ∧ bits x.toNat 22 7 ≠ 127) →
      cmd.toNat ≠ 4 ∨ (c.core node.val).idle = true →
      Leaves (.ack ch node cmd .clean) s ch { c with pwr := { c.pwr with acks := eraseFirst (node.val, cmd.toNat) c.pwr.acks } } ∧
      exec (.ack ch node cmd .single) s = exec (.ack ch node cmd .clean) (s.setChan ch (c.addFld Reg.CNET_CORR Fl.CNET_CORR_CORR 1)) ∧
      ∃ f, Leaves (.ack ch node cmd .double) s ch { c with faultq := c.faultq ++ [f] } ∧ f.code.toNat = fcCnetUncorr ∧ f.node.val = 102) ∧
    ((node.val, cmd.toNat) ∉ c.pwr.acks → Leaves (.ack ch node cmd ecc) s ch c)

/-- Wakes: the pin wakes once per assertion where PINEN is set, an access to what sleeps is counted and wakes; automatic gating sends GATE; the rails go
after a STOP fault that has not reached C4; a rail fault and a PLL that loses lock are raised. -/
def Sys2Proof.Says.WakesAndRails : Prop :=
  ∀ (ch : Chan) (us : BitVec 16) (east : Bool) (rail : Fin 8) (pll : Fin 6) (s : State),
    let c := s.chan ch
    let st := Reg.PWR_STATUS
    let up := c.setFld st Fl.PWR_STATUS_PIN 1
    let h := if east then 2 else 1
    (c.pwr.armed = true → c.fld Reg.PWR_WAKECFG Fl.PWR_WAKECFG_PINEN = 1 →
      Leaves (.wakePin ch) s ch (Channel.wakeEvent { up with pwr := { up.pwr with armed := false } } 0 0)) ∧
    (c.pwr.armed = true → c.fld Reg.PWR_WAKECFG Fl.PWR_WAKECFG_PINEN = 0 →
      ∃ d, Leaves (.wakePin ch) s ch d ∧ Regs [st] { c with pwr := { c.pwr with armed := false } } d ∧ d.fld st Fl.PWR_STATUS_PIN = 1 ∧ FieldsBut st Fl.PWR_STATUS_PIN c d) ∧
    (c.pwr.armed = false → ∃ d, Leaves (.wakePin ch) s ch d ∧ Regs [st] c d ∧ d.fld st Fl.PWR_STATUS_PIN = 1 ∧ FieldsBut st Fl.PWR_STATUS_PIN c d) ∧
    (∃ d, Leaves (.wakePinDeassert ch) s ch d ∧ Regs [st] { c with pwr := { c.pwr with armed := true } } d ∧ d.fld st Fl.PWR_STATUS_PIN = 0 ∧
      FieldsBut st Fl.PWR_STATUS_PIN c d) ∧
    (c.pst ≠ 0 → c.pst ≠ 4 →
      ∃ d : Channel, Leaves (.demandWake ch us) s ch (d.wakeEvent 3 0) ∧ Regs [Reg.PWR_DEMAND, Reg.PWR_DEMMAX] c d ∧ Counted Reg.PWR_DEMAND 1 c d ∧
        d.fld Reg.PWR_DEMMAX Fl.PWR_DEMMAX_US = max (c.fld Reg.PWR_DEMMAX Fl.PWR_DEMMAX_US) us.toNat) ∧
    (c.pst = 0 ∨ c.pst = 4 → Leaves (.demandWake ch us) s ch c) ∧
    (c.fld Reg.PWR_CTRL Fl.PWR_CTRL_AUTOC1 = 1 → c.entryCheck 1 = none → c.gated &&& h = 0 →
      ∃ d, Leaves (.autoGate ch east) s ch d ∧ d = { c with cmsgs := c.cmsgs ++ [pwrMsg 127 0 h], pwr := { c.pwr with acks := d.pwr.acks } }) ∧
    (c.fld Reg.PWR_CTRL Fl.PWR_CTRL_AUTOC1 = 0 ∨ c.entryCheck 1 ≠ none ∨ c.gated &&& h ≠ 0 → Leaves (.autoGate ch east) s ch c) ∧
    (c.pwr.stop = true → c.pst ≠ 4 →
      ∃ d, LeavesF 128 (.aonRailRemove ch) s ch d ∧ d.pst = 4 ∧ d.pwr.removed = true ∧ d.cores = [] ∧ d.gated = 0 ∧ (∀ a, logReg a = true → d.rd a = c.rd a) ∧
        ∀ a, a < flashBase → mget memDefault d.mem a = 0) ∧
    (c.pwr.stop = false ∨ c.pst = 4 → LeavesF 128 (.aonRailRemove ch) s ch c) ∧
    PwrRaises (.railFault ch rail) s ch fcRailFault rail.val ∧ PwrRaises (.pllUnlock ch pll) s ch fcPllUnlock pll.val

/-- POWER messages, wakes, automatic gating, rails and clocks. -/
def Obligations.PowerMessagesAndWakes : Prop := Says.PowerMessages ∧ Says.WakesAndRails

/-- Voltage, frequency and temperature: an accepted order is a transition under way whose two changes take effect one at a time in the order of R488; a sample is shown, and at
THROT, at an input alarm or a rail over its limit the half's cap goes to 4 at once; the cap steps as R492 says. -/
def Obligations.FrequencyAndHeat : Prop :=
  ∀ (ch : Chan) (m : Master) (east : Bool) (v : Word) (w e : BitVec 12) (t : Dvfs) (dv vs : Nat) (s : State),
    let c := s.chan ch
    let h := b2n east
    let a := Reg.PWR_HALF h
    let hs := c.half h
    let div := bits v.toNat 0 4
    let vsel := bits v.toNat 4 8
    let sd := bit v.toNat 12
    let sv := bit v.toNat 13
    let id := masterId c.num m
    let moved (d : Channel) (l : List Nat) : Prop := Regs l { c with pwr := { c.pwr with west := d.pwr.west, east := d.pwr.east } } d ∧ d.half (1 - h) = c.half (1 - h)
    (Lands s ch m (Reg.PWR_DVFS h) → sd = true ∨ sv = true → c.dvfsCheck h div vsel sd sv = none →
      ∃ d, LeavesF 128 (.pwrDvfs ch m east v) s ch d ∧ moved d [a] ∧
        d.half h = { hs with tr := some ⟨if sd then some div else none, if sv then some vsel else none, id⟩, vselT := if sv then vsel else hs.vselT } ∧
        d.hf h Fl.PWR_HALF_TGT = (if sd then div else c.hf h Fl.PWR_HALF_TGT) ∧ FieldsBut a Fl.PWR_HALF_TGT c d) ∧
    (Lands s ch m (Reg.PWR_DVFS h) → sd = true ∨ sv = true → ∀ why, c.dvfsCheck h div vsel sd sv = some why →
      ∃ d : Channel, LeavesF 128 (.pwrDvfs ch m east v) s ch (d.event 6) ∧ Refused Reg.PWR_ORDERREF 0x22 id why h 1 c d) ∧
    (Lands s ch m (Reg.PWR_DVFS h) → sd = false → sv = false → LeavesF 128 (.pwrDvfs ch m east v) s ch c) ∧
    (hs.tr = some t → t.div = some dv → t.vsel = some vs → c.hf h Fl.PWR_HALF_DIV ≤ dv → dv < 16 →
      ∃ d, Leaves (.dvfsDone ch east) s ch d ∧ moved d [a] ∧ d.hf h Fl.PWR_HALF_DIV = dv ∧ FieldsBut a Fl.PWR_HALF_DIV c d ∧
        d.half h = { hs with tr := some { t with div := none } }) ∧
    (hs.tr = some t → t.div = some dv → t.vsel = some vs → dv < c.hf h Fl.PWR_HALF_DIV → vs < 256 →
      ∃ d, Leaves (.dvfsDone ch east) s ch d ∧ moved d [a] ∧ d.hf h Fl.PWR_HALF_VSEL = vs ∧ FieldsBut a Fl.PWR_HALF_VSEL c d ∧
        d.half h = { hs with tr := some { t with vsel := none } }) ∧
    (hs.tr = some t → t.div = some dv → t.vsel = none → dv < 16 →
      ∃ d, Leaves (.dvfsDone ch east) s ch d ∧ moved d [a] ∧ d.hf h Fl.PWR_HALF_DIV = dv ∧ FieldsBut a Fl.PWR_HALF_DIV c d ∧ d.half h = { hs with tr := none }) ∧
    (hs.tr = none → Leaves (.dvfsDone ch east) s ch c) ∧
    (signed 12 w.toNat < c.throtAt → signed 12 w.toNat < c.tripAt → ¬ ((c.half 0).temp < c.warnAt ∧ c.warnAt ≤ signed 12 w.toNat) →
      signed 12 e.toNat < c.throtAt → signed 12 e.toNat < c.tripAt → ¬ ((c.half 1).temp < c.warnAt ∧ c.warnAt ≤ signed 12 e.toNat) →
      ∃ d, Leaves (.thermalSample ch w e) s ch d ∧ Regs [Reg.PWR_HALF 0, Reg.PWR_HALF 1] { c with pwr := { c.pwr with west := d.pwr.west, east := d.pwr.east } } d ∧
        d.hf 0 Fl.PWR_HALF_TEMP = w.toNat ∧ d.hf 1 Fl.PWR_HALF_TEMP = e.toNat ∧ d.hf 0 Fl.PWR_HALF_DIV = c.hf 0 Fl.PWR_HALF_DIV ∧
        d.half 0 = { c.half 0 with temp := signed 12 w.toNat } ∧ d.half 1 = { c.half 1 with temp := signed 12 e.toNat }) ∧
    ((c.half 0).temp < c.warnAt → c.warnAt ≤ signed 12 w.toNat →
      ∃ d, Leaves (.thermalSample ch w e) s ch d ∧ bit (d.fld Reg.HIF_EVPEND Fl.HIF_EVPEND_PEND) 7 = true ∧ d.mem = c.mem ∧ d.cores = c.cores) ∧
    (c.throtAt ≤ signed 12 w.toNat → (c.half 0).hot = false → c.hf 0 Fl.PWR_HALF_CAP ≤ 4 →
      ∃ d, Leaves (.thermalSample ch w e) s ch d ∧ d.hf 0 Fl.PWR_HALF_CAP = 4 ∧ (d.half 0).hot = true ∧ 4 ≤ d.hf 0 Fl.PWR_HALF_DIV ∧
        d.fld Reg.PWR_STATUS Fl.PWR_STATUS_EMERG = 1 ∧ d.mem = c.mem ∧ d.cores = c.cores) ∧
    (hs.rail = false → c.hf h Fl.PWR_HALF_CAP ≤ 4 →
      ∃ d, Leaves (.railOvercurrent ch east) s ch d ∧ d.hf h Fl.PWR_HALF_CAP = 4 ∧ (d.half h).rail = true ∧ 4 ≤ d.hf h Fl.PWR_HALF_DIV ∧ Counted Reg.PWR_EMERGS 1 c d ∧
        d.hf (1 - h) Fl.PWR_HALF_CAP = c.hf (1 - h) Fl.PWR_HALF_CAP ∧ d.mem = c.mem ∧ d.cores = c.cores) ∧
    (hs.rail = true → Leaves (.railOvercurrent ch east) s ch c) ∧
    (c.pwr.alarm = false → c.hf 0 Fl.PWR_HALF_CAP ≤ 4 → c.hf 1 Fl.PWR_HALF_CAP ≤ 4 →
      ∃ t, exec .inputAlarm s = .next t ∧ t.mod = s.mod ∧ t.pins = s.pins ∧ (t.chan ch).pwr.alarm = true ∧ (t.chan ch).hf 0 Fl.PWR_HALF_CAP = 4 ∧
        (t.chan ch).hf 1 Fl.PWR_HALF_CAP = 4 ∧ Counted Reg.PWR_EMERGS 1 c (t.chan ch) ∧ (t.chan ch).mem = c.mem ∧ (t.chan ch).cores = c.cores) ∧
    (∃ d, Leaves (.emergencyClear ch east) s ch d ∧ d = { c with pwr := { c.pwr with alarm := false, west := d.pwr.west, east := d.pwr.east } } ∧
      d.half h = { hs with rail := false } ∧ d.half (1 - h) = c.half (1 - h)) ∧
    (2 < c.hf h Fl.PWR_HALF_CAP → c.throtAt ≤ hs.temp →
      ∃ d, Leaves (.throttleStep ch east true) s ch d ∧ d.hf h Fl.PWR_HALF_CAP = slower (c.hf h Fl.PWR_HALF_CAP) ∧ d.hf h Fl.PWR_HALF_CAP ≤ d.hf h Fl.PWR_HALF_DIV ∧
        d.mem = c.mem ∧ d.cores = c.cores) ∧
    (2 < c.hf h Fl.PWR_HALF_CAP → hs.temp < c.coolAt → hs.rail = false → c.pwr.alarm = false →
      ∃ d, Leaves (.throttleStep ch east false) s ch d ∧ d.hf h Fl.PWR_HALF_CAP = faster (c.hf h Fl.PWR_HALF_CAP) ∧ d.mem = c.mem ∧ d.cores = c.cores ∧
        ((d.half h).tr.bind (·.div)) = some (max (faster (c.hf h Fl.PWR_HALF_CAP)) (c.hf h Fl.PWR_HALF_TGT))) ∧
    (c.hf h Fl.PWR_HALF_CAP ≤ 2 → Leaves (.throttleStep ch east true) s ch c ∧ Leaves (.throttleStep ch east false) s ch c)

/-! ### Faults, the trouble log, rinses, fences -/

/-- The trouble log: an entry goes to place LOGSEQ modulo 4,096 with its eight words and LOGSEQ counts; with 4,096 unread the oldest is lost, LOGACK moves on and the
loss is counted. An acknowledgement that leaves at most 4,096 unread is taken, another has no effect. -/
def Obligations.TroubleLog : Prop :=
  ∀ (ch : Chan) (m : Master) (v : Word) (f : FaultMsg) (act : Nat) (s : State),
    let c := s.chan ch
    let d := c.logEntry f act
    let seq := c.rd Reg.FLT_LOGSEQ
    let full := c.unread = 4096
    let w (j : Nat) : Nat := d.rd (Reg.FLT_LOG (seq % 4096) j)
    let rid := if c.rphase = 0 then 0 else (c.rinse.first.origin + c.rinse.first.oseq * 2 ^ 16) % 2 ^ 32
    (act ≤ 5 →
      d.rd Reg.FLT_LOGSEQ = (seq + 1) % 2 ^ 32 ∧ w 0 = c.ts % 2 ^ 32 ∧ w 1 = c.ts / 2 ^ 32 % 2 ^ 32 ∧ w 2 = seq ∧
      w 3 = f.code.toNat + (act + 8 * b2n (decide (c.rphase ≠ 0))) * 2 ^ 8 + f.node.val * 2 ^ 16 + (f.ctx.val + 16 * b2n f.ctxv) * 2 ^ 24 ∧
      w 4 = f.arg0.toNat ∧ w 5 = rid ∧ w 6 = f.arg1.toNat % 2 ^ 32 ∧ w 7 = f.arg1.toNat / 2 ^ 32 ∧
      (full → d.rd Reg.FLT_LOGACK = (c.rd Reg.FLT_LOGACK + 1) % 2 ^ 32 ∧ Counted Reg.FLT_LOGLOST 1 c d) ∧
      (¬ full → d.rd Reg.FLT_LOGACK = c.rd Reg.FLT_LOGACK ∧ d.rd Reg.FLT_LOGLOST = c.rd Reg.FLT_LOGLOST) ∧
      d = { c with regs := d.regs, vecs := d.vecs, out := d.out } ∧
      ∀ a, a ∉ [Reg.FLT_LOGSEQ, Reg.FLT_LOGACK, Reg.FLT_LOGLOST, Reg.HIF_EVPEND] → (∀ j, j < 8 → a ≠ Reg.FLT_LOG (seq % 4096) j) → d.rd a = c.rd a) ∧
    (Lands s ch m Reg.FLT_LOGACK → (seq + 2 ^ 32 - v.toNat) % 2 ^ 32 ≤ 4096 →
      ∃ d, LeavesF 128 (.logAckWrite ch m v) s ch d ∧ Regs [Reg.FLT_LOGACK] c d ∧ d.rd Reg.FLT_LOGACK = v.toNat) ∧
    (Lands s ch m Reg.FLT_LOGACK → 4096 < (seq + 2 ^ 32 - v.toNat) % 2 ^ 32 → LeavesF 128 (.logAckWrite ch m v) s ch c)

/-- Reports: the oldest message of a node is logged, told as FAULT and, unless one stands, shown in FLT_FIRST; then by its code it is only reported, begins, joins or
waits for a rinse, fences its core first, or stops the channel: no picots, and C4 to follow but for a lost bridge. An error on the way is corrected and counted, or loses the
message and is reported in its place. -/
def Obligations.FaultReports : Prop :=
  ∀ (ch : Chan) (m : FaultMsg) (perr : Bool) (raws : RawWords) (s : State),
    let c := s.chan ch
    let act := c.faultAction m
    let taken : Channel := { c with faultq := eraseFirst m c.faultq }
    let told := (taken.logEntry m act).event 0
    let row : Instr := .faultReport ch m perr .clean raws
    let next : Prop := c.faultq.find? (fun x => x.node == m.node) = some m
    let shown (d : Channel) : Prop := c.fld Reg.FLT_FIRST Fl.FLT_FIRST_VALID = 0 →
      d.fld Reg.FLT_FIRST Fl.FLT_FIRST_VALID = 1 ∧ d.fld Reg.FLT_FIRST Fl.FLT_FIRST_CODE = m.code.toNat ∧ d.fld Reg.FLT_FIRST Fl.FLT_FIRST_NODE = m.node.val ∧
        d.fld Reg.FLT_FIRST Fl.FLT_FIRST_CTX = m.ctx.val ∧ d.fld Reg.FLT_FIRST Fl.FLT_FIRST_CTXV = b2n m.ctxv
    (∀ ecc, ¬ next → Leaves (.faultReport ch m perr ecc raws) s ch c) ∧
    (next →
      exec (.faultReport ch m perr .single raws) s = exec row (s.setChan ch (c.addFld Reg.CNET_CORR Fl.CNET_CORR_CORR 1)) ∧
      (∃ f, Leaves (.faultReport ch m perr .double raws) s ch (taken.report f false) ∧ f.code.toNat = fcCnetUncorr ∧ f.node.val = 100 ∧ f.arg0.toNat = 100 ∧
        bits f.arg1.toNat 0 8 = m.code.toNat ∧ bits f.arg1.toNat 8 4 = m.ctx.val ∧ bits f.arg1.toNat 12 1 = b2n m.ctxv ∧ bits f.arg1.toNat 15 7 = m.node.val) ∧
      (act = 0 → Leaves row s ch told) ∧
      (act = 5 → Leaves row s ch (taken.logEntry m 5)) ∧
      (act = 1 → c.rphase = 1 ∨ c.rphase = 2 → ∃ d, Leaves row s ch d ∧ Regs [Reg.FLT_FIRST] told d ∧ shown d) ∧
      (act = 1 → c.rphase = 3 →
        ∃ d, Leaves row s ch d ∧ Regs [Reg.FLT_FIRST, Reg.FLT_STATUS] { told with rinse := { c.rinse with cause := some (c.rinse.cause.getD m.code.toNat) } } d ∧
          shown d ∧ d.fld Reg.FLT_STATUS Fl.FLT_STATUS_PENDING = 1 ∧ d.rphase = 3) ∧
      (act = 1 → c.rphase = 0 →
        ∃ d, Leaves row s ch d ∧ shown d ∧ d.rphase = 1 ∧ Counted Reg.FLT_RINSES 1 c d ∧ Counted Reg.FLT_ORIG 1 c d ∧
          (∀ x : Fin 16, d.ctxState x.val = if c.ctxState x.val = ctxStep then ctxRinse else c.ctxState x.val) ∧ d.faultq = taken.faultq ∧
          ∀ a, lpBase ≤ a → mget memDefault d.mem a = mget memDefault c.mem a) ∧
      (act = 2 → c.rphase = 1 ∨ c.rphase = 2 → c.enabled m.node.val = true →
        ∃ d, Leaves row s ch d ∧ shown d ∧ d.fenced m.node.val = true ∧ d.rphase = c.rphase ∧ ∀ i, i ≠ m.node.val → d.core i = c.core i) ∧
      (act = 3 → c.rphase = 1 ∨ c.rphase = 2 → c.fld Reg.FLT_PMAPN Fl.FLT_PMAPN_N = 0 → ∃ d, Leaves row s ch d ∧ Regs [Reg.FLT_FIRST] told d ∧ shown d) ∧
      (act = 4 → c.rphase = 1 ∨ c.rphase = 2 →
        ∃ d, Leaves row s ch d ∧ shown d ∧ d.dark = true ∧ d.rinse = { c.rinse with alone := true } ∧
          d.pwr.stop = (if m.code.toNat = fcBridgeLost then c.pwr.stop else true) ∧ d.mem = c.mem ∧ d.cores = c.cores))

/-- The phases of a rinse. RINSE_STOP_DONE completes in STOP: AGREE begins. AGREE_END completes in AGREE: RESTORE begins, the lost members are shown, and every context is
committed or back: a voted one with no other channel, or one epoch behind the agreed one, commits; one whose job no view settles loses its parameters; every other stays at its press.
RESTORE_DONE completes in RESTORE: every rinsed context is READY, the end is logged and told, and where one waits the next rinse begins. DEADLOCK completes for a context in STEP that waits
for no other, unless the count is not fatal: it is shown, counted and reported. In every other state each of the four has no effect. -/
def Sys2Proof.Says.RinsePhases : Prop :=
  ∀ (ch : Chan) (x : Ctx) (s : State),
    let c := s.chan ch
    let st := Reg.FLT_STATUS
    let dl := Reg.SPAT_DLSTAT
    let multi (y : Nat) : Prop := c.fld (Reg.UPD_PRESS y) Fl.UPD_PRESS_MULTI = 1
    let settled := c.rinse.alone = false ∧ c.rinse.view.ovf = false ∧ c.coord ∉ c.rinse.view.lost
    let agreed (y : Nat) : Nat := ((c.rinse.view.jobs.find? (fun j => j.1 == c.fld (Reg.TAT_JOB y) Fl.TAT_JOB_JOB)).map (·.2)).getD (c.press y)
    let behind (y : Nat) : Prop := agreed y ≠ c.press y ∧ (c.press y + 1) % 2 ^ 32 = agreed y ∧ c.phase y = phVoted
    let committed (y : Nat) (d : Channel) : Prop := d.press y = (c.press y + 1) % 2 ^ 32 ∧ d.phase y = phIdle
    let stays (y : Nat) (d : Channel) : Prop := d.press y = c.press y ∧ (multi y ∨ c.ctxState y = ctxRinse → d.phase y = phIdle)
    let endMsg := mkFault 100 fcRinseEnd none (c.fld st Fl.FLT_STATUS_NLOST) (c.usSince c.rinse.began)
    (c.rphase = 1 → ∃ d, Leaves (.rinseStopDone ch) s ch d ∧ Regs [st] c d ∧ d.rphase = 2 ∧ FieldsBut st Fl.FLT_STATUS_PHASE c d) ∧
    (c.rphase ≠ 1 → Leaves (.rinseStopDone ch) s ch c) ∧
    (c.rphase = 2 →
      ∃ d, Leaves (.agreeEnd ch) s ch d ∧ d.rphase = 3 ∧ d.fld st Fl.FLT_STATUS_NLOST = c.rinse.view.lost.length % 2 ^ 10 ∧ d.faultq = c.faultq ∧
        (∀ y : Fin 16, ¬ multi y.val → c.phase y.val = phVoted → committed y.val d) ∧
        (∀ y : Fin 16, ¬ multi y.val → c.phase y.val ≠ phVoted → stays y.val d) ∧
        (∀ y : Fin 16, multi y.val → settled → behind y.val → committed y.val d) ∧
        (∀ y : Fin 16, multi y.val → ¬ (settled ∧ behind y.val) → stays y.val d) ∧
        (∀ y : Fin 16, multi y.val → c.rinse.alone = false → ¬ (settled ∧ (agreed y.val = c.press y.val ∨ behind y.val)) →
          bit (d.fld Reg.FLT_LOSS Fl.FLT_LOSS_CTX) y.val = true)) ∧
    (c.rphase ≠ 2 → Leaves (.agreeEnd ch) s ch c) ∧
    (c.rphase = 3 →
      ∃ b d : Channel, d = (b.logEntry endMsg 5).setRphase 0 ∧ b.rphase = 3 ∧ b.rd Reg.FLT_LOGSEQ = c.rd Reg.FLT_LOGSEQ ∧ d.mem = c.mem ∧ d.tat = c.tat ∧ d.faultq = c.faultq ∧
        d.rphase = 0 ∧ (∀ y : Fin 16, d.ctxState y.val = if c.ctxState y.val = ctxRinse then ctxReady else c.ctxState y.val) ∧
        (∀ i, i < 100 → (c.core i).owner = some x.val → c.ctxState x.val = ctxRinse → c.usable i = true → (d.core i).pos = none ∧ (d.core i).descCopy = none) ∧
        (c.fld st Fl.FLT_STATUS_PENDING = 0 → Leaves (.restoreDone ch) s ch (d.event 2)) ∧
        (c.fld st Fl.FLT_STATUS_PENDING = 1 →
          ∃ e : Channel, Leaves (.restoreDone ch) s ch e ∧ e = ((d.event 2).setFld st Fl.FLT_STATUS_PENDING 0).beginRinse c.rinse.cause c.dark (if c.dark then [] else c.rinse.held) ∧
            e.rphase = 1 ∧ Counted Reg.FLT_RINSES 1 c e ∧
            ∀ y : Fin 16, e.ctxState y.val = if d.ctxState y.val = ctxStep then ctxRinse else d.ctxState y.val)) ∧
    (c.rphase ≠ 3 → Leaves (.restoreDone ch) s ch c) ∧
    (c.ctxState x.val = ctxStep → c.fld Reg.SPAT_DLCFG Fl.SPAT_DLCFG_FATAL ≠ 0 → c.suspended x.val = false →
      ∃ d m, Leaves (.deadlock ch x) s ch (Channel.report d m false) ∧ Regs [dl, Reg.SPAT_DLFAULT] c d ∧ Counted Reg.SPAT_DLFAULT 1 c d ∧
        m = mkFault 100 fcDeadlock (some x.val) (d.rd dl) 0 ∧ (c.fld dl Fl.SPAT_DLSTAT_VALID = 1 → d.rd dl = c.rd dl) ∧
        (c.fld dl Fl.SPAT_DLSTAT_VALID = 0 → d.fld dl Fl.SPAT_DLSTAT_VALID = 1 ∧ d.fld dl Fl.SPAT_DLSTAT_CTX = x.val ∧
          ∀ i k q, c.firstWait x.val = some (i, k, q) → i < 100 → k ≤ 4 → q < 8 →
            d.fld dl Fl.SPAT_DLSTAT_SITE = i ∧ d.fld dl Fl.SPAT_DLSTAT_WAIT = k ∧ d.fld dl Fl.SPAT_DLSTAT_QUEUE = q)) ∧
    (c.ctxState x.val ≠ ctxStep ∨ c.fld Reg.SPAT_DLCFG Fl.SPAT_DLCFG_FATAL = 0 ∨ c.suspended x.val = true → Leaves (.deadlock ch x) s ch c)

/-- A fence (R60). FENCE completes for an enabled core that is not fenced: the core is out of service, its scratchpad and bobbins are gone, windows into it close; where its context is
loaded that is recorded and rinses. A disabled or fenced site is left as it is. -/
def Sys2Proof.Says.Fences : Prop :=
  ∀ (ch : Chan) (m : Master) (site : Site) (s : State),
    let c := s.chan ch
    let i := site.val
    let a := Reg.MESH_FENCE (i / 32)
    let inside (y : Nat) : Prop := spadBase i ≤ y ∧ y < spadBase (i + 1) ∨ bobBase i ≤ y ∧ y < bobBase (i + 1)
    Lands s ch m a →
    (c.enabled i = true → c.fenced i = false →
      ∃ d : Channel, LeavesF 128 (.fence ch m site) s ch (if c.loaded i = true then (d.record fcFenceHost none i 0).rinseFor fcFenceHost else d) ∧
        d = { c with regs := d.regs, mem := d.mem, cores := d.cores } ∧ d.fenced i = true ∧ d.usable i = false ∧
        (∀ j, j ≠ i → d.core j = c.core j) ∧ (∀ j, j < 100 → j ≠ i → d.fenced j = c.fenced j) ∧ (∀ y, inside y → mget memDefault d.mem y = 0) ∧
        (∀ y, ¬ inside y → mget memDefault d.mem y = mget memDefault c.mem y) ∧
        (∀ n, n < 64 → c.winSite n = some i → d.winOpen n = false) ∧ (∀ n, n < 64 → c.winSite n ≠ some i → d.winOpen n = c.winOpen n) ∧
        ∀ b, b ≠ a → (∀ n, n < 64 → b ≠ Reg.YLW_CTRL n) → d.rd b = c.rd b) ∧
    (c.enabled i = false ∨ c.fenced i = true → LeavesF 128 (.fence ch m site) s ch c)

/-- The phases of a rinse, a deadlock, and fences. -/
def Obligations.RinsesAndFences : Prop := Says.RinsePhases ∧ Says.Fences

/-! ### Register writes -/

namespace Sys2Proof.Says

/-- Registers of blocks that the host writes by their access codes alone. -/
def plainRegs : List Nat :=
  [Reg.HIF_EV 0, Reg.HIF_EV 9, Reg.FLT_CTRL, Reg.FLT_FIRST, Reg.FLT_LOSS, Reg.FLT_LOGCTRL, Reg.PWR_CTRL, Reg.PWR_WAKECFG, Reg.PWR_THCFG, Reg.PWR_REFREC, Reg.HIF_APBASE,
   Reg.SPAT_DLCFG, Reg.SPAT_DRAINTO, Reg.MESH_RTADDR, Reg.YL_RTADDR]

end Sys2Proof.Says

/-- Register writes: one by the access codes alone; one to no register, off its place or by a master that the block does not take has no effect, and a read there
returns 0; core registers belong to cores in service; one of 64 bits takes both halves of a descriptor word and is nothing elsewhere. The control word of an MSI-X vector masks
it or lets it go, if it is pending. The MOD block takes PF0 alone. The watch and the half table check what they are given. -/
def Obligations.RegisterWrites : Prop :=
  ∀ (ch : Chan) (m : Master) (a : BitVec 48) (v : Word) (site : Site) (n : Fin 16) (k : Fin 2048) (fr : Nat) (s : State),
    let c := s.chan ch
    let w := Reg.NUM_WCTRL
    let hc := Reg.CORE_HALF_CFG site.val n.val
    let md := v.toNat % 4
    let off := Sys2Proof.Machine.coreOff a.toNat
    let here (d : Channel) : Prop := LeavesF 128 (.registerWrite (some ch) m a v none) s ch d
    (Lands s ch m a.toNat → a.toNat ∈ plainRegs → here (c.plainWrite a.toNat v.toNat)) ∧
    (Lands s ch m a.toNat → inCoreBlock a.toNat = true → regRow a.toNat ≠ none → a.toNat % 4 = 0 → c.enabled (coreOf a.toNat) = false → here c) ∧
    (Lands s ch m a.toNat → inCoreBlock a.toNat = true → regRow a.toNat ≠ none → a.toNat % 4 = 0 → c.enabled (coreOf a.toNat) = true → c.fenced (coreOf a.toNat) = true →
      ∃ d, here d ∧ Regs [Reg.MESH_FENCEDROP] c d ∧ Counted Reg.MESH_FENCEDROP 1 c d) ∧
    (∀ hi, Lands s ch m a.toNat → a.toNat % 8 = 0 → inCoreBlock a.toNat = true → 0x8000 ≤ off → c.usable (coreOf a.toNat) = true →
      (m = .pf → c.hostMayWrite (coreOf a.toNat) = true) →
      LeavesF 128 (.registerWrite (some ch) m a v (some hi)) s ch ((c.plainWrite a.toNat v.toNat).plainWrite (a.toNat + 4) hi.toNat)) ∧
    (∀ hi, Lands s ch m a.toNat → a.toNat % 8 ≠ 0 ∨ inCoreBlock a.toNat = false ∨ off < 0x8000 → c.fencedWindow a.toNat = false → (m = .pf → inMsix a.toNat = false) →
      LeavesF 128 (.registerWrite (some ch) m a v (some hi)) s ch c) ∧
    (∀ hi, exec (.registerWrite none m a v (some hi)) s = .next s) ∧
    (m ≠ .pf ∧ m ≠ .pf0 ∨ m = .pf ∧ c.hostWay = .open → c.pst < 2 → c.windowDown a.toNat = false → (m = .pf → inMsix a.toNat = false) →
      a.toNat % 4 ≠ 0 ∨ regRow a.toNat = none ∨ c.mayWrite m a.toNat = false → here c) ∧
    (m = .pf0 → LeavesF 128 (.registerWrite (some ch) m a v none) s ch c) ∧
    (m = .pf → c.hostWay = .open → a.toNat = 0x300_000C + 16 * k.val →
      ∃ d, here d ∧ d = { c with vecs := d.vecs, out := d.out } ∧ d.vecMasked k.val = bit v.toNat 0 ∧
        (k.val ∈ c.vecs.pend → bit v.toNat 0 = false → c.msiUp = true → d.out = Out.msix c.num k.val :: c.out ∧ d.vecs.pend = eraseFirst k.val c.vecs.pend) ∧
        (k.val ∉ c.vecs.pend ∨ bit v.toNat 0 = true ∨ c.msiUp = false → d.out = c.out ∧ d.vecs.pend = c.vecs.pend)) ∧
    (∀ b, b % 4 ≠ 0 ∨ regRow b = none → (m = .pf → inMsix b = false) → c.regWrite fr m b v.toNat = c ∧ c.regRead m b = 0) ∧
    (s.modUp = true → ∀ x, a.toNat = Reg.MOD_ARB →
      x = setBits (s.mrd Reg.MOD_ARB) 0 16 v.toNat →
      exec (.registerWrite none .pf0 a v none) s = .next { s with mod := (s.mwr Reg.MOD_ARB x).mod }) ∧
    (s.modUp = true → a.toNat = Reg.MOD_STATUS →
      let f := s.mfld Reg.MOD_STATUS Fl.MOD_STATUS_CH_FAULT
      ∃ t, exec (.registerWrite none .pf0 a v none) s = .next t ∧ t = { s with mod := t.mod, out := t.out } ∧
        StatusIs s t (setBits (s.mrd Reg.MOD_STATUS) 8 4 (f - (f &&& bits v.toNat 8 4)))) ∧
    (s.modUp = true → a.toNat = Reg.MOD_ID ∨ a.toNat = Reg.MOD_SERIAL 2 → ∃ t, exec (.registerWrite none .pf0 a v none) s = .next t ∧ t = { s with mod := t.mod } ∧ ∀ b, t.mrd b = s.mrd b) ∧
    (m ≠ .pf0 ∨ s.modUp = false ∨ a.toNat % 4 ≠ 0 → exec (.registerWrite none m a v none) s = .next s) ∧
    (Lands s ch m w → c.fld w Fl.NUM_WCTRL_MODE = 0 → md ≠ 3 → LeavesF 128 (.watchModeWrite ch m v) s ch (c.plainWrite w v.toNat)) ∧
    (Lands s ch m w → c.fld w Fl.NUM_WCTRL_MODE ≠ 0 → md = 0 →
      ∃ d, LeavesF 128 (.watchModeWrite ch m v) s ch d ∧ Regs [w] { c with cores := d.cores } d ∧ d.fld w Fl.NUM_WCTRL_MODE = 0 ∧ FieldsBut w Fl.NUM_WCTRL_MODE c d ∧
        ∀ i, i < 100 → (d.core i).check = none ∧ (d.core i).hist = []) ∧
    (Lands s ch m w → md = 3 ∨ c.fld w Fl.NUM_WCTRL_MODE ≠ 0 ∧ md ≠ 0 → LeavesF 128 (.watchModeWrite ch m v) s ch c) ∧
    (Lands s ch m hc → c.usable site.val = true → c.hostMayWrite site.val = true → c.rd (Reg.CORE_HALF_SPAN site.val n.val) ≠ 0 →
      let d := c.plainWrite hc (setBits v.toNat 0 1 1)
      LeavesF 128 (.halfValidate ch m site n v) s ch (d.setSide site.val n.val (d.fld hc Fl.CORE_HALF_CFG_INIT)) ∧ d.fld hc Fl.CORE_HALF_CFG_VALID = 1) ∧
    (Lands s ch m hc → c.usable site.val = true → c.hostMayWrite site.val = true → c.rd (Reg.CORE_HALF_SPAN site.val n.val) = 0 →
      ∃ d, LeavesF 128 (.halfValidate ch m site n v) s ch d ∧ Regs [hc] c d ∧ d.fld hc Fl.CORE_HALF_CFG_VALID = 0) ∧
    (Lands s ch m hc → m = .pf → c.usable site.val = true → c.hostMayWrite site.val = false → LeavesF 128 (.halfValidate ch m site n v) s ch c)

/-- The seed of stochastic rounding: both registers reset to 0, and a write is accepted only while no context of the channel is in STEP or RINSE (R212). -/
def Obligations.SeedRegisters : Prop :=
  ∀ (ch : Chan) (m : Master) (v : Word) (a : BitVec 48) (s : State),
    let c := s.chan ch
    let row : Instr := .registerWrite (some ch) m a v none
    a.toNat = Reg.NUM_SRSEEDL ∨ a.toNat = Reg.NUM_SRSEEDH →
    (State.reset.chan ch).rd a.toNat = 0 ∧
    (Lands s ch m a.toNat → (∀ x : Fin 16, c.ctxState x.val ≠ ctxStep ∧ c.ctxState x.val ≠ ctxRinse) →
      ∃ d, LeavesF 128 row s ch d ∧ Regs [a.toNat] c d ∧ d.rd a.toNat = v.toNat) ∧
    (Lands s ch m a.toNat → (∃ x : Fin 16, c.ctxState x.val = ctxStep ∨ c.ctxState x.val = ctxRinse) → LeavesF 128 row s ch c)
end

