-- ==== Sys2Proof/Laws/Bits.lean ====
section
/-! SUPPORT. The laws of bit fields and of the CRCs' fold. -/

namespace Sys2Proof.Machine

/-- The fold of the CRCs is `foldl`. -/
theorem foldNat_eq (f : Nat → BitVec 8 → Nat) (c : Nat) (l : List (BitVec 8)) : foldNat f c l = l.foldl f c := by
  induction l generalizing c with
  | nil => cases c <;> rfl
  | cons x t ih => cases c <;> simp [foldNat, ih]

theorem bits_eq (x lo w : Nat) : bits x lo w = x / 2 ^ lo % 2 ^ w := by simp [bits, Nat.shiftRight_eq_div_pow]

theorem bits_lt (x lo w : Nat) : bits x lo w < 2 ^ w := by rw [bits_eq]; exact Nat.mod_lt _ (Nat.two_pow_pos w)

/-- A number as its parts above, inside and below a field. -/
theorem split_bits (x lo w : Nat) : x = x % 2 ^ lo + 2 ^ lo * bits x lo w + 2 ^ (lo + w) * (x / 2 ^ (lo + w)) := by
  rw [bits_eq, Nat.pow_add, ← Nat.div_div_eq_div_mul]
  have h1 := Nat.mod_add_div x (2 ^ lo)
  have h2 := Nat.mod_add_div (x / 2 ^ lo) (2 ^ w)
  calc x = x % 2 ^ lo + 2 ^ lo * (x / 2 ^ lo) := h1.symm
    _ = x % 2 ^ lo + 2 ^ lo * (x / 2 ^ lo % 2 ^ w + 2 ^ w * (x / 2 ^ lo / 2 ^ w)) := by rw [h2]
    _ = _ := by ring

theorem setBits_eq (x lo w v : Nat) : setBits x lo w v = x % 2 ^ lo + 2 ^ lo * (v % 2 ^ w) + 2 ^ (lo + w) * (x / 2 ^ (lo + w)) := by
  have h := split_bits x lo w
  simp only [setBits, Nat.shiftLeft_eq]
  have : bits x lo w * 2 ^ lo = 2 ^ lo * bits x lo w := Nat.mul_comm _ _
  have : v % 2 ^ w * 2 ^ lo = 2 ^ lo * (v % 2 ^ w) := Nat.mul_comm _ _
  omega

theorem setBits_testBit (x lo w v i : Nat) :
    (setBits x lo w v).testBit i = if i < lo then x.testBit i else if i < lo + w then v.testBit (i - lo) else x.testBit i := by
  rw [setBits_eq]
  have hl : x % 2 ^ lo < 2 ^ lo := Nat.mod_lt _ (Nat.two_pow_pos lo)
  have hv : v % 2 ^ w < 2 ^ w := Nat.mod_lt _ (Nat.two_pow_pos w)
  have e : x % 2 ^ lo + 2 ^ lo * (v % 2 ^ w) + 2 ^ (lo + w) * (x / 2 ^ (lo + w))
      = 2 ^ lo * (2 ^ w * (x / 2 ^ (lo + w)) + v % 2 ^ w) + x % 2 ^ lo := by rw [Nat.pow_add]; ring
  rw [e, Nat.testBit_two_pow_mul_add _ hl]
  split
  · simp [Nat.testBit_mod_two_pow, *]
  · rename_i h1
    rw [Nat.testBit_two_pow_mul_add _ hv]
    have e1 : (i - lo < w) ↔ (i < lo + w) := by omega
    simp only [e1]
    split
    · rename_i h2; simp [Nat.testBit_mod_two_pow]; intro _; omega
    · rename_i h2
      rw [Nat.testBit_div_two_pow]
      congr 1; omega

theorem bits_testBit (x lo w i : Nat) : (bits x lo w).testBit i = (decide (i < w) && x.testBit (i + lo)) := by
  simp [bits_eq, Nat.testBit_mod_two_pow, Nat.testBit_div_two_pow]

@[simp] theorem bits_setBits_same (x lo w v : Nat) : bits (setBits x lo w v) lo w = v % 2 ^ w := by
  apply Nat.eq_of_testBit_eq
  intro i
  rw [bits_testBit, setBits_testBit, Nat.testBit_mod_two_pow]
  by_cases h : i < w
  · have h1 : ¬ i + lo < lo := by omega
    have h2 : i + lo < lo + w := by omega
    simp [h, h1, h2]
  · simp [h]

theorem bits_setBits_other (x lo w v l2 w2 : Nat) (h : l2 + w2 ≤ lo ∨ lo + w ≤ l2) : bits (setBits x lo w v) l2 w2 = bits x l2 w2 := by
  apply Nat.eq_of_testBit_eq
  intro i
  rw [bits_testBit, bits_testBit, setBits_testBit]
  by_cases hi : i < w2
  · rcases h with h | h
    · have : i + l2 < lo := by omega
      simp [this]
    · have h1 : ¬ i + l2 < lo := by omega
      have h2 : ¬ i + l2 < lo + w := by omega
      simp [h1, h2]
  · simp [hi]

theorem setBits_lt {x lo w v n : Nat} (hx : x < 2 ^ n) (h : lo + w ≤ n) : setBits x lo w v < 2 ^ n := by
  apply Nat.lt_pow_two_of_testBit
  intro i hi
  rw [setBits_testBit]
  have h1 : ¬ i < lo := by omega
  have h2 : ¬ i < lo + w := by omega
  simp [h1, h2]
  exact Nat.testBit_eq_false_of_lt (Nat.lt_of_lt_of_le hx (Nat.pow_le_pow_right (by decide) hi))

theorem b2n_lt (b : Bool) : b2n b < 2 := by cases b <;> decide

end Sys2Proof.Machine
end

