-- ==== Sys2Proof/Laws/SMap.lean ====
section
/-! SUPPORT. The laws of the sparse map: a read after a write, what a write leaves alone, the canonical form. -/

namespace Sys2Proof.Machine

variable {α : Type} [DecidableEq α] (d : Nat → α)

@[simp] theorem mget_nil (k : Nat) : mget d [] k = d k := rfl

@[simp] theorem mget_mset_same (m : List (Nat × α)) (k : Nat) (v : α) : mget d (mset d m k v) k = v := by
  induction m with
  | nil => simp only [mset]; split <;> simp_all [mget]
  | cons e t ih =>
    obtain ⟨j, w⟩ := e
    simp only [mset]
    split
    · split
      · exact ih
      · rename_i h; simp [mget, h, ih]
    · split
      · simp [mget]
      · split
        · simp [mget]
        · rename_i h; simp [mget, Ne.symm h, ih]

theorem mget_mset_other (m : List (Nat × α)) {k j : Nat} (v : α) (h : j ≠ k) : mget d (mset d m k v) j = mget d m j := by
  induction m with
  | nil => simp only [mset]; split <;> simp [mget, Ne.symm h]
  | cons e t ih =>
    obtain ⟨i, w⟩ := e
    simp only [mset]
    split
    · split
      · rename_i hi; subst hi; simp [mget, Ne.symm h, ih]
      · simp [mget, ih]
    · split
      · simp [mget, Ne.symm h]
      · split
        · rename_i hk; subst hk; simp [mget, Ne.symm h]
        · simp [mget, ih]

theorem mget_mset (m : List (Nat × α)) (k j : Nat) (v : α) : mget d (mset d m k v) j = if j = k then v else mget d m j := by
  split
  · rename_i h; subst h; exact mget_mset_same d m j v
  · rename_i h; exact mget_mset_other d m v h

/-- Keys kept by a filter on keys read as before; the others as their default. -/
theorem mget_filter (f : Nat → Bool) (m : List (Nat × α)) (k : Nat) : mget d (m.filter (fun e => f e.1)) k = if f k then mget d m k else d k := by
  induction m with
  | nil => simp
  | cons e t ih =>
    obtain ⟨j, w⟩ := e
    by_cases hj : f j = true
    · by_cases hk : j = k
      · subst hk; simp [mget, hj]
      · simp [List.filter, hj, mget, hk, ih]
    · by_cases hk : j = k
      · subst hk; simp [List.filter, hj, ih]
      · simp [List.filter, hj, mget, hk, ih]

theorem mget_mclear (m : List (Nat × α)) (lo hi k : Nat) :
    mget d (mclear m lo hi) k = if lo ≤ k ∧ k < hi then d k else mget d m k := by
  have h := mget_filter d (fun j => decide (j < lo) || decide (hi ≤ j)) m k
  simp only [mclear]
  rw [h]
  by_cases h1 : k < lo
  · simp [h1]
  · by_cases h2 : hi ≤ k
    · simp [h2]
    · simp [h1, h2]

/-! ### The canonical form -/

theorem mrising_weaken {b : Nat} {m : List (Nat × α)} (h : mrising (some b) m = true) : mrising none m = true := by
  cases m with
  | nil => rfl
  | cons e t => simp [mrising] at h ⊢; exact h.2

theorem mrising_lower {a b : Nat} (hab : a ≤ b) {m : List (Nat × α)} (h : mrising (some b) m = true) : mrising (some a) m = true := by
  cases m with
  | nil => rfl
  | cons e t => simp [mrising] at h ⊢; exact ⟨by omega, h.2⟩

theorem mrising_mset {b : Option Nat} (m : List (Nat × α)) (k : Nat) (v : α) (hb : ∀ x ∈ b, x < k) (h : mrising b m = true) :
    mrising b (mset d m k v) = true := by
  induction m generalizing b with
  | nil =>
    simp only [mset]; split
    · exact h
    · cases b with
      | none => simp [mrising]
      | some x => simp [mrising, hb x rfl]
  | cons e t ih =>
    obtain ⟨j, w⟩ := e
    have ht : mrising (some j) t = true := by cases b <;> simp [mrising] at h <;> simp [h]
    have hj : ∀ x ∈ b, x < j := by intro x hx; subst hx; simp [mrising] at h; exact h.1
    have put : ∀ l : List (Nat × α), mrising (some j) l = true → mrising b ((j, w) :: l) = true := by
      intro l hl; cases b with
      | none => simpa [mrising] using hl
      | some x => simp [mrising, hl, hj x rfl]
    have drop : ∀ l : List (Nat × α), mrising (some j) l = true → mrising b l = true := by
      intro l hl; cases b with
      | none => exact mrising_weaken hl
      | some x => exact mrising_lower (Nat.le_of_lt (hj x rfl)) hl
    simp only [mset]
    split
    · split
      · rename_i hv hk; subst hk
        have aux : ∀ l : List (Nat × α), mrising (some j) l = true → mset d l j v = l := by
          intro l
          have gen : ∀ (l : List (Nat × α)) (c : Nat), j ≤ c → mrising (some c) l = true → mset d l j v = l := by
            intro l
            induction l with
            | nil => intro c _ _; simp [mset, hv]
            | cons f u iu =>
              intro c hc hr
              obtain ⟨i, z⟩ := f
              simp [mrising] at hr
              have : i ≠ j := by omega
              simp [mset, hv, this]
              simpa [hv] using iu i (by omega) hr.2
          intro hl; exact gen l j (Nat.le_refl _) hl
        rw [aux t ht]; exact drop t ht
      · rename_i hv hk
        by_cases hlt : j < k
        · exact put _ (ih (by intro x hx; simp at hx; omega) ht)
        · have gen : ∀ (l : List (Nat × α)) (c : Nat), k ≤ c → mrising (some c) l = true → mset d l k v = l := by
            intro l
            induction l with
            | nil => intro c _ _; simp [mset, hv]
            | cons f u iu =>
              intro c hc hr
              obtain ⟨i, z⟩ := f
              simp [mrising] at hr
              have : i ≠ k := by omega
              simp [mset, hv, this]
              simpa [hv] using iu i (by omega) hr.2
          rw [gen t j (by omega) ht]; exact put t ht
    · split
      · rename_i hkj
        cases b with
        | none => simp [mrising, ht, hkj]
        | some x => simp [mrising, ht, hkj, hb x rfl]
      · split
        · rename_i hk; subst hk
          cases b with
          | none => simpa [mrising] using ht
          | some x => simp [mrising, ht, hj x rfl]
        · exact put _ (ih (by intro x hx; simp at hx; omega) ht)

theorem all_mset (m : List (Nat × α)) (k : Nat) (v : α) (h : m.all (fun e => decide (e.2 ≠ d e.1)) = true) :
    (mset d m k v).all (fun e => decide (e.2 ≠ d e.1)) = true := by
  induction m with
  | nil => simp only [mset]; split <;> simp_all
  | cons e t ih =>
    obtain ⟨j, w⟩ := e
    simp only [List.all_cons, Bool.and_eq_true] at h
    have h2 := ih h.2
    simp only [mset]
    split
    · split
      · exact h2
      · rw [List.all_cons, h.1, h2]; rfl
    · rename_i hv
      split
      · rw [List.all_cons, List.all_cons, h.1, h.2]; simp [hv]
      · split
        · rw [List.all_cons, h.2]; simp [hv]
        · rw [List.all_cons, h.1, h2]; rfl

theorem mwf_mset (m : List (Nat × α)) (k : Nat) (v : α) (h : mwf d m = true) : mwf d (mset d m k v) = true := by
  simp only [mwf, Bool.and_eq_true] at h ⊢
  exact ⟨mrising_mset d m k v (by simp) h.1, all_mset d m k v h.2⟩

theorem mrising_filter (p : Nat × α → Bool) (m : List (Nat × α)) (b : Option Nat) (h : mrising b m = true) : mrising b (m.filter p) = true := by
  induction m generalizing b with
  | nil => simpa using h
  | cons e t ih =>
    obtain ⟨j, w⟩ := e
    have ht : mrising (some j) t = true := by cases b <;> simp [mrising] at h <;> simp [h]
    simp only [List.filter]
    split
    · cases b with
      | none => simpa [mrising] using ih _ ht
      | some x => simp [mrising] at h ⊢; exact ⟨h.1, ih _ ht⟩
    · cases b with
      | none => exact mrising_weaken (ih _ ht)
      | some x => simp [mrising] at h; exact mrising_lower (Nat.le_of_lt h.1) (ih _ ht)

theorem mwf_filter (p : Nat × α → Bool) (m : List (Nat × α)) (h : mwf d m = true) : mwf d (m.filter p) = true := by
  simp only [mwf, Bool.and_eq_true] at h ⊢
  refine ⟨mrising_filter p m none h.1, ?_⟩
  rw [List.all_eq_true] at h ⊢
  intro e he
  exact h.2 e (List.mem_filter.mp he).1

theorem mwf_mclear (m : List (Nat × α)) (lo hi : Nat) (h : mwf d m = true) : mwf d (mclear m lo hi) = true := mwf_filter d _ m h

end Sys2Proof.Machine
end

