-- ==== Sys2Proof/Laws/Regs.lean ====
section
/-! SUPPORT. The laws of registers: what a write of a register or a field leaves in it, in its other fields and in the others. -/

namespace Sys2Proof.Machine

open Sys2Proof

theorem Channel.rd_lt (c : Channel) (a : Nat) : c.rd a < 2 ^ 32 := by simp only [Channel.rd]; exact BitVec.isLt _

@[simp] theorem Channel.rd_wr_same (c : Channel) (a v : Nat) : (c.wr a v).rd a = v % 2 ^ 32 := by simp [Channel.rd, Channel.wr]

theorem Channel.rd_wr_other (c : Channel) {a b : Nat} (v : Nat) (h : b ≠ a) : (c.wr a v).rd b = c.rd b := by
  simp [Channel.rd, Channel.wr, mget_mset_other _ _ _ h]

theorem Channel.rd_wr (c : Channel) (a b v : Nat) : (c.wr a v).rd b = if b = a then v % 2 ^ 32 else c.rd b := by
  split
  · rename_i h; subst h; simp
  · rename_i h; exact c.rd_wr_other v h

theorem Channel.rd_setFld_same (c : Channel) (a : Nat) (f : Fld) (v : Nat) (h : f.lo + f.w ≤ 32) :
    (c.setFld a f v).rd a = setBits (c.rd a) f.lo f.w v := by
  simp only [Channel.setFld, Channel.rd_wr_same]
  exact Nat.mod_eq_of_lt (setBits_lt (c.rd_lt a) h)

theorem Channel.rd_setFld_other (c : Channel) {a b : Nat} (f : Fld) (v : Nat) (h : b ≠ a) : (c.setFld a f v).rd b = c.rd b := by
  simp only [Channel.setFld]; exact c.rd_wr_other _ h

theorem Channel.fld_setFld_same (c : Channel) (a : Nat) (f : Fld) (v : Nat) (h : f.lo + f.w ≤ 32) : (c.setFld a f v).fld a f = v % 2 ^ f.w := by
  simp only [Channel.fld, c.rd_setFld_same a f v h, bits_setBits_same]

theorem Channel.fld_setFld_field (c : Channel) (a : Nat) (f g : Fld) (v : Nat) (h : f.lo + f.w ≤ 32) (hd : g.lo + g.w ≤ f.lo ∨ f.lo + f.w ≤ g.lo) :
    (c.setFld a f v).fld a g = c.fld a g := by
  simp only [Channel.fld, c.rd_setFld_same a f v h, bits_setBits_other _ _ _ _ _ _ hd]

theorem Channel.fld_setFld_other (c : Channel) {a b : Nat} (f g : Fld) (v : Nat) (h : b ≠ a) : (c.setFld a f v).fld b g = c.fld b g := by
  simp only [Channel.fld, c.rd_setFld_other f v h]

theorem Channel.fld_wr_other (c : Channel) {a b : Nat} (g : Fld) (v : Nat) (h : b ≠ a) : (c.wr a v).fld b g = c.fld b g := by
  simp only [Channel.fld, c.rd_wr_other v h]

theorem satAdd_lt (w x n : Nat) : satAdd w x n < 2 ^ w := by
  have := Nat.two_pow_pos w
  simp only [satAdd]; omega

theorem Channel.rd_count_same (c : Channel) (a n : Nat) (h : n ≠ 0) : (c.count a n).rd a = satAdd 32 (c.rd a) n := by
  simp only [Channel.count, if_neg h, Channel.rd_wr_same]
  exact Nat.mod_eq_of_lt (satAdd_lt 32 _ _)

theorem Channel.rd_count_other (c : Channel) {a b : Nat} (n : Nat) (h : b ≠ a) : (c.count a n).rd b = c.rd b := by
  simp only [Channel.count]; split
  · rfl
  · exact c.rd_wr_other _ h

theorem Channel.fld_count_other (c : Channel) {a b : Nat} (g : Fld) (n : Nat) (h : b ≠ a) : (c.count a n).fld b g = c.fld b g := by
  simp only [Channel.fld, c.rd_count_other n h]

/-- A register write changes no other part of the channel. -/
theorem Channel.wr_frame (c : Channel) (a v : Nat) : c.wr a v = { c with regs := (c.wr a v).regs } := rfl
theorem Channel.setFld_frame (c : Channel) (a : Nat) (f : Fld) (v : Nat) : c.setFld a f v = { c with regs := (c.setFld a f v).regs } := rfl
theorem Channel.count_frame (c : Channel) (a n : Nat) : c.count a n = { c with regs := (c.count a n).regs } := by
  simp only [Channel.count]; split <;> rfl

/-! ### Channels of the module -/

@[simp] theorem State.chan_setChan_same (s : State) (k : Chan) (c : Channel) : (s.setChan k c).chan k = c := by
  match k with
  | 0 => rfl
  | 1 => rfl
  | 2 => rfl
  | 3 => rfl

theorem State.chan_setChan_other (s : State) {k j : Chan} (c : Channel) (h : j ≠ k) : (s.setChan k c).chan j = s.chan j := by
  match k, j with
  | 0, 0 => exact absurd rfl h
  | 0, 1 => rfl
  | 0, 2 => rfl
  | 0, 3 => rfl
  | 1, 0 => rfl
  | 1, 1 => exact absurd rfl h
  | 1, 2 => rfl
  | 1, 3 => rfl
  | 2, 0 => rfl
  | 2, 1 => rfl
  | 2, 2 => exact absurd rfl h
  | 2, 3 => rfl
  | 3, 0 => rfl
  | 3, 1 => rfl
  | 3, 2 => rfl
  | 3, 3 => exact absurd rfl h

@[simp] theorem State.setChan_mod (s : State) (k : Chan) (c : Channel) : (s.setChan k c).mod = s.mod := by match k with | 0 | 1 | 2 | 3 => rfl
@[simp] theorem State.setChan_pins (s : State) (k : Chan) (c : Channel) : (s.setChan k c).pins = s.pins := by match k with | 0 | 1 | 2 | 3 => rfl
@[simp] theorem State.setChan_out (s : State) (k : Chan) (c : Channel) : (s.setChan k c).out = s.out := by match k with | 0 | 1 | 2 | 3 => rfl
@[simp] theorem State.setChan_free (s : State) (k : Chan) (c : Channel) : (s.setChan k c).free = s.free := by match k with | 0 | 1 | 2 | 3 => rfl
@[simp] theorem State.setChan_pending (s : State) (k : Chan) (c : Channel) : (s.setChan k c).pending = s.pending := by match k with | 0 | 1 | 2 | 3 => rfl

@[simp] theorem State.chan_onChan_same (s : State) (k : Chan) (f : Channel → Channel) : (s.onChan k f).chan k = f (s.chan k) := by simp [State.onChan]
theorem State.chan_onChan_other (s : State) {k j : Chan} (f : Channel → Channel) (h : j ≠ k) : (s.onChan k f).chan j = s.chan j := s.chan_setChan_other _ h
@[simp] theorem State.onChan_mod (s : State) (k : Chan) (f : Channel → Channel) : (s.onChan k f).mod = s.mod := by simp [State.onChan]
@[simp] theorem State.onChan_pins (s : State) (k : Chan) (f : Channel → Channel) : (s.onChan k f).pins = s.pins := by simp [State.onChan]
@[simp] theorem State.onChan_out (s : State) (k : Chan) (f : Channel → Channel) : (s.onChan k f).out = s.out := by simp [State.onChan]
@[simp] theorem State.onChan_free (s : State) (k : Chan) (f : Channel → Channel) : (s.onChan k f).free = s.free := by simp [State.onChan]
@[simp] theorem State.onChan_pending (s : State) (k : Chan) (f : Channel → Channel) : (s.onChan k f).pending = s.pending := by simp [State.onChan]

end Sys2Proof.Machine
end

