-- ==== Sys2Proof/Laws/Cores.lean ====
section
/-! SUPPORT. The laws of cores and streams: what an update of one leaves in it and in the others. -/

namespace Sys2Proof.Machine

open Sys2Proof

@[simp] theorem Channel.core_setCore_same (c : Channel) (i : Nat) (k : Core) : (c.setCore i k).core i = k := by simp [Channel.core, Channel.setCore]

theorem Channel.core_setCore_other (c : Channel) {i j : Nat} (k : Core) (h : j ≠ i) : (c.setCore i k).core j = c.core j := by
  simp [Channel.core, Channel.setCore, mget_mset_other _ _ _ h]

@[simp] theorem Channel.rd_setCore (c : Channel) (i a : Nat) (k : Core) : (c.setCore i k).rd a = c.rd a := rfl
@[simp] theorem Channel.fld_setCore (c : Channel) (i a : Nat) (k : Core) (f : Fld) : (c.setCore i k).fld a f = c.fld a f := rfl
@[simp] theorem Channel.core_wr (c : Channel) (a v i : Nat) : (c.wr a v).core i = c.core i := rfl
@[simp] theorem Channel.core_setFld (c : Channel) (a : Nat) (f : Fld) (v i : Nat) : (c.setFld a f v).core i = c.core i := rfl
@[simp] theorem Channel.core_count (c : Channel) (a n i : Nat) : (c.count a n).core i = c.core i := by simp only [Channel.count]; split <;> rfl

@[simp] theorem Core.str_setStr_same (k : Core) (st : Strm) (x : Stream) : (k.setStr st x).str st = x := by cases st <;> rfl
theorem Core.str_setStr_other (k : Core) {st su : Strm} (x : Stream) (h : su ≠ st) : (k.setStr st x).str su = k.str su := by
  cases st <;> cases su <;> first | rfl | exact absurd rfl h

@[simp] theorem Channel.strm_modStr_same (c : Channel) (i : Nat) (st : Strm) (g : Stream → Stream) : (c.modStr i st g).strm i st = g (c.strm i st) := by
  simp [Channel.strm, Channel.modStr]

theorem Channel.strm_modStr_stream (c : Channel) (i : Nat) {st su : Strm} (g : Stream → Stream) (h : su ≠ st) : (c.modStr i st g).strm i su = c.strm i su := by
  simp [Channel.strm, Channel.modStr, Core.str_setStr_other _ _ h]

theorem Channel.core_modStr_other (c : Channel) {i j : Nat} (st : Strm) (g : Stream → Stream) (h : j ≠ i) : (c.modStr i st g).core j = c.core j := by
  simp [Channel.modStr, c.core_setCore_other _ h]

@[simp] theorem Channel.rd_modStr (c : Channel) (i : Nat) (st : Strm) (g : Stream → Stream) (a : Nat) : (c.modStr i st g).rd a = c.rd a := rfl
@[simp] theorem Channel.fld_modStr (c : Channel) (i : Nat) (st : Strm) (g : Stream → Stream) (a : Nat) (f : Fld) : (c.modStr i st g).fld a f = c.fld a f := rfl
theorem Channel.modStr_frame (c : Channel) (i : Nat) (st : Strm) (g : Stream → Stream) : c.modStr i st g = { c with cores := (c.modStr i st g).cores } := rfl

end Sys2Proof.Machine
end

