-- ==== Sys2Proof/Laws/State.lean ====
section
/-! SUPPORT. What each basic update leaves in each field of a channel and of the module: one lemma a field and an update, so that no
proof unfolds a record update. -/

namespace Sys2Proof.Machine

open Sys2Proof

/-! ### wr -/

@[simp] theorem Channel.num_wr (c : Channel) (a v : Nat) : (c.wr a v).num = c.num := rfl
@[simp] theorem Channel.mem_wr (c : Channel) (a v : Nat) : (c.wr a v).mem = c.mem := rfl
@[simp] theorem Channel.cores_wr (c : Channel) (a v : Nat) : (c.wr a v).cores = c.cores := rfl
@[simp] theorem Channel.faultq_wr (c : Channel) (a v : Nat) : (c.wr a v).faultq = c.faultq := rfl
@[simp] theorem Channel.cmsgs_wr (c : Channel) (a v : Nat) : (c.wr a v).cmsgs = c.cmsgs := rfl
@[simp] theorem Channel.mesh_wr (c : Channel) (a v : Nat) : (c.wr a v).mesh = c.mesh := rfl
@[simp] theorem Channel.merges_wr (c : Channel) (a v : Nat) : (c.wr a v).merges = c.merges := rfl
@[simp] theorem Channel.qlines_wr (c : Channel) (a v : Nat) : (c.wr a v).qlines = c.qlines := rfl
@[simp] theorem Channel.qcreds_wr (c : Channel) (a v : Nat) : (c.wr a v).qcreds = c.qcreds := rfl
@[simp] theorem Channel.corr_wr (c : Channel) (a v : Nat) : (c.wr a v).corr = c.corr := rfl
@[simp] theorem Channel.scrub_wr (c : Channel) (a v : Nat) : (c.wr a v).scrub = c.scrub := rfl
@[simp] theorem Channel.mscrub_wr (c : Channel) (a v : Nat) : (c.wr a v).mscrub = c.mscrub := rfl
@[simp] theorem Channel.flash_wr (c : Channel) (a v : Nat) : (c.wr a v).flash = c.flash := rfl
@[simp] theorem Channel.kt5_wr (c : Channel) (a v : Nat) : (c.wr a v).kt5 = c.kt5 := rfl
@[simp] theorem Channel.bkts_wr (c : Channel) (a v : Nat) : (c.wr a v).bkts = c.bkts := rfl
@[simp] theorem Channel.steps_wr (c : Channel) (a v : Nat) : (c.wr a v).steps = c.steps := rfl
@[simp] theorem Channel.yl_wr (c : Channel) (a v : Nat) : (c.wr a v).yl = c.yl := rfl
@[simp] theorem Channel.tat_wr (c : Channel) (a v : Nat) : (c.wr a v).tat = c.tat := rfl
@[simp] theorem Channel.host_wr (c : Channel) (a v : Nat) : (c.wr a v).host = c.host := rfl
@[simp] theorem Channel.rinse_wr (c : Channel) (a v : Nat) : (c.wr a v).rinse = c.rinse := rfl
@[simp] theorem Channel.fw_wr (c : Channel) (a v : Nat) : (c.wr a v).fw = c.fw := rfl
@[simp] theorem Channel.bflash_wr (c : Channel) (a v : Nat) : (c.wr a v).bflash = c.bflash := rfl
@[simp] theorem Channel.pwr_wr (c : Channel) (a v : Nat) : (c.wr a v).pwr = c.pwr := rfl
@[simp] theorem Channel.way_wr (c : Channel) (a v : Nat) : (c.wr a v).way = c.way := rfl
@[simp] theorem Channel.vecs_wr (c : Channel) (a v : Nat) : (c.wr a v).vecs = c.vecs := rfl
@[simp] theorem Channel.dark_wr (c : Channel) (a v : Nat) : (c.wr a v).dark = c.dark := rfl
@[simp] theorem Channel.out_wr (c : Channel) (a v : Nat) : (c.wr a v).out = c.out := rfl
@[simp] theorem Channel.otp_wr (c : Channel) (a v : Nat) : (c.wr a v).otp = c.otp := rfl
@[simp] theorem Channel.ts_wr (c : Channel) (a v : Nat) : (c.wr a v).ts = c.ts := rfl

/-! ### setFld -/

@[simp] theorem Channel.num_setFld (c : Channel) (a : Nat) (g : Fld) (v : Nat) : (c.setFld a g v).num = c.num := rfl
@[simp] theorem Channel.mem_setFld (c : Channel) (a : Nat) (g : Fld) (v : Nat) : (c.setFld a g v).mem = c.mem := rfl
@[simp] theorem Channel.cores_setFld (c : Channel) (a : Nat) (g : Fld) (v : Nat) : (c.setFld a g v).cores = c.cores := rfl
@[simp] theorem Channel.faultq_setFld (c : Channel) (a : Nat) (g : Fld) (v : Nat) : (c.setFld a g v).faultq = c.faultq := rfl
@[simp] theorem Channel.cmsgs_setFld (c : Channel) (a : Nat) (g : Fld) (v : Nat) : (c.setFld a g v).cmsgs = c.cmsgs := rfl
@[simp] theorem Channel.mesh_setFld (c : Channel) (a : Nat) (g : Fld) (v : Nat) : (c.setFld a g v).mesh = c.mesh := rfl
@[simp] theorem Channel.merges_setFld (c : Channel) (a : Nat) (g : Fld) (v : Nat) : (c.setFld a g v).merges = c.merges := rfl
@[simp] theorem Channel.qlines_setFld (c : Channel) (a : Nat) (g : Fld) (v : Nat) : (c.setFld a g v).qlines = c.qlines := rfl
@[simp] theorem Channel.qcreds_setFld (c : Channel) (a : Nat) (g : Fld) (v : Nat) : (c.setFld a g v).qcreds = c.qcreds := rfl
@[simp] theorem Channel.corr_setFld (c : Channel) (a : Nat) (g : Fld) (v : Nat) : (c.setFld a g v).corr = c.corr := rfl
@[simp] theorem Channel.scrub_setFld (c : Channel) (a : Nat) (g : Fld) (v : Nat) : (c.setFld a g v).scrub = c.scrub := rfl
@[simp] theorem Channel.mscrub_setFld (c : Channel) (a : Nat) (g : Fld) (v : Nat) : (c.setFld a g v).mscrub = c.mscrub := rfl
@[simp] theorem Channel.flash_setFld (c : Channel) (a : Nat) (g : Fld) (v : Nat) : (c.setFld a g v).flash = c.flash := rfl
@[simp] theorem Channel.kt5_setFld (c : Channel) (a : Nat) (g : Fld) (v : Nat) : (c.setFld a g v).kt5 = c.kt5 := rfl
@[simp] theorem Channel.bkts_setFld (c : Channel) (a : Nat) (g : Fld) (v : Nat) : (c.setFld a g v).bkts = c.bkts := rfl
@[simp] theorem Channel.steps_setFld (c : Channel) (a : Nat) (g : Fld) (v : Nat) : (c.setFld a g v).steps = c.steps := rfl
@[simp] theorem Channel.yl_setFld (c : Channel) (a : Nat) (g : Fld) (v : Nat) : (c.setFld a g v).yl = c.yl := rfl
@[simp] theorem Channel.tat_setFld (c : Channel) (a : Nat) (g : Fld) (v : Nat) : (c.setFld a g v).tat = c.tat := rfl
@[simp] theorem Channel.host_setFld (c : Channel) (a : Nat) (g : Fld) (v : Nat) : (c.setFld a g v).host = c.host := rfl
@[simp] theorem Channel.rinse_setFld (c : Channel) (a : Nat) (g : Fld) (v : Nat) : (c.setFld a g v).rinse = c.rinse := rfl
@[simp] theorem Channel.fw_setFld (c : Channel) (a : Nat) (g : Fld) (v : Nat) : (c.setFld a g v).fw = c.fw := rfl
@[simp] theorem Channel.bflash_setFld (c : Channel) (a : Nat) (g : Fld) (v : Nat) : (c.setFld a g v).bflash = c.bflash := rfl
@[simp] theorem Channel.pwr_setFld (c : Channel) (a : Nat) (g : Fld) (v : Nat) : (c.setFld a g v).pwr = c.pwr := rfl
@[simp] theorem Channel.way_setFld (c : Channel) (a : Nat) (g : Fld) (v : Nat) : (c.setFld a g v).way = c.way := rfl
@[simp] theorem Channel.vecs_setFld (c : Channel) (a : Nat) (g : Fld) (v : Nat) : (c.setFld a g v).vecs = c.vecs := rfl
@[simp] theorem Channel.dark_setFld (c : Channel) (a : Nat) (g : Fld) (v : Nat) : (c.setFld a g v).dark = c.dark := rfl
@[simp] theorem Channel.out_setFld (c : Channel) (a : Nat) (g : Fld) (v : Nat) : (c.setFld a g v).out = c.out := rfl
@[simp] theorem Channel.otp_setFld (c : Channel) (a : Nat) (g : Fld) (v : Nat) : (c.setFld a g v).otp = c.otp := rfl
@[simp] theorem Channel.ts_setFld (c : Channel) (a : Nat) (g : Fld) (v : Nat) : (c.setFld a g v).ts = c.ts := rfl

/-! ### count -/

@[simp] theorem Channel.num_count (c : Channel) (a n : Nat) : (c.count a n).num = c.num := by rw [c.count_frame]
@[simp] theorem Channel.mem_count (c : Channel) (a n : Nat) : (c.count a n).mem = c.mem := by rw [c.count_frame]
@[simp] theorem Channel.cores_count (c : Channel) (a n : Nat) : (c.count a n).cores = c.cores := by rw [c.count_frame]
@[simp] theorem Channel.faultq_count (c : Channel) (a n : Nat) : (c.count a n).faultq = c.faultq := by rw [c.count_frame]
@[simp] theorem Channel.cmsgs_count (c : Channel) (a n : Nat) : (c.count a n).cmsgs = c.cmsgs := by rw [c.count_frame]
@[simp] theorem Channel.mesh_count (c : Channel) (a n : Nat) : (c.count a n).mesh = c.mesh := by rw [c.count_frame]
@[simp] theorem Channel.merges_count (c : Channel) (a n : Nat) : (c.count a n).merges = c.merges := by rw [c.count_frame]
@[simp] theorem Channel.qlines_count (c : Channel) (a n : Nat) : (c.count a n).qlines = c.qlines := by rw [c.count_frame]
@[simp] theorem Channel.qcreds_count (c : Channel) (a n : Nat) : (c.count a n).qcreds = c.qcreds := by rw [c.count_frame]
@[simp] theorem Channel.corr_count (c : Channel) (a n : Nat) : (c.count a n).corr = c.corr := by rw [c.count_frame]
@[simp] theorem Channel.scrub_count (c : Channel) (a n : Nat) : (c.count a n).scrub = c.scrub := by rw [c.count_frame]
@[simp] theorem Channel.mscrub_count (c : Channel) (a n : Nat) : (c.count a n).mscrub = c.mscrub := by rw [c.count_frame]
@[simp] theorem Channel.flash_count (c : Channel) (a n : Nat) : (c.count a n).flash = c.flash := by rw [c.count_frame]
@[simp] theorem Channel.kt5_count (c : Channel) (a n : Nat) : (c.count a n).kt5 = c.kt5 := by rw [c.count_frame]
@[simp] theorem Channel.bkts_count (c : Channel) (a n : Nat) : (c.count a n).bkts = c.bkts := by rw [c.count_frame]
@[simp] theorem Channel.steps_count (c : Channel) (a n : Nat) : (c.count a n).steps = c.steps := by rw [c.count_frame]
@[simp] theorem Channel.yl_count (c : Channel) (a n : Nat) : (c.count a n).yl = c.yl := by rw [c.count_frame]
@[simp] theorem Channel.tat_count (c : Channel) (a n : Nat) : (c.count a n).tat = c.tat := by rw [c.count_frame]
@[simp] theorem Channel.host_count (c : Channel) (a n : Nat) : (c.count a n).host = c.host := by rw [c.count_frame]
@[simp] theorem Channel.rinse_count (c : Channel) (a n : Nat) : (c.count a n).rinse = c.rinse := by rw [c.count_frame]
@[simp] theorem Channel.fw_count (c : Channel) (a n : Nat) : (c.count a n).fw = c.fw := by rw [c.count_frame]
@[simp] theorem Channel.bflash_count (c : Channel) (a n : Nat) : (c.count a n).bflash = c.bflash := by rw [c.count_frame]
@[simp] theorem Channel.pwr_count (c : Channel) (a n : Nat) : (c.count a n).pwr = c.pwr := by rw [c.count_frame]
@[simp] theorem Channel.way_count (c : Channel) (a n : Nat) : (c.count a n).way = c.way := by rw [c.count_frame]
@[simp] theorem Channel.vecs_count (c : Channel) (a n : Nat) : (c.count a n).vecs = c.vecs := by rw [c.count_frame]
@[simp] theorem Channel.dark_count (c : Channel) (a n : Nat) : (c.count a n).dark = c.dark := by rw [c.count_frame]
@[simp] theorem Channel.out_count (c : Channel) (a n : Nat) : (c.count a n).out = c.out := by rw [c.count_frame]
@[simp] theorem Channel.otp_count (c : Channel) (a n : Nat) : (c.count a n).otp = c.otp := by rw [c.count_frame]
@[simp] theorem Channel.ts_count (c : Channel) (a n : Nat) : (c.count a n).ts = c.ts := by rw [c.count_frame]

/-! ### setCore -/

@[simp] theorem Channel.num_setCore (c : Channel) (i : Nat) (k : Core) : (c.setCore i k).num = c.num := rfl
@[simp] theorem Channel.regs_setCore (c : Channel) (i : Nat) (k : Core) : (c.setCore i k).regs = c.regs := rfl
@[simp] theorem Channel.mem_setCore (c : Channel) (i : Nat) (k : Core) : (c.setCore i k).mem = c.mem := rfl
@[simp] theorem Channel.faultq_setCore (c : Channel) (i : Nat) (k : Core) : (c.setCore i k).faultq = c.faultq := rfl
@[simp] theorem Channel.cmsgs_setCore (c : Channel) (i : Nat) (k : Core) : (c.setCore i k).cmsgs = c.cmsgs := rfl
@[simp] theorem Channel.mesh_setCore (c : Channel) (i : Nat) (k : Core) : (c.setCore i k).mesh = c.mesh := rfl
@[simp] theorem Channel.merges_setCore (c : Channel) (i : Nat) (k : Core) : (c.setCore i k).merges = c.merges := rfl
@[simp] theorem Channel.qlines_setCore (c : Channel) (i : Nat) (k : Core) : (c.setCore i k).qlines = c.qlines := rfl
@[simp] theorem Channel.qcreds_setCore (c : Channel) (i : Nat) (k : Core) : (c.setCore i k).qcreds = c.qcreds := rfl
@[simp] theorem Channel.corr_setCore (c : Channel) (i : Nat) (k : Core) : (c.setCore i k).corr = c.corr := rfl
@[simp] theorem Channel.scrub_setCore (c : Channel) (i : Nat) (k : Core) : (c.setCore i k).scrub = c.scrub := rfl
@[simp] theorem Channel.mscrub_setCore (c : Channel) (i : Nat) (k : Core) : (c.setCore i k).mscrub = c.mscrub := rfl
@[simp] theorem Channel.flash_setCore (c : Channel) (i : Nat) (k : Core) : (c.setCore i k).flash = c.flash := rfl
@[simp] theorem Channel.kt5_setCore (c : Channel) (i : Nat) (k : Core) : (c.setCore i k).kt5 = c.kt5 := rfl
@[simp] theorem Channel.bkts_setCore (c : Channel) (i : Nat) (k : Core) : (c.setCore i k).bkts = c.bkts := rfl
@[simp] theorem Channel.steps_setCore (c : Channel) (i : Nat) (k : Core) : (c.setCore i k).steps = c.steps := rfl
@[simp] theorem Channel.yl_setCore (c : Channel) (i : Nat) (k : Core) : (c.setCore i k).yl = c.yl := rfl
@[simp] theorem Channel.tat_setCore (c : Channel) (i : Nat) (k : Core) : (c.setCore i k).tat = c.tat := rfl
@[simp] theorem Channel.host_setCore (c : Channel) (i : Nat) (k : Core) : (c.setCore i k).host = c.host := rfl
@[simp] theorem Channel.rinse_setCore (c : Channel) (i : Nat) (k : Core) : (c.setCore i k).rinse = c.rinse := rfl
@[simp] theorem Channel.fw_setCore (c : Channel) (i : Nat) (k : Core) : (c.setCore i k).fw = c.fw := rfl
@[simp] theorem Channel.bflash_setCore (c : Channel) (i : Nat) (k : Core) : (c.setCore i k).bflash = c.bflash := rfl
@[simp] theorem Channel.pwr_setCore (c : Channel) (i : Nat) (k : Core) : (c.setCore i k).pwr = c.pwr := rfl
@[simp] theorem Channel.way_setCore (c : Channel) (i : Nat) (k : Core) : (c.setCore i k).way = c.way := rfl
@[simp] theorem Channel.vecs_setCore (c : Channel) (i : Nat) (k : Core) : (c.setCore i k).vecs = c.vecs := rfl
@[simp] theorem Channel.dark_setCore (c : Channel) (i : Nat) (k : Core) : (c.setCore i k).dark = c.dark := rfl
@[simp] theorem Channel.out_setCore (c : Channel) (i : Nat) (k : Core) : (c.setCore i k).out = c.out := rfl
@[simp] theorem Channel.otp_setCore (c : Channel) (i : Nat) (k : Core) : (c.setCore i k).otp = c.otp := rfl
@[simp] theorem Channel.ts_setCore (c : Channel) (i : Nat) (k : Core) : (c.setCore i k).ts = c.ts := rfl

/-! ### modStr -/

@[simp] theorem Channel.num_modStr (c : Channel) (i : Nat) (st : Strm) (g : Stream → Stream) : (c.modStr i st g).num = c.num := rfl
@[simp] theorem Channel.regs_modStr (c : Channel) (i : Nat) (st : Strm) (g : Stream → Stream) : (c.modStr i st g).regs = c.regs := rfl
@[simp] theorem Channel.mem_modStr (c : Channel) (i : Nat) (st : Strm) (g : Stream → Stream) : (c.modStr i st g).mem = c.mem := rfl
@[simp] theorem Channel.faultq_modStr (c : Channel) (i : Nat) (st : Strm) (g : Stream → Stream) : (c.modStr i st g).faultq = c.faultq := rfl
@[simp] theorem Channel.cmsgs_modStr (c : Channel) (i : Nat) (st : Strm) (g : Stream → Stream) : (c.modStr i st g).cmsgs = c.cmsgs := rfl
@[simp] theorem Channel.mesh_modStr (c : Channel) (i : Nat) (st : Strm) (g : Stream → Stream) : (c.modStr i st g).mesh = c.mesh := rfl
@[simp] theorem Channel.merges_modStr (c : Channel) (i : Nat) (st : Strm) (g : Stream → Stream) : (c.modStr i st g).merges = c.merges := rfl
@[simp] theorem Channel.qlines_modStr (c : Channel) (i : Nat) (st : Strm) (g : Stream → Stream) : (c.modStr i st g).qlines = c.qlines := rfl
@[simp] theorem Channel.qcreds_modStr (c : Channel) (i : Nat) (st : Strm) (g : Stream → Stream) : (c.modStr i st g).qcreds = c.qcreds := rfl
@[simp] theorem Channel.corr_modStr (c : Channel) (i : Nat) (st : Strm) (g : Stream → Stream) : (c.modStr i st g).corr = c.corr := rfl
@[simp] theorem Channel.scrub_modStr (c : Channel) (i : Nat) (st : Strm) (g : Stream → Stream) : (c.modStr i st g).scrub = c.scrub := rfl
@[simp] theorem Channel.mscrub_modStr (c : Channel) (i : Nat) (st : Strm) (g : Stream → Stream) : (c.modStr i st g).mscrub = c.mscrub := rfl
@[simp] theorem Channel.flash_modStr (c : Channel) (i : Nat) (st : Strm) (g : Stream → Stream) : (c.modStr i st g).flash = c.flash := rfl
@[simp] theorem Channel.kt5_modStr (c : Channel) (i : Nat) (st : Strm) (g : Stream → Stream) : (c.modStr i st g).kt5 = c.kt5 := rfl
@[simp] theorem Channel.bkts_modStr (c : Channel) (i : Nat) (st : Strm) (g : Stream → Stream) : (c.modStr i st g).bkts = c.bkts := rfl
@[simp] theorem Channel.steps_modStr (c : Channel) (i : Nat) (st : Strm) (g : Stream → Stream) : (c.modStr i st g).steps = c.steps := rfl
@[simp] theorem Channel.yl_modStr (c : Channel) (i : Nat) (st : Strm) (g : Stream → Stream) : (c.modStr i st g).yl = c.yl := rfl
@[simp] theorem Channel.tat_modStr (c : Channel) (i : Nat) (st : Strm) (g : Stream → Stream) : (c.modStr i st g).tat = c.tat := rfl
@[simp] theorem Channel.host_modStr (c : Channel) (i : Nat) (st : Strm) (g : Stream → Stream) : (c.modStr i st g).host = c.host := rfl
@[simp] theorem Channel.rinse_modStr (c : Channel) (i : Nat) (st : Strm) (g : Stream → Stream) : (c.modStr i st g).rinse = c.rinse := rfl
@[simp] theorem Channel.fw_modStr (c : Channel) (i : Nat) (st : Strm) (g : Stream → Stream) : (c.modStr i st g).fw = c.fw := rfl
@[simp] theorem Channel.bflash_modStr (c : Channel) (i : Nat) (st : Strm) (g : Stream → Stream) : (c.modStr i st g).bflash = c.bflash := rfl
@[simp] theorem Channel.pwr_modStr (c : Channel) (i : Nat) (st : Strm) (g : Stream → Stream) : (c.modStr i st g).pwr = c.pwr := rfl
@[simp] theorem Channel.way_modStr (c : Channel) (i : Nat) (st : Strm) (g : Stream → Stream) : (c.modStr i st g).way = c.way := rfl
@[simp] theorem Channel.vecs_modStr (c : Channel) (i : Nat) (st : Strm) (g : Stream → Stream) : (c.modStr i st g).vecs = c.vecs := rfl
@[simp] theorem Channel.dark_modStr (c : Channel) (i : Nat) (st : Strm) (g : Stream → Stream) : (c.modStr i st g).dark = c.dark := rfl
@[simp] theorem Channel.out_modStr (c : Channel) (i : Nat) (st : Strm) (g : Stream → Stream) : (c.modStr i st g).out = c.out := rfl
@[simp] theorem Channel.otp_modStr (c : Channel) (i : Nat) (st : Strm) (g : Stream → Stream) : (c.modStr i st g).otp = c.otp := rfl
@[simp] theorem Channel.ts_modStr (c : Channel) (i : Nat) (st : Strm) (g : Stream → Stream) : (c.modStr i st g).ts = c.ts := rfl

/-! ### poke -/

@[simp] theorem Channel.num_poke (c : Channel) (a : Nat) (b : Byte) : (c.poke a b).num = c.num := rfl
@[simp] theorem Channel.regs_poke (c : Channel) (a : Nat) (b : Byte) : (c.poke a b).regs = c.regs := rfl
@[simp] theorem Channel.cores_poke (c : Channel) (a : Nat) (b : Byte) : (c.poke a b).cores = c.cores := rfl
@[simp] theorem Channel.faultq_poke (c : Channel) (a : Nat) (b : Byte) : (c.poke a b).faultq = c.faultq := rfl
@[simp] theorem Channel.cmsgs_poke (c : Channel) (a : Nat) (b : Byte) : (c.poke a b).cmsgs = c.cmsgs := rfl
@[simp] theorem Channel.mesh_poke (c : Channel) (a : Nat) (b : Byte) : (c.poke a b).mesh = c.mesh := rfl
@[simp] theorem Channel.merges_poke (c : Channel) (a : Nat) (b : Byte) : (c.poke a b).merges = c.merges := rfl
@[simp] theorem Channel.qlines_poke (c : Channel) (a : Nat) (b : Byte) : (c.poke a b).qlines = c.qlines := rfl
@[simp] theorem Channel.qcreds_poke (c : Channel) (a : Nat) (b : Byte) : (c.poke a b).qcreds = c.qcreds := rfl
@[simp] theorem Channel.corr_poke (c : Channel) (a : Nat) (b : Byte) : (c.poke a b).corr = c.corr := rfl
@[simp] theorem Channel.scrub_poke (c : Channel) (a : Nat) (b : Byte) : (c.poke a b).scrub = c.scrub := rfl
@[simp] theorem Channel.mscrub_poke (c : Channel) (a : Nat) (b : Byte) : (c.poke a b).mscrub = c.mscrub := rfl
@[simp] theorem Channel.flash_poke (c : Channel) (a : Nat) (b : Byte) : (c.poke a b).flash = c.flash := rfl
@[simp] theorem Channel.kt5_poke (c : Channel) (a : Nat) (b : Byte) : (c.poke a b).kt5 = c.kt5 := rfl
@[simp] theorem Channel.bkts_poke (c : Channel) (a : Nat) (b : Byte) : (c.poke a b).bkts = c.bkts := rfl
@[simp] theorem Channel.steps_poke (c : Channel) (a : Nat) (b : Byte) : (c.poke a b).steps = c.steps := rfl
@[simp] theorem Channel.yl_poke (c : Channel) (a : Nat) (b : Byte) : (c.poke a b).yl = c.yl := rfl
@[simp] theorem Channel.tat_poke (c : Channel) (a : Nat) (b : Byte) : (c.poke a b).tat = c.tat := rfl
@[simp] theorem Channel.host_poke (c : Channel) (a : Nat) (b : Byte) : (c.poke a b).host = c.host := rfl
@[simp] theorem Channel.rinse_poke (c : Channel) (a : Nat) (b : Byte) : (c.poke a b).rinse = c.rinse := rfl
@[simp] theorem Channel.fw_poke (c : Channel) (a : Nat) (b : Byte) : (c.poke a b).fw = c.fw := rfl
@[simp] theorem Channel.bflash_poke (c : Channel) (a : Nat) (b : Byte) : (c.poke a b).bflash = c.bflash := rfl
@[simp] theorem Channel.pwr_poke (c : Channel) (a : Nat) (b : Byte) : (c.poke a b).pwr = c.pwr := rfl
@[simp] theorem Channel.way_poke (c : Channel) (a : Nat) (b : Byte) : (c.poke a b).way = c.way := rfl
@[simp] theorem Channel.vecs_poke (c : Channel) (a : Nat) (b : Byte) : (c.poke a b).vecs = c.vecs := rfl
@[simp] theorem Channel.dark_poke (c : Channel) (a : Nat) (b : Byte) : (c.poke a b).dark = c.dark := rfl
@[simp] theorem Channel.out_poke (c : Channel) (a : Nat) (b : Byte) : (c.poke a b).out = c.out := rfl
@[simp] theorem Channel.otp_poke (c : Channel) (a : Nat) (b : Byte) : (c.poke a b).otp = c.otp := rfl
@[simp] theorem Channel.ts_poke (c : Channel) (a : Nat) (b : Byte) : (c.poke a b).ts = c.ts := rfl

/-! ### raise -/

@[simp] theorem Channel.num_raise (c : Channel) (m : FaultMsg) : (c.raise m).num = c.num := rfl
@[simp] theorem Channel.regs_raise (c : Channel) (m : FaultMsg) : (c.raise m).regs = c.regs := rfl
@[simp] theorem Channel.mem_raise (c : Channel) (m : FaultMsg) : (c.raise m).mem = c.mem := rfl
@[simp] theorem Channel.cores_raise (c : Channel) (m : FaultMsg) : (c.raise m).cores = c.cores := rfl
@[simp] theorem Channel.cmsgs_raise (c : Channel) (m : FaultMsg) : (c.raise m).cmsgs = c.cmsgs := rfl
@[simp] theorem Channel.mesh_raise (c : Channel) (m : FaultMsg) : (c.raise m).mesh = c.mesh := rfl
@[simp] theorem Channel.merges_raise (c : Channel) (m : FaultMsg) : (c.raise m).merges = c.merges := rfl
@[simp] theorem Channel.qlines_raise (c : Channel) (m : FaultMsg) : (c.raise m).qlines = c.qlines := rfl
@[simp] theorem Channel.qcreds_raise (c : Channel) (m : FaultMsg) : (c.raise m).qcreds = c.qcreds := rfl
@[simp] theorem Channel.corr_raise (c : Channel) (m : FaultMsg) : (c.raise m).corr = c.corr := rfl
@[simp] theorem Channel.scrub_raise (c : Channel) (m : FaultMsg) : (c.raise m).scrub = c.scrub := rfl
@[simp] theorem Channel.mscrub_raise (c : Channel) (m : FaultMsg) : (c.raise m).mscrub = c.mscrub := rfl
@[simp] theorem Channel.flash_raise (c : Channel) (m : FaultMsg) : (c.raise m).flash = c.flash := rfl
@[simp] theorem Channel.kt5_raise (c : Channel) (m : FaultMsg) : (c.raise m).kt5 = c.kt5 := rfl
@[simp] theorem Channel.bkts_raise (c : Channel) (m : FaultMsg) : (c.raise m).bkts = c.bkts := rfl
@[simp] theorem Channel.steps_raise (c : Channel) (m : FaultMsg) : (c.raise m).steps = c.steps := rfl
@[simp] theorem Channel.yl_raise (c : Channel) (m : FaultMsg) : (c.raise m).yl = c.yl := rfl
@[simp] theorem Channel.tat_raise (c : Channel) (m : FaultMsg) : (c.raise m).tat = c.tat := rfl
@[simp] theorem Channel.host_raise (c : Channel) (m : FaultMsg) : (c.raise m).host = c.host := rfl
@[simp] theorem Channel.rinse_raise (c : Channel) (m : FaultMsg) : (c.raise m).rinse = c.rinse := rfl
@[simp] theorem Channel.fw_raise (c : Channel) (m : FaultMsg) : (c.raise m).fw = c.fw := rfl
@[simp] theorem Channel.bflash_raise (c : Channel) (m : FaultMsg) : (c.raise m).bflash = c.bflash := rfl
@[simp] theorem Channel.pwr_raise (c : Channel) (m : FaultMsg) : (c.raise m).pwr = c.pwr := rfl
@[simp] theorem Channel.way_raise (c : Channel) (m : FaultMsg) : (c.raise m).way = c.way := rfl
@[simp] theorem Channel.vecs_raise (c : Channel) (m : FaultMsg) : (c.raise m).vecs = c.vecs := rfl
@[simp] theorem Channel.dark_raise (c : Channel) (m : FaultMsg) : (c.raise m).dark = c.dark := rfl
@[simp] theorem Channel.out_raise (c : Channel) (m : FaultMsg) : (c.raise m).out = c.out := rfl
@[simp] theorem Channel.otp_raise (c : Channel) (m : FaultMsg) : (c.raise m).otp = c.otp := rfl
@[simp] theorem Channel.ts_raise (c : Channel) (m : FaultMsg) : (c.raise m).ts = c.ts := rfl

/-! ### bobClear -/

@[simp] theorem Channel.num_bobClear (c : Channel) (i j : Nat) : (c.bobClear i j).num = c.num := rfl
@[simp] theorem Channel.regs_bobClear (c : Channel) (i j : Nat) : (c.bobClear i j).regs = c.regs := rfl
@[simp] theorem Channel.cores_bobClear (c : Channel) (i j : Nat) : (c.bobClear i j).cores = c.cores := rfl
@[simp] theorem Channel.faultq_bobClear (c : Channel) (i j : Nat) : (c.bobClear i j).faultq = c.faultq := rfl
@[simp] theorem Channel.cmsgs_bobClear (c : Channel) (i j : Nat) : (c.bobClear i j).cmsgs = c.cmsgs := rfl
@[simp] theorem Channel.mesh_bobClear (c : Channel) (i j : Nat) : (c.bobClear i j).mesh = c.mesh := rfl
@[simp] theorem Channel.merges_bobClear (c : Channel) (i j : Nat) : (c.bobClear i j).merges = c.merges := rfl
@[simp] theorem Channel.qlines_bobClear (c : Channel) (i j : Nat) : (c.bobClear i j).qlines = c.qlines := rfl
@[simp] theorem Channel.qcreds_bobClear (c : Channel) (i j : Nat) : (c.bobClear i j).qcreds = c.qcreds := rfl
@[simp] theorem Channel.corr_bobClear (c : Channel) (i j : Nat) : (c.bobClear i j).corr = c.corr := rfl
@[simp] theorem Channel.scrub_bobClear (c : Channel) (i j : Nat) : (c.bobClear i j).scrub = c.scrub := rfl
@[simp] theorem Channel.mscrub_bobClear (c : Channel) (i j : Nat) : (c.bobClear i j).mscrub = c.mscrub := rfl
@[simp] theorem Channel.flash_bobClear (c : Channel) (i j : Nat) : (c.bobClear i j).flash = c.flash := rfl
@[simp] theorem Channel.kt5_bobClear (c : Channel) (i j : Nat) : (c.bobClear i j).kt5 = c.kt5 := rfl
@[simp] theorem Channel.bkts_bobClear (c : Channel) (i j : Nat) : (c.bobClear i j).bkts = c.bkts := rfl
@[simp] theorem Channel.steps_bobClear (c : Channel) (i j : Nat) : (c.bobClear i j).steps = c.steps := rfl
@[simp] theorem Channel.yl_bobClear (c : Channel) (i j : Nat) : (c.bobClear i j).yl = c.yl := rfl
@[simp] theorem Channel.tat_bobClear (c : Channel) (i j : Nat) : (c.bobClear i j).tat = c.tat := rfl
@[simp] theorem Channel.host_bobClear (c : Channel) (i j : Nat) : (c.bobClear i j).host = c.host := rfl
@[simp] theorem Channel.rinse_bobClear (c : Channel) (i j : Nat) : (c.bobClear i j).rinse = c.rinse := rfl
@[simp] theorem Channel.fw_bobClear (c : Channel) (i j : Nat) : (c.bobClear i j).fw = c.fw := rfl
@[simp] theorem Channel.bflash_bobClear (c : Channel) (i j : Nat) : (c.bobClear i j).bflash = c.bflash := rfl
@[simp] theorem Channel.pwr_bobClear (c : Channel) (i j : Nat) : (c.bobClear i j).pwr = c.pwr := rfl
@[simp] theorem Channel.way_bobClear (c : Channel) (i j : Nat) : (c.bobClear i j).way = c.way := rfl
@[simp] theorem Channel.vecs_bobClear (c : Channel) (i j : Nat) : (c.bobClear i j).vecs = c.vecs := rfl
@[simp] theorem Channel.dark_bobClear (c : Channel) (i j : Nat) : (c.bobClear i j).dark = c.dark := rfl
@[simp] theorem Channel.out_bobClear (c : Channel) (i j : Nat) : (c.bobClear i j).out = c.out := rfl
@[simp] theorem Channel.otp_bobClear (c : Channel) (i j : Nat) : (c.bobClear i j).otp = c.otp := rfl
@[simp] theorem Channel.ts_bobClear (c : Channel) (i j : Nat) : (c.bobClear i j).ts = c.ts := rfl

/-! ### emit -/

@[simp] theorem Channel.num_emit (c : Channel) (x : Out) : (c.emit x).num = c.num := rfl
@[simp] theorem Channel.regs_emit (c : Channel) (x : Out) : (c.emit x).regs = c.regs := rfl
@[simp] theorem Channel.mem_emit (c : Channel) (x : Out) : (c.emit x).mem = c.mem := rfl
@[simp] theorem Channel.cores_emit (c : Channel) (x : Out) : (c.emit x).cores = c.cores := rfl
@[simp] theorem Channel.faultq_emit (c : Channel) (x : Out) : (c.emit x).faultq = c.faultq := rfl
@[simp] theorem Channel.cmsgs_emit (c : Channel) (x : Out) : (c.emit x).cmsgs = c.cmsgs := rfl
@[simp] theorem Channel.mesh_emit (c : Channel) (x : Out) : (c.emit x).mesh = c.mesh := rfl
@[simp] theorem Channel.merges_emit (c : Channel) (x : Out) : (c.emit x).merges = c.merges := rfl
@[simp] theorem Channel.qlines_emit (c : Channel) (x : Out) : (c.emit x).qlines = c.qlines := rfl
@[simp] theorem Channel.qcreds_emit (c : Channel) (x : Out) : (c.emit x).qcreds = c.qcreds := rfl
@[simp] theorem Channel.corr_emit (c : Channel) (x : Out) : (c.emit x).corr = c.corr := rfl
@[simp] theorem Channel.scrub_emit (c : Channel) (x : Out) : (c.emit x).scrub = c.scrub := rfl
@[simp] theorem Channel.mscrub_emit (c : Channel) (x : Out) : (c.emit x).mscrub = c.mscrub := rfl
@[simp] theorem Channel.flash_emit (c : Channel) (x : Out) : (c.emit x).flash = c.flash := rfl
@[simp] theorem Channel.kt5_emit (c : Channel) (x : Out) : (c.emit x).kt5 = c.kt5 := rfl
@[simp] theorem Channel.bkts_emit (c : Channel) (x : Out) : (c.emit x).bkts = c.bkts := rfl
@[simp] theorem Channel.steps_emit (c : Channel) (x : Out) : (c.emit x).steps = c.steps := rfl
@[simp] theorem Channel.yl_emit (c : Channel) (x : Out) : (c.emit x).yl = c.yl := rfl
@[simp] theorem Channel.tat_emit (c : Channel) (x : Out) : (c.emit x).tat = c.tat := rfl
@[simp] theorem Channel.host_emit (c : Channel) (x : Out) : (c.emit x).host = c.host := rfl
@[simp] theorem Channel.rinse_emit (c : Channel) (x : Out) : (c.emit x).rinse = c.rinse := rfl
@[simp] theorem Channel.fw_emit (c : Channel) (x : Out) : (c.emit x).fw = c.fw := rfl
@[simp] theorem Channel.bflash_emit (c : Channel) (x : Out) : (c.emit x).bflash = c.bflash := rfl
@[simp] theorem Channel.pwr_emit (c : Channel) (x : Out) : (c.emit x).pwr = c.pwr := rfl
@[simp] theorem Channel.way_emit (c : Channel) (x : Out) : (c.emit x).way = c.way := rfl
@[simp] theorem Channel.vecs_emit (c : Channel) (x : Out) : (c.emit x).vecs = c.vecs := rfl
@[simp] theorem Channel.dark_emit (c : Channel) (x : Out) : (c.emit x).dark = c.dark := rfl
@[simp] theorem Channel.otp_emit (c : Channel) (x : Out) : (c.emit x).otp = c.otp := rfl
@[simp] theorem Channel.ts_emit (c : Channel) (x : Out) : (c.emit x).ts = c.ts := rfl

theorem Channel.faultq_raise (c : Channel) (m : FaultMsg) : (c.raise m).faultq = c.faultq ++ [m] := rfl
theorem Channel.out_emit (c : Channel) (x : Out) : (c.emit x).out = x :: c.out := rfl
theorem Channel.mem_poke (c : Channel) (a : Nat) (b : Byte) : (c.poke a b).mem = mset memDefault c.mem a b := rfl

/-! ### Reads of registers, fields and cores past the updates of other parts -/

@[simp] theorem Channel.rd_poke (c : Channel) (a : Nat) (b : Byte) (r : Nat) : (c.poke a b).rd r = c.rd r := rfl
@[simp] theorem Channel.fld_poke (c : Channel) (a : Nat) (b : Byte) (r : Nat) (f : Fld) : (c.poke a b).fld r f = c.fld r f := rfl
@[simp] theorem Channel.core_poke (c : Channel) (a : Nat) (b : Byte) (k : Nat) : (c.poke a b).core k = c.core k := rfl
@[simp] theorem Channel.rd_raise (c : Channel) (m : FaultMsg) (r : Nat) : (c.raise m).rd r = c.rd r := rfl
@[simp] theorem Channel.fld_raise (c : Channel) (m : FaultMsg) (r : Nat) (f : Fld) : (c.raise m).fld r f = c.fld r f := rfl
@[simp] theorem Channel.core_raise (c : Channel) (m : FaultMsg) (k : Nat) : (c.raise m).core k = c.core k := rfl
@[simp] theorem Channel.rd_emit (c : Channel) (x : Out) (r : Nat) : (c.emit x).rd r = c.rd r := rfl
@[simp] theorem Channel.fld_emit (c : Channel) (x : Out) (r : Nat) (f : Fld) : (c.emit x).fld r f = c.fld r f := rfl
@[simp] theorem Channel.core_emit (c : Channel) (x : Out) (k : Nat) : (c.emit x).core k = c.core k := rfl
@[simp] theorem Channel.rd_bobClear (c : Channel) (i j : Nat) (r : Nat) : (c.bobClear i j).rd r = c.rd r := rfl
@[simp] theorem Channel.fld_bobClear (c : Channel) (i j : Nat) (r : Nat) (f : Fld) : (c.bobClear i j).fld r f = c.fld r f := rfl
@[simp] theorem Channel.core_bobClear (c : Channel) (i j : Nat) (k : Nat) : (c.bobClear i j).core k = c.core k := rfl

/-! ### The module -/

@[simp] theorem State.ch0_emit (s : State) (x : Out) : (s.emit x).ch0 = s.ch0 := rfl
@[simp] theorem State.ch1_emit (s : State) (x : Out) : (s.emit x).ch1 = s.ch1 := rfl
@[simp] theorem State.ch2_emit (s : State) (x : Out) : (s.emit x).ch2 = s.ch2 := rfl
@[simp] theorem State.ch3_emit (s : State) (x : Out) : (s.emit x).ch3 = s.ch3 := rfl
@[simp] theorem State.mod_emit (s : State) (x : Out) : (s.emit x).mod = s.mod := rfl
@[simp] theorem State.pins_emit (s : State) (x : Out) : (s.emit x).pins = s.pins := rfl
@[simp] theorem State.free_emit (s : State) (x : Out) : (s.emit x).free = s.free := rfl
@[simp] theorem State.pending_emit (s : State) (x : Out) : (s.emit x).pending = s.pending := rfl
@[simp] theorem State.chan_emit (s : State) (x : Out) (k : Chan) : (s.emit x).chan k = s.chan k := by match k with | 0 | 1 | 2 | 3 => rfl
@[simp] theorem State.ch0_mwr (s : State) (a v : Nat) : (s.mwr a v).ch0 = s.ch0 := rfl
@[simp] theorem State.ch1_mwr (s : State) (a v : Nat) : (s.mwr a v).ch1 = s.ch1 := rfl
@[simp] theorem State.ch2_mwr (s : State) (a v : Nat) : (s.mwr a v).ch2 = s.ch2 := rfl
@[simp] theorem State.ch3_mwr (s : State) (a v : Nat) : (s.mwr a v).ch3 = s.ch3 := rfl
@[simp] theorem State.pins_mwr (s : State) (a v : Nat) : (s.mwr a v).pins = s.pins := rfl
@[simp] theorem State.out_mwr (s : State) (a v : Nat) : (s.mwr a v).out = s.out := rfl
@[simp] theorem State.free_mwr (s : State) (a v : Nat) : (s.mwr a v).free = s.free := rfl
@[simp] theorem State.pending_mwr (s : State) (a v : Nat) : (s.mwr a v).pending = s.pending := rfl
@[simp] theorem State.chan_mwr (s : State) (a v : Nat) (k : Chan) : (s.mwr a v).chan k = s.chan k := by match k with | 0 | 1 | 2 | 3 => rfl
@[simp] theorem State.mod_onAll (s : State) (g : Channel → Channel) : (s.onAll g).mod = s.mod := rfl
@[simp] theorem State.mod_tick (s : State) : s.tick.mod = s.mod := rfl
@[simp] theorem State.pins_onAll (s : State) (g : Channel → Channel) : (s.onAll g).pins = s.pins := rfl
@[simp] theorem State.pins_tick (s : State) : s.tick.pins = s.pins := rfl
@[simp] theorem State.out_onAll (s : State) (g : Channel → Channel) : (s.onAll g).out = s.out := rfl
@[simp] theorem State.out_tick (s : State) : s.tick.out = s.out := rfl
@[simp] theorem State.free_onAll (s : State) (g : Channel → Channel) : (s.onAll g).free = s.free := rfl
@[simp] theorem State.free_tick (s : State) : s.tick.free = s.free := rfl
@[simp] theorem State.pending_onAll (s : State) (g : Channel → Channel) : (s.onAll g).pending = s.pending := rfl
@[simp] theorem State.pending_tick (s : State) : s.tick.pending = s.pending := rfl
@[simp] theorem State.chan_onAll (s : State) (g : Channel → Channel) (k : Chan) : (s.onAll g).chan k = g (s.chan k) := by match k with | 0 | 1 | 2 | 3 => rfl
@[simp] theorem State.chan_free (s : State) (n : Nat) (k : Chan) : State.chan { s with free := n } k = s.chan k := by match k with | 0 | 1 | 2 | 3 => rfl
@[simp] theorem State.chan_pending (s : State) (l : List Instr) (k : Chan) : State.chan { s with pending := l } k = s.chan k := by match k with | 0 | 1 | 2 | 3 => rfl

end Sys2Proof.Machine
end

