-- ==== Sys2Proof/Laws/Memory.lean ====
section
/-! SUPPORT. The laws of memory: every operation that stores keeps the canonical form; a byte reads back as stored; the rest stays. -/

namespace Sys2Proof.Machine

open Sys2Proof

theorem Memory.wf_mset {m : List Host.Cell} (h : Memory.wf m) (a : Nat) (b : Byte) : Memory.wf (mset memDefault m a b) := mwf_mset _ _ _ _ h
theorem Memory.wf_filter {m : List Host.Cell} (h : Memory.wf m) (p : Nat × Byte → Bool) : Memory.wf (m.filter p) := mwf_filter _ _ _ h
theorem Memory.wf_mclear {m : List Host.Cell} (h : Memory.wf m) (lo hi : Nat) : Memory.wf (mclear m lo hi) := mwf_mclear _ _ _ _ h

theorem Memory.wf_poke {c : Channel} (h : Memory.wf c.mem) (a : Nat) (b : Byte) : Memory.wf (c.poke a b).mem := Memory.wf_mset h a b
theorem Memory.wf_bobClear {c : Channel} (h : Memory.wf c.mem) (i j : Nat) : Memory.wf (c.bobClear i j).mem := Memory.wf_mclear h _ _

@[simp] theorem Channel.mem_flashPut (c : Channel) (o : Nat) (b : Byte) (offl : Bool) : (c.flashPut o b offl).mem = c.mem := by
  simp only [Channel.flashPut]; split <;> rfl

@[simp] theorem Channel.mem_ktDirty (c : Channel) (o : Nat) : (c.ktDirty o).mem = c.mem := by
  simp only [Channel.ktDirty]; split <;> rfl

/-- A word that has been written: its correction is forgotten, nothing else. -/
@[simp] theorem Channel.mem_wroteWord (c : Channel) (a : Nat) : (c.wroteWord a).mem = c.mem := rfl
@[simp] theorem Channel.regs_wroteWord (c : Channel) (a : Nat) : (c.wroteWord a).regs = c.regs := rfl
@[simp] theorem Channel.cores_wroteWord (c : Channel) (a : Nat) : (c.wroteWord a).cores = c.cores := rfl

/-- Flits offered to a router change the mesh alone, so a slice's multicasts do. -/
theorem Channel.castAll_eq (slice data n : Nat) (c : Channel) (l : List (Nat × Nat)) :
    ∃ q, c.castAll slice data l n = { c with mesh := q } := by
  induction n generalizing c l with
  | zero => exact ⟨_, rfl⟩
  | succ n ih =>
    simp only [Channel.castAll]
    split
    · exact ⟨_, rfl⟩
    · obtain ⟨q, e⟩ := ih (c.castOne slice data (castNext l)) ((castNext l).foldl (fun l e => eraseFirst e l) l)
      rw [e]
      simp only [Channel.castOne, Channel.meshOffer]
      split <;> exact ⟨_, rfl⟩

/-- Everything the end of a merge entry can do: flits into the mesh, and the entry goes. -/
theorem Channel.mergeShut_eq (c : Channel) (slice line : Nat) : ∃ q m, c.mergeShut slice line = { c with mesh := q, merges := m } := by
  simp only [Channel.mergeShut]
  split
  · exact ⟨_, _, rfl⟩
  · simp only [Channel.mergeAnswer]
    split
    · split <;> exact ⟨_, _, rfl⟩
    · obtain ⟨q, e⟩ := Channel.castAll_eq _ _ _ c _
      rw [e]; exact ⟨_, _, rfl⟩

@[simp] theorem Channel.mem_mergeShut (c : Channel) (slice line : Nat) : (c.mergeShut slice line).mem = c.mem := by
  obtain ⟨_, _, e⟩ := c.mergeShut_eq slice line; rw [e]
@[simp] theorem Channel.regs_mergeShut (c : Channel) (slice line : Nat) : (c.mergeShut slice line).regs = c.regs := by
  obtain ⟨_, _, e⟩ := c.mergeShut_eq slice line; rw [e]
@[simp] theorem Channel.cores_mergeShut (c : Channel) (slice line : Nat) : (c.mergeShut slice line).cores = c.cores := by
  obtain ⟨_, _, e⟩ := c.mergeShut_eq slice line; rw [e]

/-- Everything one stored byte can do to memory: nothing, or one byte of it. -/
theorem Channel.mem_stByte (c : Channel) (a : Nat) (b : Byte) (offl : Bool) :
    (c.stByte a b offl).mem = c.mem ∨ ∃ k, (c.stByte a b offl).mem = mset memDefault c.mem k b := by
  simp only [Channel.stByte]
  split
  · split
    · exact .inr ⟨a, rfl⟩
    · exact .inl rfl
  · split
    · exact .inr ⟨a, rfl⟩
    · exact .inl rfl
  · exact .inr ⟨a, by simp [Channel.mem_poke]⟩
  · exact .inr ⟨a, rfl⟩
  · exact .inl (by simp)
  · split
    · exact .inr ⟨_, by rw [Channel.mem_ktDirty]; rfl⟩
    · exact .inl rfl
  · exact .inl rfl
  · exact .inl rfl

theorem Memory.wf_stByte {c : Channel} (h : Memory.wf c.mem) (a : Nat) (b : Byte) (offl : Bool) : Memory.wf (c.stByte a b offl).mem := by
  rcases c.mem_stByte a b offl with e | ⟨k, e⟩ <;> rw [e]
  · exact h
  · exact Memory.wf_mset h k b

theorem Memory.wf_st (l : List Byte) {c : Channel} (h : Memory.wf c.mem) (a : Nat) (offl : Bool) : Memory.wf (c.st a offl l).mem := by
  induction l generalizing c a with
  | nil => exact h
  | cons b t ih => exact ih (Memory.wf_stByte h a b offl) (a + 1)

theorem Memory.wf_foldl {α : Type} (f : Channel → α → Channel) (hf : ∀ c x, Memory.wf c.mem → Memory.wf (f c x).mem) (l : List α) {c : Channel}
    (h : Memory.wf c.mem) : Memory.wf (l.foldl f c).mem := by
  induction l generalizing c with
  | nil => exact h
  | cons x t ih => exact ih (hf c x h)

theorem Memory.wf_bobSet {c : Channel} (h : Memory.wf c.mem) (core j i k : Nat) (v : F32C) : Memory.wf (c.bobSet core j i k v).mem :=
  Memory.wf_foldl _ (fun _ _ hc => Memory.wf_poke hc _ _) _ h

/-- Nothing is listed in memory at reset, which is in canonical form. -/
theorem Memory.wf_reset (n : Nat) : Memory.wf (Channel.reset n).mem := rfl
theorem State.wf_reset : State.reset.wf = true := rfl

/-! ### Reads after a store -/

theorem Channel.mem_poke_same (c : Channel) (a : Nat) (b : Byte) : mget memDefault (c.poke a b).mem a = b := mget_mset_same _ _ _ _
theorem Channel.mem_poke_other (c : Channel) {a k : Nat} (b : Byte) (h : k ≠ a) : mget memDefault (c.poke a b).mem k = mget memDefault c.mem k :=
  mget_mset_other _ _ _ h

/-- An address map row looks at registers only. -/
theorem Channel.row_of_regs {c d : Channel} (h : d.regs = c.regs) (a : Nat) : d.row a = c.row a := by
  have e : d.flatSize = c.flatSize := by unfold Channel.flatSize Channel.fld Channel.rd; rw [h]
  unfold Channel.row; rw [e]

@[simp] theorem Channel.row_poke (c : Channel) (a k : Nat) (b : Byte) : (c.poke a b).row k = c.row k := Channel.row_of_regs rfl k
@[simp] theorem Channel.row_wroteWord (c : Channel) (a k : Nat) : (c.wroteWord a).row k = c.row k := Channel.row_of_regs rfl k
@[simp] theorem Channel.row_mergeShut (c : Channel) (slice line k : Nat) : (c.mergeShut slice line).row k = c.row k :=
  Channel.row_of_regs (by simp) k

/-- A byte of LPDDR5X or of the tier reads back as stored. -/
theorem Channel.ldByte_stByte_ram (c : Channel) (a : Nat) (b : Byte) (offl : Bool)
    (h : (∃ o, c.row a = .lp o) ∨ ∃ o, c.row a = .tier o) : (c.stByte a b offl).ldByte a = b := by
  rcases h with ⟨o, h⟩ | ⟨o, h⟩ <;> simp [Channel.stByte, Channel.ldByte, h, Channel.mem_poke_same]

end Sys2Proof.Machine
end

