-- ==== Sys2Proof/Laws/Ops.lean ====
section
/-! SUPPORT. Everything a shared operation can do, said once: proofs cite these and do not unfold the operation. -/

namespace Sys2Proof.Machine

open Sys2Proof

/-! ### Steps -/

theorem step_empty {s : State} (h : s.pending = []) : step s = .next s.tick := by simp [step, h]
theorem step_front (c : Instr) (q : List Instr) (s : State) : step { s with pending := c :: q } = exec c { s with pending := q } := rfl

/-! ### Counters -/

/-- A counter that counts: min of the sum and all ones (R11). -/
theorem Channel.rd_count (c : Channel) (a n b : Nat) : (c.count a n).rd b = if b = a then min (c.rd a + n) 0xFFFF_FFFF else c.rd b := by
  by_cases hb : b = a
  · subst hb
    simp only [if_true]
    by_cases hn : n = 0
    · subst hn
      have := c.rd_lt b
      simp only [Channel.count, if_true]; omega
    · rw [c.rd_count_same b n hn]; simp [satAdd]
  · simp only [if_neg hb]; exact c.rd_count_other n hb

/-! ### Events -/

/-- A vector changes the pending bits of MSI-X or what leaves the channel, nothing else. -/
theorem Channel.msix_frame (c : Channel) (v : Nat) : c.msix v = { c with vecs := (c.msix v).vecs, out := (c.msix v).out } := by
  simp only [Channel.msix]
  repeat' split
  all_goals rfl

theorem Channel.rd_msix (c : Channel) (v a : Nat) : (c.msix v).rd a = c.rd a := by rw [c.msix_frame v]; rfl

/-- An event changes HIF_EVPEND, the pending bits of MSI-X and what leaves the channel, nothing else. -/
theorem Channel.event_frame (c : Channel) (e : Nat) :
    c.event e = { c with regs := (c.event e).regs, vecs := (c.event e).vecs, out := (c.event e).out } := by
  simp only [Channel.event]
  split
  · rfl
  · split
    · rw [Channel.msix_frame]; rfl
    · rfl

theorem Channel.vecGo_frame (c : Channel) (v : Nat) : c.vecGo v = { c with vecs := (c.vecGo v).vecs, out := (c.vecGo v).out } := by
  simp only [Channel.vecGo]
  split
  · rw [Channel.msix_frame]
  · rfl

/-- A write to the MSI-X table changes that table, the pending bits and what leaves the channel, nothing else. -/
theorem Channel.msixWrite_frame (c : Channel) (a v : Nat) :
    c.msixWrite a v = { c with vecs := (c.msixWrite a v).vecs, out := (c.msixWrite a v).out } := by
  simp only [Channel.msixWrite]
  split
  · rfl
  · rw [Channel.vecGo_frame]

theorem Channel.rd_event_other (c : Channel) (e : Nat) {a : Nat} (h : a ≠ Reg.HIF_EVPEND) : (c.event e).rd a = c.rd a := by
  simp only [Channel.event]
  split
  · rfl
  · split
    · rw [Channel.rd_msix, Channel.rd_setFld_other _ _ _ h]
    · rw [Channel.rd_setFld_other _ _ _ h]

@[simp] theorem Channel.mem_event (c : Channel) (e : Nat) : (c.event e).mem = c.mem := by rw [c.event_frame e]
@[simp] theorem Channel.cores_event (c : Channel) (e : Nat) : (c.event e).cores = c.cores := by rw [c.event_frame e]
@[simp] theorem Channel.faultq_event (c : Channel) (e : Nat) : (c.event e).faultq = c.faultq := by rw [c.event_frame e]
@[simp] theorem Channel.cmsgs_event (c : Channel) (e : Nat) : (c.event e).cmsgs = c.cmsgs := by rw [c.event_frame e]
@[simp] theorem Channel.host_event (c : Channel) (e : Nat) : (c.event e).host = c.host := by rw [c.event_frame e]
@[simp] theorem Channel.pwr_event (c : Channel) (e : Nat) : (c.event e).pwr = c.pwr := by rw [c.event_frame e]
@[simp] theorem Channel.way_event (c : Channel) (e : Nat) : (c.event e).way = c.way := by rw [c.event_frame e]
@[simp] theorem Channel.tat_event (c : Channel) (e : Nat) : (c.event e).tat = c.tat := by rw [c.event_frame e]
@[simp] theorem Channel.yl_event (c : Channel) (e : Nat) : (c.event e).yl = c.yl := by rw [c.event_frame e]
@[simp] theorem Channel.rinse_event (c : Channel) (e : Nat) : (c.event e).rinse = c.rinse := by rw [c.event_frame e]
@[simp] theorem Channel.core_event (c : Channel) (e i : Nat) : (c.event e).core i = c.core i := by simp [Channel.core]
theorem Channel.fld_event_other (c : Channel) (e : Nat) {a : Nat} (f : Fld) (h : a ≠ Reg.HIF_EVPEND) : (c.event e).fld a f = c.fld a f := by
  simp [Channel.fld, c.rd_event_other e h]

/-! ### Where a command acts -/

/-- A channel function with free values: its channel and the count of free values. -/
theorem State.onFree_eq (s : State) (ch : Chan) (f : Nat → Channel → Channel) :
    s.onFree ch f = { s.setChan ch (f s.free (s.chan ch)) with free := s.free + 128 } := rfl

/-- An instruction: its channel and one free value. -/
theorem State.issueAt_eq (s : State) (sp : OpSpec) (p : Place) (w follow : IWord) :
    ∃ d, s.issueAt sp p w follow = { s.setChan p.ch d with free := s.free + 1 } := ⟨_, rfl⟩

theorem State.atStream_eq (s : State) (p : Place) (g : Channel → Nat → Channel) :
    ∃ d, s.atStream p g = { s.setChan p.ch d with free := s.free + 128 } := ⟨_, rfl⟩

/-- A host request whose way is open acts on its channel. -/
theorem State.hostTo_open {s : State} {ch : Chan} (h : (s.chan ch).hostWay = .open) (read : Option Nat) (f : Channel → Channel) :
    s.hostTo ch read f = s.setChan ch (f (s.chan ch)) := by simp [State.hostTo, State.hostToAs, h, State.onChan]

/-- Everything a host request can do: act on its channel, be answered on the way, or be lost. -/
theorem State.hostTo_cases (s : State) (ch : Chan) (read : Option Nat) (f : Channel → Channel) :
    ((s.chan ch).hostWay = .open ∧ s.hostTo ch read f = s.setChan ch (f (s.chan ch))) ∨
    ((s.chan ch).hostWay = .bridge ∧ s.hostTo ch read f = s.bridgeAnswer ch read 1) ∨
    ((s.chan ch).hostWay = .failed ∧ s.hostTo ch read f = { s with out := (s.hostTo ch read f).out }) ∨
    ((s.chan ch).hostWay = .none ∧ s.hostTo ch read f = s) := by
  cases h : (s.chan ch).hostWay with
  | none => exact .inr (.inr (.inr ⟨rfl, by simp [State.hostTo, State.hostToAs, h]⟩))
  | bridge => exact .inr (.inl ⟨rfl, by simp [State.hostTo, State.hostToAs, h]⟩)
  | failed => refine .inr (.inr (.inl ⟨rfl, ?_⟩)); cases read <;> simp [State.hostTo, State.hostToAs, h, State.emit]
  | _ => exact .inl ⟨rfl, State.hostTo_open h read f⟩

/-- The bridge die's answer counts in MOD_DROP and returns ones. -/
theorem State.bridgeAnswer_frame (s : State) (ch : Chan) (read : Option Nat) (n : Nat) :
    s.bridgeAnswer ch read n = { s with mod := (s.mwr (Reg.MOD_DROP ch.val) (satAdd 32 (s.mrd (Reg.MOD_DROP ch.val)) n)).mod, out := (s.bridgeAnswer ch read n).out } := by
  cases read <;> rfl

/-- A register write that gets to its channel. -/
theorem State.regTo_lands {s : State} {ch : Chan} {m : Master} (hm : m ≠ .pf0) (ho : m = .pf → (s.chan ch).hostWay = .open) (a v : Nat) :
    s.regTo ch m a v = { s.setChan ch ((s.chan ch).regAccess s.free m a v false) with free := s.free + 128 } := by
  cases m with
  | pf0 => exact absurd rfl hm
  | pf =>
    have h := ho rfl
    simp [State.regTo, State.regToAs, h, State.hostTo_open h]
  | qseq | tseq | pseq | fseq | dwegar | core | other => simp [State.regTo, State.regToAs, State.onChan]

theorem State.regTo_pf0 (s : State) (ch : Chan) (a v : Nat) : s.regTo ch .pf0 a v = { s with free := s.free + 128 } := rfl

/-- A mailbox or host agent that gets to its channel. -/
theorem State.masterTo_lands {s : State} {ch : Chan} {m : Master} (hm : m ≠ .pf0) (ho : m = .pf → (s.chan ch).hostWay = .open) (f : Channel → Channel) :
    s.masterTo ch m f = s.setChan ch (f (s.chan ch)) := by
  cases m with
  | pf0 => exact absurd rfl hm
  | pf => simp [State.masterTo, State.hostTo_open (ho rfl)]
  | qseq | tseq | pseq | fseq | dwegar | core | other => rfl

/-! ### The MOD block -/

@[simp] theorem State.mrd_mwr_same (s : State) (a v : Nat) : (s.mwr a v).mrd a = v % 2 ^ 32 := by simp [State.mwr, State.mrd]
theorem State.mrd_mwr_other (s : State) {a b : Nat} (v : Nat) (h : b ≠ a) : (s.mwr a v).mrd b = s.mrd b := by
  simp [State.mwr, State.mrd, mget_mset_other _ _ _ h]

/-- MOD_STATUS takes a value, and PF0 may send its vector: nothing else changes. -/
theorem State.setModStatus_frame (s : State) (v : Nat) : s.setModStatus v = { s with mod := (s.setModStatus v).mod, out := (s.setModStatus v).out } := by
  simp only [State.setModStatus]
  split
  · rfl
  · split <;> rfl

theorem State.mrd_emit (s : State) (o : Out) (a : Nat) : (s.emit o).mrd a = s.mrd a := rfl

theorem State.mrd_setModStatus (s : State) (v a : Nat) : (s.setModStatus v).mrd a = if a = Reg.MOD_STATUS then v % 2 ^ 32 else s.mrd a := by
  by_cases ha : a = Reg.MOD_STATUS
  · subst ha
    simp only [State.setModStatus, if_true]
    split
    · rename_i h; exact h.symm
    · split
      · rw [State.mrd_emit, State.mrd_mwr_same]
      · rw [State.mrd_mwr_same]
  · simp only [State.setModStatus, if_neg ha]
    split
    · rfl
    · split
      · rw [State.mrd_emit, State.mrd_mwr_other _ _ ha]
      · rw [State.mrd_mwr_other _ _ ha]

/-! ### Packets, commands -/

/-- A packet that a port hands over changes that port alone. -/
theorem Channel.takeRx_frame (c : Channel) (k : Nat) (p : Pkt) : c.takeRx k p = { c with yl := (c.takeRx k p).yl } := by
  simp only [Channel.takeRx]; split <;> rfl

/-- A command that ends: its completion, the queues it held, HIF_CMDS. -/
theorem Channel.endCmd_frame (c : Channel) (id status detail res : Nat) :
    c.endCmd id status detail res = { c with regs := (c.endCmd id status detail res).regs, host := (c.endCmd id status detail res).host } := by
  simp only [Channel.endCmd]
  split
  · rfl
  · rw [Channel.count_frame]

end Sys2Proof.Machine
end

