-- ==== Sys2Proof/WellFormed.lean ====
section
/-! DEFINITION. Well-formed commands: the operands agree with the row they stand in. A command that is not well-formed still has an
outcome; no host and no agent of the module sends one. -/

namespace Sys2Proof

/-- The opcode field of an instruction word is the row's (R93, R101). -/
def opcIs (w : IWord) (n : Nat) : Bool := (w.toNat >>> 118) % 1024 == n

/-- LEN of a packet tells its data slots, at most 32 (R343). -/
def pktOk (p : Pkt) : Bool := p.data.length == (p.hdr.toNat >>> 8) % 256 && decide (p.data.length ≤ 32)

/-- A packet of one type (R344). -/
def pktIs (p : Pkt) (n : Nat) : Bool := pktOk p && p.hdr.toNat % 16 == n

/-- n bytes from a lie between lo and hi, and are at least one. -/
def inRange (a n lo hi : Nat) : Bool := decide (1 ≤ n) && decide (lo ≤ a) && decide (a + n ≤ hi)

/-- What is written has the length given. -/
def dataFits (d : Option (List Byte)) (n : Nat) : Bool :=
  match d with
  | some l => l.length == n
  | none => true

/-- A request of n bytes may come in k TLPs: at least one, of at most 512 bytes each where it writes (R399). -/
def tlpsOk (n : Nat) (wr : Bool) (k : Nat) : Bool := decide (1 ≤ k) && decide (k ≤ max 1 n) && (!wr || decide (n ≤ 512 * k))

/-- A command is well-formed. -/
def Instr.wf (i : Instr) : Bool :=
  match i with
  | .nop _ w => opcIs w 0x000
  | .endRun _ w => opcIs w 0x001
  | .jump _ w => opcIs w 0x002
  | .lset _ w => opcIs w 0x003
  | .loop _ w => opcIs w 0x004
  | .fset _ w => opcIs w 0x005
  | .ftest _ w => opcIs w 0x006
  | .twait _ w => opcIs w 0x040
  | .tackWaitDone _ => true
  | .tsig _ w => opcIs w 0x041
  | .tset _ w => opcIs w 0x042
  | .rsig _ w => opcIs w 0x043
  | .drain _ w => opcIs w 0x044
  | .dload _ w => opcIs w 0x080
  | .dset _ w => opcIs w 0x081
  | .dshape _ w => opcIs w 0x082
  | .matmul _ w _ _ => opcIs w 0x0C0
  | .matmulS24 _ w _ _ => opcIs w 0x0C1
  | .matmulBsp _ w _ _ => opcIs w 0x0C2
  | .conv1 _ w _ _ => opcIs w 0x0C3
  | .gathermm _ w _ _ => opcIs w 0x0C4
  | .attn _ w => opcIs w 0x100
  | .attnSel _ w => opcIs w 0x101
  | .attnBwd _ w => opcIs w 0x102
  | .ew1 _ w => opcIs w 0x140
  | .ew2 _ w => opcIs w 0x141
  | .ew3 _ w => opcIs w 0x142
  | .cvt _ w => opcIs w 0x143
  | .prescan _ w => opcIs w 0x144
  | .rownorm _ w => opcIs w 0x145
  | .reduce _ w => opcIs w 0x180
  | .topk _ w => opcIs w 0x181
  | .route _ w => opcIs w 0x182
  | .copy _ w => opcIs w 0x1C0
  | .gather _ w => opcIs w 0x1C1
  | .scatter _ w => opcIs w 0x1C2
  | .send _ w => opcIs w 0x1C3
  | .recv _ w => opcIs w 0x1C4
  | .bswap _ w => opcIs w 0x1C5
  | .offload _ w => opcIs w 0x1C6
  | .prefetch _ w => opcIs w 0x1C7
  | .normp _ w => opcIs w 0x200
  | .normw _ w => opcIs w 0x201
  | .updSgdm _ w => opcIs w 0x202
  | .updAdam _ w => opcIs w 0x203
  | .updPrec _ w => opcIs w 0x204
  | .updEmb _ w => opcIs w 0x205
  | .snap _ w => opcIs w 0x206
  | .bkadd _ w => opcIs w 0x240
  | .bkclose _ w => opcIs w 0x241
  | .pgather _ w => opcIs w 0x242
  | .instructionComplete _ => true
  | .runBegin _ _ => true
  | .uStreamStart _ _ => true
  | .versionWaitEnd _ _ => true
  | .slabEnter _ _ _ => true
  | .bobbinDrain _ _ => true
  | .bobbinWaitEnd _ => true
  | .parityRerun _ _ => true
  | .subportReadRepeat _ _ _ _ => true
  | .queueLineArrive _ _ _ _ _ => true
  | .creditReturn _ _ _ _ => true
  | .queueStarved _ _ _ => true
  | .deadlock _ _ => true
  | .meshFlitHop _ _ _ _ _ _ => true
  | .meshWrite _ _ addr data => inRange addr.toNat data.length 0 (2 ^ 48) && decide (data.length ≤ 128)
  | .sliceRead _ _ _ _ _ _ _ _ => true
  | .sliceWrite _ _ off data _ _ => inRange off.val data.length 0 41943040
  | .mergeWindowClose _ _ _ => true
  | .tierScrub _ _ _ => true
  | .tierCorrectWriteback _ addr => inRange addr.toNat 64 0x1_0000_0000 0x1_FA00_0000 && addr.toNat % 64 == 0
  | .meshRtSwap _ _ v => v.toNat.testBit 8
  | .meshSwapComplete _ => true
  | .meshSwapTimeout _ => true
  | .fence _ _ _ => true
  | .remoteTackAdd _ _ _ _ => true
  | .remoteTackRelease _ _ _ _ => true
  | .memRead _ addr len _ _ => inRange addr.toNat len 0x0100_0000_0000 0x0130_0000_0000
  | .memWrite _ addr data _ _ => inRange addr.toNat data.length 0x0100_0000_0000 0x0130_0000_0000
  | .memScrub _ _ _ _ => true
  | .flashRead _ addr len _ _ => inRange addr.toNat len 0x1000_0000_0000 0x1400_0000_0000
  | .flashWrite _ addr data _ => inRange addr.toNat data.length 0x1000_0000_0000 0x1400_0000_0000
  | .flashUnitProgram _ _ blk _ _ => decide (blk < 327680)
  | .unitIdleTimeout _ _ => true
  | .flashFlush _ _ v => v.toNat.testBit 0
  | .flashSwap _ _ v => v.toNat.testBit 1
  | .flashSwapInterval _ => true
  | .flashSwapComplete _ _ => true
  | .flashRelocate _ _ blk _ _ => decide (blk < 327680)
  | .retentionScrub _ blk pages _ => decide (blk < 327680) && decide (pages.length ≤ 1024)
  | .staticWearLevel _ src dst _ => decide (src < 327680) && decide (dst < 327680) && src != dst
  | .lunBusyTimeout _ => true
  | .flashMapReady _ => true
  | .kt5Access _ addr len data _ _ => inRange addr.toNat len 0x4000_0000_0000 (2 ^ 48) && dataFits data len
  | .kt5Migration _ page _ => decide (page < 3145728)
  | .kt5HeatHalve _ => true
  | .kt5Flush _ _ v => v.toNat.testBit 1
  | .kt5Enable _ _ v => v.toNat.testBit 0
  | .kt5Disable _ _ v => !v.toNat.testBit 0
  | .kt5FlushDone _ => true
  | .dataCodewordRx _ _ _ => true
  | .markerRx _ _ _ => true
  | .markerSend _ _ => true
  | .ackTimeout _ _ => true
  | .markerLockLoss _ _ => true
  | .retrainDone _ _ => true
  | .retrainTimeout _ _ => true
  | .portTrained _ _ ids _ _ => ids.length == 8
  | .ylWrite _ _ p => pktIs p 1
  | .wresp _ _ p => pktIs p 2
  | .packetForward _ _ p => pktOk p
  | .lookupWaitTimeout _ => true
  | .ylStuck _ _ _ => true
  | .picotSend _ _ => true
  | .picot _ _ p => pktIs p 4
  | .ylLost _ _ => true
  | .view _ _ p => pktIs p 5
  | .vote _ _ p => pktIs p 6
  | .commit _ _ p => pktIs p 6
  | .wake _ _ p => pktIs p 7
  | .width _ _ p => pktIs p 8
  | .widthChangeDone _ _ => true
  | .ylSwap _ _ v => v.toNat.testBit 0
  | .ylFill _ _ v => v.toNat.testBit 2
  | .ylFillDone _ => true
  | .ylWake _ _ _ => true
  | .portEnable _ _ _ v => v.toNat.testBit 0
  | .portDisable _ _ _ v => !v.toNat.testBit 0
  | .portRestart _ _ _ v => v.toNat.testBit 1
  | .windowOpen _ _ _ v => v.toNat.testBit 0
  | .windowClose _ _ _ v => !v.toNat.testBit 0
  | .windowCloseDone _ _ => true
  | .remoteWriteTimeout _ _ => true
  | .bucketSlotFree _ => true
  | .reductionStart _ _ => true
  | .bucketStart _ => true
  | .collScale _ _ p => pktIs p 3 && (p.hdr.toNat >>> 224) % 256 == 0
  | .collRs _ _ p => pktIs p 3 && (p.hdr.toNat >>> 224) % 256 == 1
  | .collAg _ _ p => pktIs p 3 && (p.hdr.toNat >>> 224) % 256 == 2
  | .collNorm _ _ p => pktIs p 3 && (p.hdr.toNat >>> 224) % 256 == 3
  | .collPg _ _ p => pktIs p 3 && (p.hdr.toNat >>> 224) % 256 == 4
  | .collBarrier _ _ p => pktIs p 3 && (p.hdr.toNat >>> 224) % 256 == 5
  | .passEnd _ _ _ => true
  | .bucketDone _ _ _ => true
  | .collTimeout _ _ _ => true
  | .pressBegin _ _ => true
  | .pressTimeout _ _ => true
  | .watchCheck _ _ => true
  | .watchModeWrite _ _ _ => true
  | .halfValidate _ _ _ _ v => v.toNat.testBit 0
  | .cmdNop _ _ cmd => cmd.toNat % 256 == 0
  | .loadPricking _ _ cmd _ => cmd.toNat % 256 == 1
  | .reconfigDrainDone _ _ => true
  | .reconfigDrainTimeout _ _ => true
  | .unload _ _ cmd => cmd.toNat % 256 == 2
  | .cmdStep _ _ cmd => cmd.toNat % 256 == 3
  | .permute _ _ cmd => cmd.toNat % 256 == 4
  | .rwrite _ _ cmd => cmd.toNat % 256 == 5
  | .dma _ _ cmd _ => cmd.toNat % 256 == 6
  | .commandStart _ cmd _ _ => decide (cmd.toNat % 256 ≤ 6)
  | .completionWrite _ _ => true
  | .sqDoorbell _ _ _ => true
  | .cqDoorbell _ _ _ => true
  | .sqEnable _ _ _ v => v.toNat.testBit 0
  | .sqDisable _ _ _ v => !v.toNat.testBit 0
  | .cqEnable _ _ _ v => v.toNat.testBit 0
  | .cqDisable _ _ _ v => !v.toNat.testBit 0
  | .cqCoalesceTimeout _ _ => true
  | .evpendClear _ _ _ => true
  | .windowAccess _ m _ _ _ => m != .pf0
  | .windowAccessTimeout _ _ => true
  | .bar2Access _ _ len wr tlps _ => decide (len ≤ 4096) && dataFits wr len && tlpsOk len wr.isSome tlps
  | .hostRequestDropped _ len wr tlps => decide (len ≤ 4096) && tlpsOk len wr tlps
  | .poisonedWrite _ => true
  | .hostReadFail _ _ cmd _ => cmd.toNat % 256 == 6
  | .mbxWrite _ _ _ _ _ => true
  | .mbxClear _ _ _ => true
  | .mbxTimeout _ _ => true
  | .ping _ _ => true
  | .version _ => true
  | .ctxstate _ => true
  | .inflight _ => true
  | .spare _ => true
  | .flush _ => true
  | .pwrState _ => true
  | .pwrEnter _ => true
  | .pwrExitReq _ => true
  | .dvfs _ => true
  | .temp _ => true
  | .attest _ => true
  | .stage _ => true
  | .stageDone _ _ => true
  | .mend _ => true
  | .mendPark _ => true
  | .mendSwitch _ _ => true
  | .mendParkTimeout _ => true
  | .mendRetry _ => true
  | .otpCommit _ => true
  | .otpProgramDone _ => true
  | .boot _ _ => true
  | .bootTrainDone _ _ _ => true
  | .channelHold _ => true
  | .channelRelease _ => true
  | .functionLevelReset _ => true
  | .bridgeLinkDown _ => true
  | .bridgeLinkUp _ => true
  | .bridgeLost _ => true
  | .moduleId _ => true
  | .moduleStatus _ => true
  | .serial _ => true
  | .dieTemp _ _ => true
  | .vin _ _ => true
  | .iin _ _ => true
  | .pin _ _ => true
  | .smbusNack => true
  | .pwrExit _ _ v => v.toNat % 8 == 0
  | .pwrGate _ _ v => v.toNat % 8 == 1
  | .pwrC2 _ _ v => v.toNat % 8 == 2
  | .pwrC3 _ _ v => v.toNat % 8 == 3
  | .pwrC4 _ _ v => v.toNat % 8 == 4
  | .entryDrainDone _ => true
  | .entryDrainTimeout _ => true
  | .entryQuiesced _ => true
  | .powerEntryDone _ => true
  | .powerExitDone _ => true
  | .wakePin _ => true
  | .demandWake _ _ => true
  | .autoGate _ _ => true
  | .gate _ _ _ => true
  | .ungate _ _ _ => true
  | .islandOff _ _ _ => true
  | .islandOn _ _ _ => true
  | .quiesce _ _ _ => true
  | .resume _ _ _ => true
  | .ack _ _ _ _ => true
  | .pwrDvfs _ _ _ _ => true
  | .dvfsDone _ _ => true
  | .thermalSample _ _ _ => true
  | .throttleStep _ _ _ => true
  | .inputAlarm => true
  | .railOvercurrent _ _ => true
  | .emergencyClear _ _ => true
  | .railFault _ _ => true
  | .pllUnlock _ _ => true
  | .aonRailRemove _ => true
  | .vin48Valid => true
  | .vin48Loss => true
  | .prsntOpen => true
  | .mrstAssert => true
  | .mrstDeassert => true
  | .perstAssert => true
  | .perstDeassert => true
  | .faultReport _ _ _ _ _ => true
  | .rinseStopDone _ => true
  | .agreeEnd _ => true
  | .restoreDone _ => true
  | .logAckWrite _ _ _ => true
  | .registerWrite tgt m _ _ _ => (tgt.isNone == (m == .pf0))
  | .wakePinDeassert _ => true
  | .vinOkChange _ => true
  | .prsntClose => true
  | .auxSupplyChange _ => true
  | .pcieLinkUp => true
  | .d3hot _ _ => true
  | .memCorrectWriteback _ addr => inRange addr.toNat 64 0x0100_0000_0000 0x0130_0000_0000 && addr.toNat % 64 == 0

end Sys2Proof
end

