-- ==== Sys2Proof/Tests/Slice0.lean ====
section
/-! SUPPORT. The model's own tests: ill-formed commands refused, and for each statement concrete states and operands that meet what it
assumes, with what the spec says comes of them. Each list holds one check per clause, in the clauses' order. -/

set_option Elab.async false

namespace Sys2Proof.Tests

open Sys2Proof Sys2Proof.Machine Sys2Proof.Says

/-! ### Helpers -/

/-- A module whose channel 0 is f of its state after reset. -/
def one (f : Channel → Channel) : State := State.reset.onChan 0 f

/-- The state after command i. -/
def nxt (i : Instr) (s : State) : State :=
  match exec i s with
  | .next t => t
  | .fault _ => { s with free := s.free + 99999 }
  | .refused _ => { s with free := s.free + 99999 }

/-- Channel 0 after command i. -/
def aft (i : Instr) (s : State) : Channel := (nxt i s).chan 0

/-- Command i changes nothing of the module but channel 0 and n uses of the counter of free values. -/
def leaves (n : Nat) (i : Instr) (s : State) : Bool := decide (nxt i s = { s.setChan 0 (aft i s) with free := s.free + n })

/-- Command i leaves channel 0 as d. -/
def gives (n : Nat) (i : Instr) (s : State) (d : Channel) : Bool := decide (nxt i s = { s.setChan 0 d with free := s.free + n })

/-- Command i changes nothing but the counter of free values. -/
def same (n : Nat) (i : Instr) (s : State) : Bool := decide (nxt i s = { s with free := s.free + n })

/-- The registers of c and d agree but for those listed. -/
def rdsBut (l : List Nat) (c d : Channel) : Bool :=
  decide (d.regs.filter (fun e => !l.contains e.1) = c.regs.filter (fun e => !l.contains e.1))

/-- Nothing but the registers listed differs. -/
def regsBut (l : List Nat) (c d : Channel) : Bool := decide (d = { c with regs := d.regs }) && rdsBut l c d

/-- The counter at a has gone up by n. -/
def counts (a n : Nat) (c d : Channel) : Bool := decide (d.rd a = min (c.rd a + n) 0xFFFF_FFFF)

/-- The bits of register a outside field f are as they were. -/
def restOf (a : Nat) (f : Fld) (c d : Channel) : Bool :=
  decide (bits (d.rd a) 0 f.lo = bits (c.rd a) 0 f.lo) &&
    decide (bits (d.rd a) (f.lo + f.w) (32 - f.lo - f.w) = bits (c.rd a) (f.lo + f.w) (32 - f.lo - f.w))

/-- The condition `Lands` of the statements, at channel 0. -/
def lands (s : State) (m : Master) (a : Nat) : Bool :=
  let c := s.chan 0
  decide (m ≠ .pf0 ∧ (m = .pf → c.hostWay = .open) ∧ c.pst ≠ 4 ∧ c.regAsleep a = false ∧ c.windowDown a = false ∧ c.mayWrite m a = true)

theorem lands_iff (s : State) (m : Master) (a : Nat) : lands s m a = true ↔ Lands s 0 m a := decide_eq_true_iff

/-- The way to the host is open: PCIe port up, bridge link up. -/
def hosted (c : Channel) : Channel := { c with way := ⟨false, true, true, false⟩ }

/-- The fault message that a command added, if it added one. -/
def newFault (c d : Channel) : Option FaultMsg := if d.faultq.length = c.faultq.length + 1 then d.faultq.getLast? else none

/-! ### Instructions -/

/-- A tensor descriptor: base, format, extents with rows packed, further bits. -/
def tdesc (base fmt : Nat) (dims : List Nat) (more : Nat) : Nat :=
  base + fmt * 2 ^ 56 + dims.length * 2 ^ 60 + 2 ^ 63 + more +
    (dims.foldl (fun (x : Nat × Nat × Nat) n => (x.1 + (n + x.2.2 * 2 ^ 25) * 2 ^ (64 * (x.2.1 + 1)), x.2.1 + 1, x.2.2 * n)) (0, 0, 1)).1

/-- An instruction word: opcode and the rest. -/
def word (opc rest : Nat) : IWord := BitVec.ofNat 128 (opc * 2 ^ 118 + rest)

/-- Layout T. -/
def tword (opc d0 d1 d2 d3 nbob func imm : Nat) : IWord :=
  word opc (d0 * 2 ^ 87 + d1 * 2 ^ 78 + d2 * 2 ^ 69 + d3 * 2 ^ 60 + nbob * 2 ^ 43 + func * 2 ^ 32 + imm)

/-- Where the tests' tensors lie, 4 KiB apart in site 0's tier slice. -/
def ten (n : Nat) : Nat := sliceBase 0 + n * 0x4_0000

/-- The descriptors of the tests. -/
def descs : List (Nat × Nat) :=
  [(1, tdesc (ten 1) 0 [8] 0), (2, tdesc (ten 2) 0 [4, 4] 0), (3, tdesc (ten 3) 0 [4, 4] 0), (4, tdesc (ten 4) 0 [4, 4] 0),
   (5, tdesc (ten 5) 0xC [4] 0), (6, tdesc (ten 6) 0 [4, 1] 0), (7, tdesc (ten 7) 0 [4, 4] (2 ^ 507)), (8, tdesc (ten 8) 2 [4, 4] 0),
   (9, tdesc (ten 9) 2 [4, 4] 0), (10, tdesc (ten 10) 2 [4, 4] 0), (11, tdesc (ten 11) 0 [4, 4] (2 ^ 507)), (12, tdesc (ten 12) 0 [4, 4] (2 ^ 507)),
   (13, tdesc (ten 13) 0xC [1] (2 ^ 507)), (14, tdesc (ten 14) 0xC [4, 4] 0), (15, tdesc (lpBase) 0 [4, 4] 0),
   (16, tdesc (ten 16) 4 [4, 4] (2 ^ 434 + 17 * 2 ^ 439)), (17, tdesc (ten 17) 0xD [4, 4] 0), (18, tdesc (ten 18) 4 [4, 8] 0),
   (19, tdesc (ten 19) 2 [8, 8, 1, 1] (2 * 2 ^ 434 + 14 * 2 ^ 439)), (20, tdesc (ten 20) 0 [4, 32, 1, 1] 0),
   (21, tdesc (ten 21) 2 [4, 4] (2 * 2 ^ 434 + 3 * 2 ^ 436 + 14 * 2 ^ 439)), (22, tdesc (ten 22) 0 [4, 4] 0), (23, tdesc (ten 23) 0 [4, 4] 0),
   (24, tdesc (ten 24) 0 [3, 4] 0), (25, tdesc (ten 25) 4 [4, 4] (2 ^ 496 + 2 ^ 498)), (26, tdesc (ten 26) 0xC [16] 0), (27, tdesc (ten 27) 0xC [8, 1] 0),
   (28, tdesc (ten 28) 0 [4, 4] (2 ^ 439 * 5)), (29, tdesc (ten 29) 0xC [4] 0), (30, tdesc (ten 30) 0 [4, 4] 0), (31, tdesc (ten 31) 0xC [4] 0),
   (32, tdesc (ten 32) 0 [128, 128, 1] (2 ^ 507)), (33, tdesc (ten 34) 0 [128, 128, 1] (2 ^ 507)), (34, tdesc (ten 36) 0 [4, 4] (2 ^ 507)),
   (35, tdesc (ten 37) 0xC [1] (2 ^ 507)), (36, tdesc (ten 38) 0xD [1] (2 ^ 507)), (37, tdesc (ten 39) 0 [4, 4] (2 ^ 66 * 2 ^ 59)),
   (38, tdesc (ten 40) 0xC [8, 4] 0), (40, tdesc (ten 41) 0 [4, 4] 0), (41, tdesc (ten 42) 0 [4, 4] 0)]

/-- A core with runs in all its streams, each at the same address. -/
def busyCore : Core :=
  let x : Stream := { Stream.reset with pc := spadBase 0 + 0x1000, rePc := spadBase 0 + 0x1000 }
  { Core.reset with
    owner := some 0, peers := 2, normp := true,
    f := { x with run := some .r0 }, b := { x with run := some .r1 }, u := { x with run := some .u },
    rc0 := some ⟨.f, 0, 0, 0, false, false, 0⟩, rc1 := some ⟨.b, 0, 0, 0, false, false, 0⟩, rcU := some ⟨.u, 0, 0, 0, false, false, 0⟩ }

/-- Channel 0 with a context in STEP whose one core is site 0 (site 1 in service too). -/
def busy (c : Channel) : Channel :=
  let c1 := (c.setCore 0 busyCore).setCtxState 0 ctxStep
  let c2 := ((c1.wr (Reg.CORE_HALF_CFG 0 0) 0).setFld (Reg.CORE_HALF_CFG 0 0) Fl.CORE_HALF_CFG_VALID 1).setFld (Reg.CORE_HALF_CFG 0 0) Fl.CORE_HALF_CFG_DF 40
  let c3 := (c2.setFld (Reg.CORE_HALF_CFG 0 0) Fl.CORE_HALF_CFG_DD 41).wr (Reg.CORE_HALF_SPAN 0 0) 1
  let c4 := (c3.wr (Reg.CORE_TACK 0 3) 2)
  c4

/-- The register words of a descriptor that are not 0. -/
def descRegs (e : Nat × Nat) : List (Nat × Word) :=
  ((List.range 16).map (fun j => (Reg.CORE_DESC 0 e.1 0 + 4 * j, BitVec.ofNat 32 (e.2 >>> (32 * j))))).filter (fun r => r.2 != 0)

/-- With the descriptors that a word of layout T, F or D may name. -/
def loaded (w : IWord) (c : Channel) : Channel :=
  let near (a n i : Nat) : Bool := decide (a ≤ i ∧ i ≤ a + n)
  let d := busy c
  { d with regs := d.regs ++ (descs.filter (fun e => near (iD0 w) 2 e.1 || near (iD1 w) 2 e.1 || near (iD2 w) 4 e.1 || near (iD3 w) 0 e.1 ||
      near 14 0 e.1 || near 17 0 e.1 || near 5 0 e.1 || near (iFdidx w) 0 e.1)).flatMap descRegs }

/-- The word of an instruction row. -/
def wordOf (i : Instr) : IWord := (insn i).elim 0 (fun e => e.2.2.1)

def at' (st : Strm) : Place := ⟨0, 0, st⟩

/-- One instruction of each row, as the tests issue it. -/
def rows : List Instr :=
  [.nop (at' .f) (word 0 0), .endRun (at' .f) (word 1 0), .jump (at' .f) (word 2 (2 ^ 64)), .lset (at' .f) (word 3 (2 ^ 62 + 7)), .loop (at' .f) (word 4 0),
   .fset (at' .f) (word 5 (2 * 2 ^ 93 + 1)), .ftest (at' .f) (word 6 (6 * 2 ^ 90 + 2 * 2 ^ 81)), .twait (at' .f) (word 0x40 (3 * 2 ^ 90 + 2 ^ 64)),
   .tsig (at' .f) (word 0x41 (3 * 2 ^ 90 + 2 ^ 64)), .tset (at' .f) (word 0x42 (3 * 2 ^ 90 + 5 * 2 ^ 64)), .rsig (at' .f) (word 0x43 (2 ^ 83 + 2 ^ 64)), .drain (at' .f) (word 0x44 0),
   .dload (at' .f) (word 0x80 (50 * 2 ^ 87 + sliceBase 0)), .dset (at' .f) (word 0x81 (50 * 2 ^ 87 + 2 ^ 73 + 5)), .dshape (at' .f) (word 0x82 (37 * 2 ^ 87 + 3)),
   .matmul (at' .f) (tword 0xC0 4 8 9 0 0 0 0) 0 .clean, .matmulS24 (at' .f) (tword 0xC1 4 16 18 0 0 0 0) 0 .clean, .matmulBsp (at' .f) (tword 0xC2 20 19 9 0 0 0 0) 0 .clean,
   .conv1 (at' .f) (tword 0xC3 4 8 9 0 0 0 0x101) 0 .clean, .gathermm (at' .f) (tword 0xC4 4 8 9 5 0 0 0) 0 .clean,
   .attn (at' .f) (tword 0x100 4 8 9 10 2 0 0), .attnSel (at' .f) (tword 0x101 4 8 21 10 2 0 0), .attnBwd (at' .b) (tword 0x102 2 8 9 24 3 0 0),
   .ew1 (at' .f) (tword 0x140 4 2 0 0 0 1 0), .ew2 (at' .f) (tword 0x141 4 2 3 0 0 0 0), .ew3 (at' .f) (tword 0x142 4 2 3 22 0 0 0), .cvt (at' .f) (tword 0x143 8 2 0 0 0 0 0),
   .prescan (at' .f) (tword 0x144 25 2 0 0 0 0 0), .rownorm (at' .f) (tword 0x145 4 2 6 6 0 1 0), .reduce (at' .f) (tword 0x180 4 2 0 0 0 1 0),
   .topk (at' .f) (tword 0x181 0 2 14 0 0 0 2), .route (at' .f) (tword 0x182 14 2 3 38 0 0 0x10001), .copy (at' .f) (tword 0x1C0 4 2 0 0 0 0 0),
   .gather (at' .f) (tword 0x1C1 4 2 5 0 0 0 0), .scatter (at' .f) (tword 0x1C2 4 2 5 0 0 0 0), .send (at' .f) (tword 0x1C3 0 2 0 0 0 0 0), .recv (at' .f) (tword 0x1C4 4 0 0 0 0 0 0),
   .bswap (at' .f) (tword 0x1C5 40 0 0 0 0 0 0), .offload (at' .f) (tword 0x1C6 15 2 0 0 0 0 0), .prefetch (at' .f) (tword 0x1C7 0 2 0 0 0 0 0),
   .normp (at' .u) (tword 0x200 0 2 0 0 0 0 0), .normw (at' .u) (tword 0x201 0 0 0 0 0 0 0x3F800000), .updSgdm (at' .u) (tword 0x202 7 2 11 1 0 0 0),
   .updAdam (at' .u) (tword 0x203 7 2 11 1 0 1 0), .updPrec (at' .u) (tword 0x204 7 2 32 1 0 0 0), .updEmb (at' .u) (tword 0x205 4 28 30 1 0 0 0),
   .snap (at' .u) (tword 0x206 4 2 0 0 0 0 0), .bkadd (at' .b) (tword 0x240 0 2 0 0 0 0 0), .bkclose (at' .b) (tword 0x241 0 0 0 0 0 0 0), .pgather (at' .f) (tword 0x242 4 27 0 0 0 0 0)]

/-- Whether a row's instruction at s meets what InstructionRuns assumes, up to the operation's own conditions. -/
def issues (i : Instr) (s : State) : Bool :=
  match insn i with
  | none => false
  | some (p, sp, w, f) =>
    let c := s.chan p.ch
    let x0 := c.strm p.site.val p.st
    match x0.run, x0.run.bind (c.core p.site.val).rcOf with
    | some rc, some run =>
      let x := seen c sp p w f rc run s.free
      let rs := sp.roles (c.descRaw p.site.val) w
      let g := issued c sp p w x rs
      decide (iOpc w = sp.opc) && c.usable p.site.val && !(c.core p.site.val).quiet && x0.mayIssue && !fetchBad p.site.val x0.pc && headerOk w && sp.legal w &&
        sp.auxOk (c.descRaw p.site.val) w && sp.streams p.st && !iWen w && !predOff x0 w && !run.skip && !x.descBadAny rs && !x.addrBadAny rs (sp.extra x) &&
        (sp.bad x).isNone && (sp.noop x).isNone && g.2.ph != .stopped && !heldBack c sp p x g.2 && !sp.zero { x with c := g.1 } &&
        !(reached g.1 x sp rs g.2).versionHeld sp.opc rs
    | _, _ => false

/-- The conditions of `Simple` at site 0 of channel 0. -/
def simple (s : State) (sp : OpSpec) (st : Strm) (w : IWord) : Bool :=
  let c := s.chan 0
  let x := c.strm 0 st
  c.usable 0 && !(c.core 0).quiet && x.mayIssue && !fetchBad 0 x.pc && decide (iOpc w = sp.opc) && headerOk w && sp.legal w && sp.streams st &&
    (x.run.bind (c.core 0).rcOf).isSome && (!iWen w || x.skipHdr) && !predOff x w && decide (x.flights = []) && !iSen w

/-- Site 0's F stream changed. -/
def fStr (f : Stream → Stream) (c : Channel) : Channel := c.modStr 0 .f f

/-- A header that waits on tack 3. -/
def waits3 : Nat := 2 ^ 112 + 3 * 2 ^ 106

/-- Layout S: tack 3, VALUE v. -/
def sword (opc v : Nat) : IWord := word opc (3 * 2 ^ 90 + v * 2 ^ 64)

/-! ### Well-formed commands -/

/-- An opcode field that no row has. -/
def noOpc : IWord := word 0x3FF 0

/-- Every instruction row with a word of another opcode. -/
def badWords : List Instr :=
  ([.nop, .endRun, .jump, .lset, .loop, .fset, .ftest, .twait, .tsig, .tset, .rsig, .drain, .dload, .dset, .dshape, .attn, .attnSel, .attnBwd, .ew1, .ew2, .ew3, .cvt, .prescan, .rownorm,
    .reduce, .topk, .route, .copy, .gather, .scatter, .send, .recv, .bswap, .offload, .prefetch, .normp, .normw, .updSgdm, .updAdam, .updPrec, .updEmb, .snap, .bkadd, .bkclose, .pgather]
    : List (Place → IWord → Instr)).map (fun f => f (at' .f) noOpc) ++
  ([.matmul, .matmulS24, .matmulBsp, .conv1, .gathermm] : List (Place → IWord → IWord → CoreErr → Instr)).map (fun f => f (at' .f) noOpc 0 .clean)

theorem test_wf_words : badWords.all (fun i => !i.wf) = true ∧ rows.all Instr.wf = true ∧ badWords.length = rows.length := by decide +kernel

/-- A packet of a type with a LEN and data slots, byte 1CH of its header n. -/
def wfPkt (t len n : Nat) (data : List (BitVec 512)) : Pkt := ⟨BitVec.ofNat 512 (t + len * 2 ^ 8 + n * 2 ^ 224), data⟩

theorem test_wf_pkt_slots : [Instr.packetForward 0 0 (wfPkt 1 1 0 []), .packetForward 0 0 (wfPkt 1 33 0 (List.replicate 33 0))].all (fun i => !i.wf) = true := by decide +kernel

theorem test_wf_pkt_types :
    [Instr.ylWrite 0 0 (wfPkt 2 0 0 []), .wresp 0 0 (wfPkt 1 0 0 []), .picot 0 0 (wfPkt 5 0 0 []), .view 0 0 (wfPkt 4 0 0 []), .vote 0 0 (wfPkt 7 0 0 []), .commit 0 0 (wfPkt 5 0 0 []),
     .wake 0 0 (wfPkt 6 0 0 []), .width 0 0 (wfPkt 7 0 0 [])].all (fun i => !i.wf) = true := by decide +kernel

theorem test_wf_coll_kinds :
    [Instr.collScale 0 0 (wfPkt 3 0 1 []), .collRs 0 0 (wfPkt 3 0 0 []), .collAg 0 0 (wfPkt 3 0 1 []), .collNorm 0 0 (wfPkt 3 0 2 []), .collPg 0 0 (wfPkt 3 0 5 []), .collBarrier 0 0 (wfPkt 3 0 4 []),
     .collBarrier 0 0 (wfPkt 2 0 5 [])].all (fun i => !i.wf) = true ∧ (Instr.collBarrier 0 0 (wfPkt 3 0 5 [])).wf = true := by decide +kernel

theorem test_wf_ranges :
    [Instr.meshWrite 0 ⟨0, 0, 0, 0, false, false, 0, 0, 0, 0⟩ 0 [], .sliceWrite 0 0 41943039 [0, 0] false [], .memRead 0 0x00FF_FFFF_FFFF 1 [] [], .memWrite 0 0x012F_FFFF_FFFF [0, 0] [] [], .flashRead 0 0x1000_0000_0000 0 false .clean,
     .flashWrite 0 0x13FF_FFFF_FFFF [0, 0] false, .kt5Access 0 0x3FFF_FFFF_FFFF 1 none false false, .tierCorrectWriteback 0 0x1_FA00_0000].all (fun i => !i.wf) = true ∧
    (Instr.memRead 0 0x012F_FFFF_FFFF 1 [] []).wf = true := by decide +kernel

theorem test_wf_alignment :
    (Instr.tierCorrectWriteback 0 0x1_0000_0020).wf = false ∧ (Instr.memCorrectWriteback 0 0x0100_0000_0001).wf = false ∧ (Instr.memCorrectWriteback 0 0x012F_FFFF_FFC0).wf = true := by decide +kernel

theorem test_wf_lengths :
    [Instr.kt5Access 0 0x4000_0000_0000 2 (some [0]) false false, .bar2Access 0 0 8 (some [0]) 1 [], .bar2Access 0 0 4097 none 1 [], .hostRequestDropped 0 4097 true 9,
     .hostRequestDropped 0 513 true 1, .bar2Access 0 0 8 none 0 []].all (fun i => !i.wf) = true ∧ (Instr.hostRequestDropped 0 513 true 2).wf = true := by decide +kernel

theorem test_wf_bit_ones :
    [Instr.meshRtSwap 0 .pf 0, .flashFlush 0 .pf 2, .flashSwap 0 .pf 1, .kt5Flush 0 .pf 1, .kt5Enable 0 .pf 2, .ylSwap 0 .pf 2, .ylFill 0 .pf 1, .portEnable 0 .pf 0 2, .portRestart 0 .pf 0 1,
     .windowOpen 0 .pf 0 2, .halfValidate 0 .pf 0 0 2, .sqEnable 0 .pf 0 2, .cqEnable 0 .pf 0 2].all (fun i => !i.wf) = true := by decide +kernel

theorem test_wf_bit_zeros :
    [Instr.kt5Disable 0 .pf 1, .portDisable 0 .pf 0 1, .windowClose 0 .pf 0 1, .sqDisable 0 .pf 0 1, .cqDisable 0 .pf 0 1].all (fun i => !i.wf) = true := by decide +kernel

theorem test_wf_blocks :
    [Instr.flashUnitProgram 0 0 327680 true .clean, .flashRelocate 0 0 327680 .clean true, .retentionScrub 0 327680 [] true, .retentionScrub 0 0 (List.replicate 1025 .clean) true, .staticWearLevel 0 327680 0 true,
     .staticWearLevel 0 0 327680 true, .staticWearLevel 0 5 5 true, .kt5Migration 0 3145728 []].all (fun i => !i.wf) = true := by decide +kernel

theorem test_wf_commands :
    [Instr.cmdNop 0 0 1, .loadPricking 0 0 0 [], .unload 0 0 3, .cmdStep 0 0 2, .permute 0 0 5, .rwrite 0 0 4, .dma 0 0 5 [], .commandStart 0 7 [] [], .hostReadFail 0 0 5 []].all (fun i => !i.wf) = true := by decide +kernel

theorem test_wf_masters :
    [Instr.windowAccess 0 .pf0 0 none false, .registerWrite none .pf 0 0 none, .registerWrite (some 0) .pf0 0 0 none].all (fun i => !i.wf) = true := by decide +kernel

theorem test_wf_power :
    [Instr.pwrExit 0 .pf 1, .pwrGate 0 .pf 0, .pwrC2 0 .pf 3, .pwrC3 0 .pf 4, .pwrC4 0 .pf 2].all (fun i => !i.wf) = true ∧ (Instr.pwrC4 0 .pf 0xC).wf = true := by decide +kernel

/-! ### The queue, registers, instructions -/

theorem witness_InstructionRuns : rows.all (fun i => issues i (one (loaded (wordOf i)))) = true := by decide +kernel

/-! ### The machine -/

theorem witness_EmptyQueueIsOneTick :
    State.reset.pending = [] ∧ ((step State.reset matches .next _) = true) ∧
      ((one (fun c => { c with ts := 2 ^ 64 - 1 })).tick.chan 0).ts = 0 ∧ ((one (fun c => { c with ts := 99998 })).chan 0).ts + 1 < 100000 := by
  decide +kernel

theorem witness_ChannelsAreApart :
    chanOf (.kt5HeatHalve 3) = some 3 ∧ exec (.kt5HeatHalve 3) State.reset = .next State.reset ∧ (2 : Chan) ≠ 3 := ⟨rfl, rfl, by decide⟩

theorem witness_EveryStepKeepsModBlock : ModInv State.reset ∧ step { State.reset with pending := [.moduleId false] } = exec (.moduleId false) State.reset := by
  constructor
  · unfold ModInv; decide +kernel
  · rfl

theorem witness_ResetState : (regRow Reg.PWR_THCFG).isSome = true ∧ (State.reset.chan 0).rd Reg.PWR_THCFG = (regRow Reg.PWR_THCFG).elim 0 rowReset := by
  decide +kernel

/-! ### Instructions -/

def wHeader : List Bool :=
  let w := word 0 waits3
  let pass := one busy
  let stay := one (fun c => (busy c).wr (Reg.CORE_TACK 0 3) 0)
  [iWen w, headerOk w, !((pass.chan 0).strm 0 .f).skipHdr, leaves 1 (.nop (at' .f) w) pass, (aft (.nop (at' .f) w) pass).tack 0 3 == 1,
   ((aft (.nop (at' .f) w) pass).strm 0 .f).pc == spadBase 0 + 0x1010, leaves 1 (.nop (at' .f) w) stay,
   ((aft (.nop (at' .f) w) stay).strm 0 .f).wait == .header w 0, ((aft (.nop (at' .f) w) stay).strm 0 .f).pc == spadBase 0 + 0x1000,
   regsBut [] { (stay.chan 0) with cores := (aft (.nop (at' .f) w) stay).cores } (aft (.nop (at' .f) w) stay)]

theorem witness_HeaderWait : wHeader.all id = true := by decide +kernel

def wIdle : List Bool :=
  let c := one busy
  let off := word 2 (2 ^ 117 + 2 ^ 113 + 2 ^ 64)
  let jumped (i : Instr) (s : State) : Bool :=
    leaves 1 i s && ((aft i s).strm 0 .f).pc == spadBase 0 + 0x1010 && (aft i s).mem == (s.chan 0).mem && counts (Reg.CORE_SISSUED 0 0) 1 (s.chan 0) (aft i s)
  let skip := one (fun c => let d := loaded (tword 0x1C0 4 2 0 0 0 0 0) c; d.setCore 0 { d.core 0 with rc0 := some ⟨.e, 0, 0, 0, false, true, 0⟩ })
  let copy := Instr.copy (at' .f) (tword 0x1C0 4 2 0 0 0 0 0)
  -- an extent of 0
  let none0 := one (fun c => (loaded (tword 0x1C0 4 2 0 0 0 0 0) c).setDesc 0 2 (tdesc (ten 2) 0 [0, 4] 0))
  -- an earlier instruction of the stream still writes what this one reads
  let fl : Flight := ⟨0, 0, .r0, .send, [], [], [⟨ten 2, 64⟩], [], ⟨0, 0, 0, 0, 0, 0⟩, 0, none, none, [], [], 0, none, [], true, true, 0⟩
  let hz := one (fun c => fStr (fun x => { x with flights := [fl] }) (loaded (tword 0x1C0 4 2 0 0 0 0 0) c))
  -- a pair whose consumer names a descriptor that is not valid
  let pairW := tword 0xC0 4 8 9 0 0 0 0 + 2 ^ 97
  let pair := one (loaded pairW)
  let stop := Instr.matmul (at' .f) pairW (tword 0x140 70 4 0 0 0 1 0) .clean
  [predOff ((c.chan 0).strm 0 .f) off, headerOk off, jumped (.jump (at' .f) off) c, !actsInSkip 0x1C0,
   leaves 1 copy skip && ((aft copy skip).strm 0 .f).pc == spadBase 0 + 0x1010 && regsBut [] { skip.chan 0 with cores := (aft copy skip).cores } (aft copy skip),
   jumped copy none0, counts (Reg.CORE_ZEROOP 0) 1 (none0.chan 0) (aft copy none0), jumped copy hz,
   ((aft copy hz).strm 0 .f).flights.length == 2, ((aft copy hz).strm 0 .f).flights.any (fun f => f.ph == .hazard),
   leaves 1 stop pair, ((aft stop pair).strm 0 .f).flights.map (·.ph) == [.stopped], ((newFault (pair.chan 0) (aft stop pair)).map (·.code.toNat)) == some fcDescBad,
   (aft stop pair).mem == []]

theorem witness_IdleInstructions : wIdle.all id = true := by decide +kernel
def wWriteCodes : List Bool :=
  let c := Channel.reset 0
  [(regRow Reg.HIF_EVPEND).isSome, ((c.wr Reg.HIF_EVPEND 0x7F).plainWrite Reg.HIF_EVPEND 0x41).rd Reg.HIF_EVPEND == 0x3E,
   (c.plainWrite Reg.FLT_LOGSEQ 5).rd Reg.FLT_LOGSEQ == 0, (c.plainWrite Reg.HIF_APBASE 0xFFFF_FFFF).rd Reg.HIF_APBASE == 0x3_FFFF,
   (c.plainWrite (Reg.MESH_FENCE 0) 0x8000_0001).rd (Reg.MESH_FENCE 0) == 0x8000_0001]

theorem witness_WriteByAccessCode : wWriteCodes.all id = true := by decide +kernel

/-- The operand fields of layout C: OFF, LC, COUNT. -/
def wControl : List Bool :=
  let s := one busy
  let lc (n : Nat) : State := one (fun c => fStr (fun x => { x with lc := [n, 0, 0, 0] }) (busy c))
  let pc0 := spadBase 0 + 0x1000
  let chk (i : Instr) (sp : OpSpec) (w : IWord) (s : State) (pc : Nat) (l : List Nat) (cf : Nat) : Bool :=
    let c := s.chan 0
    let d := aft i s
    simple s sp .f w && leaves 1 i s && rdsBut [Reg.CORE_SISSUED 0 0] c d && counts (Reg.CORE_SISSUED 0 0) 1 c d && d == { c with regs := d.regs, cores := d.cores } &&
      d.core 0 == { c.core 0 with f := { (c.core 0).f with pc := pc, lc := l, cf := cf, skipHdr := false, rerun := true }, ord := (c.core 0).ord + 1 }
  let up := word 2 (0xFFFF_FFFF * 2 ^ 64)   -- OFF = -1
  [chk (.nop (at' .f) 0) specNop 0 s (pc0 + 16) [0, 0, 0, 0] 0, chk (.jump (at' .f) up) specJump up s (pc0 - 16) [0, 0, 0, 0] 0,
   chk (.lset (at' .f) (word 3 (3 * 2 ^ 62 + 0xFFFF_FFFF))) specLset (word 3 (3 * 2 ^ 62 + 0xFFFF_FFFF)) s (pc0 + 16) [0, 0, 0, 0xFFFF_FFFF] 0,
   chk (.loop (at' .f) (word 4 (2 ^ 65))) specLoop (word 4 (2 ^ 65)) s (pc0 + 16) [0, 0, 0, 0] 0,
   chk (.loop (at' .f) (word 4 (2 ^ 65))) specLoop (word 4 (2 ^ 65)) (lc 1) (pc0 + 16) [0, 0, 0, 0] 0,
   chk (.loop (at' .f) (word 4 (2 ^ 65))) specLoop (word 4 (2 ^ 65)) (lc 2) (pc0 + 32) [1, 0, 0, 0] 0,
   chk (.fset (at' .f) (word 5 (5 * 2 ^ 93 + 1))) specFset (word 5 (5 * 2 ^ 93 + 1)) s (pc0 + 16) [0, 0, 0, 0] 0x20]

theorem witness_ControlInstructions : wControl.all id = true := by decide +kernel

def wSync : List Bool :=
  let s := one busy      -- tack 3 holds 2
  let held := one (fun c => let d := busy c; d.setCore 0 { d.core 0 with u := { (d.core 0).u with wait := .tack (sword 0x40 5) } })
  let chk (i : Instr) (sp : OpSpec) (w : IWord) (s : State) (l : List Nat) (f : Channel → Bool) : Bool :=
    let c := s.chan 0
    let d := aft i s
    simple s sp .f w && leaves 1 i s && rdsBut (Reg.CORE_SISSUED 0 0 :: l) c d && counts (Reg.CORE_SISSUED 0 0) 1 c d &&
      d == { c with regs := d.regs, cores := d.cores, cmsgs := d.cmsgs } && (d.strm 0 .f).pc == spadBase 0 + 0x1010 && (d.core 0).b == (c.core 0).b && f d
  let t := Reg.CORE_TACK 0 3
  [chk (.twait (at' .f) (sword 0x40 2)) specTwait (sword 0x40 2) s [t] (fun d => d.tack 0 3 == 0 && (d.strm 0 .f).flights == [] && (d.strm 0 .f).wait == .none),
   chk (.twait (at' .f) (sword 0x40 0)) specTwait (sword 0x40 0) s [] (fun d => d.tack 0 3 == 2 && (d.strm 0 .f).flights == []),
   chk (.twait (at' .f) (sword 0x40 3)) specTwait (sword 0x40 3) s [] (fun d => (d.strm 0 .f).wait == .tack (sword 0x40 3)),
   chk (.tsig (at' .f) (sword 0x41 0xFFFD)) specTsig (sword 0x41 0xFFFD) s [t] (fun d => d.tack 0 3 == 0xFFFF && (d.strm 0 .f).flights == []),
   chk (.tset (at' .f) (sword 0x42 9)) specTset (sword 0x42 9) s [t] (fun d => d.tack 0 3 == 9),
   (held.chan 0).core 0 |>.waitsOn 3, chk (.tset (at' .f) (sword 0x42 9)) specTset (sword 0x42 9) held [Reg.CORE_NOOPST 0] (fun d => d.tack 0 3 == 2 && counts (Reg.CORE_NOOPST 0) 1 (held.chan 0) d),
   chk (.rsig (at' .f) (word 0x43 (2 ^ 83 + 3 * 2 ^ 90 + 2 ^ 64))) specRsig (word 0x43 (2 ^ 83 + 3 * 2 ^ 90 + 2 ^ 64)) s []
     (fun d => d.cmsgs == [rsigMsg (s.chan 0) 0 (word 0x43 (2 ^ 83 + 3 * 2 ^ 90 + 2 ^ 64))]),
   chk (.rsig (at' .f) (word 0x43 (2 * 2 ^ 83))) specRsig (word 0x43 (2 * 2 ^ 83)) s [Reg.CORE_NOOPST 0] (fun d => d.cmsgs == [] && counts (Reg.CORE_NOOPST 0) 1 (s.chan 0) d),
   chk (.drain (at' .f) (word 0x44 0)) specDrain (word 0x44 0) s [] (fun d => (d.strm 0 .f).flights == [])]

def wEnd : List Bool :=
  let w := word 1 0
  let e (skip : Bool) : State := one (fun c => let d := busy c; d.setCore 0 { d.core 0 with rc0 := some ⟨.e, 0, 0, 0, false, skip, 0⟩ })
  let chk (s : State) (r : Nat) : Bool :=
    let d := aft (.endRun (at' .f) w) s
    simple s specEnd .f w && (d.strm 0 .f).run == none && (d.core 0).rc0 == none && d.mem == (s.chan 0).mem && counts r 1 (s.chan 0) d &&
      rdsBut [r, Reg.CORE_SISSUED 0 0] (s.chan 0) d
  [chk (e false) (Reg.CORE_FILLRUN 0), chk (e true) (Reg.CORE_FILLSKIP 0)]

theorem witness_SyncAndEnd : (wSync ++ wEnd).all id = true := by decide +kernel

def wDesc : List Bool :=
  let s (w : IWord) : State := one (loaded w)
  let chk (i : Instr) (sp : OpSpec) (w : IWord) (l : List Nat) (f : Channel → Bool) : Bool :=
    let c := (s w).chan 0
    let d := aft i (s w)
    simple (s w) sp .f w && leaves 1 i (s w) && rdsBut (Reg.CORE_SISSUED 0 0 :: l) c d && d == { c with regs := d.regs, cores := d.cores } && f d
  let dset := word 0x81 (511 * 2 ^ 87 + 7 * 2 ^ 73 + 0xFFFF_FFFF_0000_0001)
  let a := Reg.CORE_DESC 0 511 7
  let shape := word 0x82 (37 * 2 ^ 87 + 3)
  let big := word 0x82 (37 * 2 ^ 87 + 2 ^ 77 + 3)
  let test := word 6 (6 * 2 ^ 90 + 2 * 2 ^ 81 + 2 ^ 93)
  let load := word 0x80 (510 * 2 ^ 87 + 2 ^ 78 + sliceBase 0)
  let full := one (fun c => { busy c with mem := [(sliceBase 0 + 127, 0x5A)] })
  let after := aft (.dload (at' .f) load) full
  [chk (.dset (at' .f) dset) specDset dset [a, a + 4] (fun d => d.rd a == 1 && d.rd (a + 4) == 0xFFFF_FFFF),
   simple full specDload .f load, leaves 1 (.dload (at' .f) load) full, after.rd (Reg.CORE_DESC 0 511 7 + 4) == 0x5A00_0000,
   rdsBut [Reg.CORE_SISSUED 0 0, Reg.CORE_DESC 0 511 7 + 4] (full.chan 0) after,
   chk (.dshape (at' .f) shape) specDshape shape [Reg.CORE_DESC 0 37 6] (fun d => d.rd (Reg.CORE_DESC 0 37 6) == 3),
   chk (.dshape (at' .f) big) specDshape big [Reg.CORE_NOOPST 0] (fun d => counts (Reg.CORE_NOOPST 0) 1 ((s big).chan 0) d),
   chk (.ftest (at' .f) test) specFtest test [] (fun d => (d.strm 0 .f).cf == 0)]

theorem witness_DescriptorInstructions : wDesc.all id = true := by decide +kernel

/-! ### Instruction checks, runs, streams -/

def wIllegal : List Bool :=
  let s := one busy
  let at0 (pc : Nat) : State := one (fun c => fStr (fun x => { x with pc := pc }) (busy c))
  let stop (i : Instr) (s : State) (code opc pc : Nat) : Bool :=
    let c := s.chan 0
    let d := aft i s
    leaves 1 i s && d == { c with cores := d.cores, faultq := d.faultq } && d.core 0 == { c.core 0 with f := { (c.core 0).f with wait := .fault } } &&
      newFault c d == some (mkFault 0 code (some 0) (4 * opc) pc)
  let pc := spadBase 0 + 0x1000
  let copy (a b : Nat) : IWord := tword 0x1C0 a b 0 0 0 0 0
  -- a descriptor at a hole of the map
  let hole (w : IWord) : State := one (fun c => (loaded w c).setDesc 0 60 (tdesc 0x2000_0000 0 [4, 4] 0))
  [knownOpc 0x3FF == false, knownOpc 0x007 == false, stop (.nop (at' .f) (word 7 0)) s fcInstIllegal 7 pc, stop (.jump (at' .f) (word 0x3FF 0)) s fcInstIllegal 0x3FF pc,
   fetchBad 0 (pc + 8), stop (.nop (at' .f) 0) (at0 (pc + 8)) fcFetchBad 0 (pc + 8), fetchBad 0 (spadBase 1), !fetchBad 0 (spadBase 1 - 16),
   headerOk (word 0 (2 ^ 116)) == false, stop (.nop (at' .f) (word 0 (2 ^ 116))) s fcInstIllegal 0 pc,
   specNormp.streams .f == false, stop (.normp (at' .f) (tword 0x200 0 2 0 0 0 0 0)) s fcInstStream 0x200 pc,
   stop (.copy (at' .f) (copy 70 2)) (one (loaded (copy 70 2))) fcDescBad 0x1C0 pc, stop (.copy (at' .f) (copy 4 60)) (hole (copy 4 60)) fcAddrBad 0x1C0 pc,
   stop (.copy (at' .f) (copy 8 2)) (one (loaded (copy 8 2))) fcDescFormat 0x1C0 pc,
   (s.chan 0).usable 0, (aft (.matmul (at' .f) 0 0 .single) s).rd Reg.FLT_CORECORR == 1, (s.chan 0).usable 7 == false,
   decide (newFault (s.chan 0) (aft (.conv1 (at' .f) 0 0 (.double 4 9)) s) = some (mkFault 0 fcCoreLogic (some 0) 4 9)),
   same 0 (.gathermm ⟨0, 7, .f⟩ 0 0 .single) s]

theorem witness_IllegalInstructions : wIllegal.all id = true := by decide +kernel

/-- A flight of word w at address 0, number 0. -/
def flight (w : IWord) (ph : Phase) : Flight := ⟨0, w, .r0, ph, [], [], [], [], ⟨0, 0, 0, 0, 0, 0⟩, 0, none, none, [], [], 0, none, [], true, true, 0⟩

/-- Site 0's F stream with these flights. -/
def flying (fs : List Flight) (c : Channel) : Channel := fStr (fun x => { x with flights := fs }) (busy c)

def wHead : List Bool :=
  let s (w : IWord) : State := one (flying [flight w .done, flight (tword 0x1C0 0 0 0 0 0 0 0) .walk])
  let chk (w : IWord) (l : List Nat) (f : Channel → Bool) : Bool :=
    let c := (s w).chan 0
    let d := aft (.instructionComplete (at' .f)) (s w)
    leaves 128 (.instructionComplete (at' .f)) (s w) && rdsBut l c d && (d.strm 0 .f).flights == [flight (tword 0x1C0 0 0 0 0 0 0 0) .walk] && f d
  let sen := 2 ^ 105 + 3 * 2 ^ 99
  [chk (tword 0x1C0 4 2 0 0 0 0 0) [] (fun d => d.tack 0 3 == 2), chk (word 0x1C0 sen) [Reg.CORE_TACK 0 3] (fun d => d.tack 0 3 == 3 && !(d.strm 0 .f).rerun),
   chk (sword 0x41 7) [Reg.CORE_TACK 0 3] (fun d => d.tack 0 3 == 9), chk (word 0x206 0) [Reg.CORE_SNAPS 0] (fun d => d.rd (Reg.CORE_SNAPS 0) == 1),
   same 128 (.instructionComplete (at' .f)) (one (flying [flight 0 .walk]))]

theorem witness_HeadCompletes : wHead.all id = true := by decide +kernel

def wTacks : List Bool :=
  let w := sword 0x40 2
  let h := word 0 waits3
  let s (x : Wait) : State := one (fun c => fStr (fun y => { y with wait := x, flights := if x = .tack w then [{ flight w .tack with wrote := false }] else [] }) (busy c))
  let i := Instr.tackWaitDone (at' .f)
  let ov := ((busy (Channel.reset 0)).wr (Reg.CORE_TACK 0 63) 0xFFFF).tackAdd 0 63 1 5 6
  [((s (.tack w)).chan 0).tack 0 3 == 2, leaves 128 i (s (.tack w)), (aft i (s (.tack w))).tack 0 3 == 0, ((aft i (s (.tack w))).strm 0 .f).wait == .none,
   ((aft i (s (.tack w))).strm 0 .f).flights == [], (aft i (s (.header h 0))).tack 0 3 == 1, ((aft i (s (.header h 0))).strm 0 .f).pc == spadBase 0 + 0x1010,
   same 128 i (s (.tack (sword 0x40 3))), same 128 i (s .none),
   ov.tack 0 63 == 0xFFFF, ov.faultq == [mkFault 0 fcTackOvf (some 0) 5 6]]

theorem witness_TackWaits : wTacks.all id = true := by decide +kernel

def wRuns : List Bool :=
  -- run list: F run of micro-batch 3, B run of 2, E run, END
  let s (pos : Option Nat) (st : Nat) : State := one (fun c => (c.setCore 0 { Core.reset with
    owner := some 15, runList := [3 * 4, 2 * 4 + 1, 2, 3], pos := pos, fIp := spadBase 0 + 16, bIp := spadBase 0 + 32, uIp := spadBase 0 + 48 }).setCtxState 15 st)
  let i := Instr.runBegin 0 0
  let k (pos : Option Nat) : Core := (aft i (s pos 2)).core 0
  let u := Instr.uStreamStart 0 0
  let busyB := one (fun c => ((c.setCore 0 { Core.reset with owner := some 15, runList := [1, 3], pos := some 0, b := { Stream.reset with run := some .r0 } }).setCtxState 15 2))
  [((s none 2).chan 0).usable 0, leaves 0 i (s none 2), (k none).pos == some 0, (k none).f.run == some .r0, (k none).f.pc == spadBase 0 + 16,
   (k none).rc0.elim false (fun r => r.kind == .f && r.mb == 3), (k none).b == Stream.reset,
   (k (some 0)).b.run == some .r0, (k (some 0)).rc0.elim false (fun r => r.kind == .b && r.mb == 2), (k (some 0)).f == Stream.reset,
   (k (some 1)).f.cf == 0x40, (k (some 2)).pos == some 3, (k (some 2)).f.run == none, same 0 i (s (some 3) 2), same 0 i (s none 1), same 0 i (s none 0),
   (aft i (s (some 0) 1)).core 0 |>.b.run.isSome,
   leaves 0 u (s (some 1) 2), ((aft u (s (some 1) 2)).core 0).u.pc == spadBase 0 + 48, ((aft u (s (some 1) 2)).core 0).u.cf == 0x80,
   (aft u (s (some 1) 2)).rd (Reg.CORE_CLIP 0) == 0x3F80_0000, same 0 u (s (some 0) 2), same 0 u busyB, same 0 i busyB]

theorem witness_RunsStart : wRuns.all id = true := by decide +kernel

def wHeld : List Bool :=
  let w := tword 0x206 4 2 0 0 0 0 0
  let d := [(4, tdesc (ten 4) 0 [4, 4] 0), (2, tdesc (ten 2) 0 [4, 4] 0)]
  let f : Flight := { flight w .version with rc := .u, snap := d }
  let s (ph : Phase) : State := one (fun c => { (busy c).modStr 0 .u (fun x => { x with flights := [{ f with ph := ph }] }) with mem := [(ten 2, 0x77)] })
  let i := Instr.versionWaitEnd 0 0
  let bk : Flight := { flight (tword 0x241 0 0 0 0 0 0 0) .slot with rc := .r1, wrote := false }
  let sb (ph : Phase) : State := one (fun c =>
    (((busy c).modStr 0 .b (fun x => { x with flights := [{ bk with ph := ph }] })).setFld (Reg.TAT_BTCFG 0) Fl.TAT_BTCFG_NBKT 1).setFld (Reg.TAT_BTCFG 0) Fl.TAT_BTCFG_LGEN 1)
  let j := Instr.bucketSlotFree (at' .b)
  -- MATMUL waits for bobbins, then walks; a slab enters, its bobbin drains
  let mw := tword 0xC0 4 8 9 0 0 0 0
  let m : Flight := { flight mw .bobbins with snap := [(4, tdesc (ten 4) 0 [4, 4] 0), (8, tdesc (ten 8) 2 [4, 4] 0), (9, tdesc (ten 9) 2 [4, 4] 0)] }
  let s0 := one (flying [m])
  let s1 := nxt (.bobbinWaitEnd (at' .f)) s0
  let c1 := s1.chan 0
  let g : Flight := { m with ph := .walk, drains := [⟨0, 0, 0, 0⟩], cur := ⟨1, 0, 0, 0, 0, 0⟩ }
  -- a copy on the U stream into a versioned tensor, whose next version an E run of press 1 reads
  let vw := tword 0x1C0 7 2 0 0 0 0 0
  let vf : Flight := { flight vw .version with rc := .u, snap := [(7, tdesc (ten 7) 0 [4, 4] (2 ^ 507)), (2, tdesc (ten 2) 0 [4, 4] 0)] }
  let ver (run : Bool) : State := one (fun c =>
    let d := (busy c).modStr 0 .u (fun x => { x with flights := [vf] })
    if run then d.setCore 0 { d.core 0 with rc0 := some ⟨.e, 0, 0, 1, false, false, 0⟩ } else d)
  let freed := one (flying [{ g with ph := .stopped, partner := none }])
  let gated := one (fun c => (flying [{ m with ph := .walk }] c).setFld Reg.PWR_STATUS Fl.PWR_STATUS_GATED_W 1)
  let phs (s : State) : List Phase := ((s.chan 0).strm 0 .f).flights.map (·.ph)
  [((s .version).chan 0).usable 0, leaves 128 i (s .version), ((aft i (s .version)).strm 0 .u).flights.map (·.ph) == [.done], (aft i (s .version)).ldByte (ten 4) == 0x77,
   same 128 i (s .norm), leaves 128 j (sb .slot), ((aft j (sb .slot)).strm 0 .b).flights == [], same 128 j (sb .walk),
   phs s1 == [.walk], (c1.strm 0 .f).flights.all (fun f => ((c1.flightXc 0 .f f 0).mmStep c1 f []).isSome), ((c1.flightXc 0 .f g 0).mmDrain c1 g none []).isSome,
   leaves 128 (.bobbinWaitEnd (at' .f)) s0,
   (((ver true).chan 0).flightXc 0 .u vf 0).versionHeld 0x1C0 (specCopy.roles (((ver true).chan 0).flightXc 0 .u vf 0).desc vw), same 128 i (ver true),
   leaves 128 i (ver false), ((aft i (ver false)).strm 0 .u).flights.map (·.ph) != [.version],
   leaves 128 (.bobbinDrain (at' .f) []) freed, ((aft (.bobbinDrain (at' .f) []) freed).strm 0 .f).flights.map (·.drains) == [[]],
   (gated.chan 0).arrayGated 0, same 128 (.slabEnter (at' .f) .clean []) gated,
   decide (newFault (s1.chan 0) (aft (.slabEnter (at' .f) (.double 4 9) []) s1) = some (mkFault 0 fcCoreLogic (some 0) 4 9))]

theorem witness_HeldAndMovingInstructions : wHeld.all id = true := by decide +kernel

def wParity : List Bool :=
  let a := Reg.CORE_SPPADDR 0
  let s (rerun : Bool) (n : Nat) : State := one (fun c =>
    let d := fStr (fun x => { x with rerun := rerun, pc := x.pc + 64, flights := [flight 0 .walk] }) (busy c)
    d.setCore 0 { d.core 0 with reruns := n })
  let i := Instr.parityRerun (at' .f) 524287
  let armed := one (fun _ => (((s true 0).chan 0).setFld a Fl.CORE_SPPADDR_ARMED 1).setFld a Fl.CORE_SPPADDR_WORD 524287)
  let stops (s : State) : Bool :=
    let d := aft i s
    leaves 128 i s && (d.strm 0 .f).wait == .fault && counts (Reg.CORE_SPPAR 0) 1 (s.chan 0) d && (newFault (s.chan 0) d).elim false (fun m => m.code.toNat == fcSpParity)
  -- a stream with nothing in progress, and one whose END has issued
  let none0 := one (fun c => (busy c).modStr 0 .f (fun x => { x with run := none, flights := [] }))
  let ended := one (fun _ => ((s true 0).chan 0).modStr 0 .f (fun x => { x with run := none, flights := [flight (tword 0x1C0 0 0 0 0 0 0 0) .walk] }))
  let d := aft i (s true 15)
  let r (again : Bool) := Instr.subportReadRepeat 0 0 524287 again
  let chk (dis : Bool) (f : Nat) : State := one (fun c =>
    let d := (busy c).setFld Reg.NUM_WCTRL Fl.NUM_WCTRL_AFAULT f
    d.setCore 0 { d.core 0 with check := some ⟨.f, 0, 0, 0, 0, 0, 0, 0, 0xC0, some (dis, 300)⟩ })
  let w := Instr.watchCheck 0 0
  [leaves 128 i (s true 15), rdsBut [Reg.CORE_SPPAR 0, a, Reg.CORE_SPRERUN 0] ((s true 15).chan 0) d, d.rd (Reg.CORE_SPRERUN 0) == 1, d.rd (Reg.CORE_SPPAR 0) == 1,
   (d.core 0).reruns == 16, d.fld a Fl.CORE_SPPADDR_ARMED == 1, d.fld a Fl.CORE_SPPADDR_WORD == 524287, d.fld a Fl.CORE_SPPADDR_VALID == 1,
   (d.strm 0 .f).pc == spadBase 0 + 0x1000, (d.strm 0 .f).flights == [],
   stops (s true 16), stops (s false 0), stops armed, same 128 i none0, (aft i ended).rd (Reg.CORE_SPRERUN 0) == 1, leaves 0 (r false) (s true 0), regsBut [Reg.CORE_SPPAR 0, a] ((s true 0).chan 0) (aft (r false) (s true 0)),
   (aft (r false) (s true 0)).fld a Fl.CORE_SPPADDR_SOURCE == 3, (aft (r true) (s true 0)).rd (Reg.CORE_SPPAR 0) == 2, (aft (r true) (s true 0)).faultq.length == 1,
   leaves 0 w (chk false 0), rdsBut [Reg.NUM_ACHECK, Reg.NUM_AMAX] ((chk false 0).chan 0) (aft w (chk false 0)), (aft w (chk true 0)).rd Reg.NUM_ADIS == 1,
   (aft w (chk true 0)).faultq == [], (newFault ((chk true 1).chan 0) (aft w (chk true 1))).elim false (fun m => m.code.toNat == fcWatchDisagree)]

theorem witness_ParityAndWatch : wParity.all id = true := by decide +kernel

/-! ### Mesh, tier, LPDDR5X -/

def wQueues : List Bool :=
  let hd : QLine := headerLine 0 0 7 0 4 0 1 256 15
  let dl : QLine := ⟨false, 5⟩
  -- a line on its way from site 1 to queue q of a site
  let s (site : Nat) (l : QLine) (f : Channel → Channel) : State := one (fun c => f { busy c with qlines := [⟨1, site, 2, 0, l⟩] })
  let i (site : Site) (l : QLine) := Instr.queueLineArrive 0 site 2 1 l
  let chk (site : Site) (l : QLine) (f : Channel → Channel) (g : Channel → Channel → Bool) : Bool :=
    let t := s site.val l f
    leaves 0 (i site l) t && (aft (i site l) t).qlines == [] && g (t.chan 0) (aft (i site l) t)
  let fence (c : Channel) : Channel := c.wr (Reg.MESH_FENCE 0) 1
  let e : QCredit := ⟨1, 0, 2⟩
  let cr (k : Nat) (cs : List QCredit) : State := one (fun c => { c.setCore 0 { busyCore with pools := [⟨1, 2, k⟩, ⟨1, 3, 5⟩] } with qcreds := cs })
  let j := Instr.creditReturn 0 0 1 2
  let full (w n : Nat) : State := one (fun c =>
    (((busy c).setFld Reg.SPAT_DLCFG Fl.SPAT_DLCFG_QWIN w).setFld (Reg.CORE_DARN 0) Fl.CORE_DARN_QSZ 1).setCore 0
      (busyCore.setQueue 2 { Queue.reset with fifo := (List.range n).map (fun _ => dl) }))
  let k := Instr.queueStarved 0 0 2
  [chk 0 hd fence (fun c d => regsBut [Reg.MESH_FENCEDROP] { c with qlines := [] } d && counts Reg.MESH_FENCEDROP 1 c d), chk 7 hd id (fun c d => d == { c with qlines := [] }),
   chk 0 hd id (fun c d => ((d.core 0).queue 2) == { Queue.reset with fifo := [hd], h := 1, psite := some 1 } && rdsBut [] c d), hConfig hd.data.toNat == 0,
   chk 0 (headerLine 0 9 7 0 4 0 1 256 15) id (fun c d => counts (Reg.CORE_EPFLUSH 0) 1 c d && d.qcreds == [⟨0, 1, 2⟩] && ((d.core 0).queue 2).drop == 8 && ((d.core 0).queue 2).fifo == []),
   leaves 0 j (cr 3 [e]), ((aft j (cr 3 [e])).core 0).pools == [⟨1, 2, 4⟩, ⟨1, 3, 5⟩], (aft j (cr 3 [e])).qcreds == [], ((aft j (cr 64 [e])).core 0).pools == [⟨1, 2, 64⟩, ⟨1, 3, 5⟩],
   same 0 j (cr 3 []), ((full 5 64).chan 0).ringLines 0 == 32, leaves 0 k (full 5 64), counts Reg.SPAT_DLSPILL 1 ((full 5 64).chan 0) (aft k (full 5 64)),
   (((aft k (full 5 64)).core 0).queue 2).spill, same 0 k (full 0 64), same 0 k (full 5 63)]

theorem witness_QueueLinesAndCredits : wQueues.all id = true := by decide +kernel

/-- A write flit from site 0 to site d. -/
def flit (d : Nat) (k : Fin 8) : Flit :=
  { dst := Fin.ofNat 128 d, sub := 1, src := 0, srcsub := 0, vc := false, gen := false, tag := 9, kind := k, data := 3, mask := 0 }

def wRouting : List Bool :=
  let fs (s : State) : List FlitAt := (s.chan 0).mesh.flits
  let s (l : List FlitAt) (f : Channel → Channel) : State := one (fun c => f { c with mesh := { c.mesh with flits := l } })
  let hop (r : Site) (p : MPort) (f : Flit) (e : Ecc := .clean) := Instr.meshFlitHop 0 r p f e none
  let inj := s [] id
  let at1 (f : Flit) : FlitAt := ⟨1, .west, f⟩
  let src0 (f : Flit) : FlitAt := ⟨0, .loc, f⟩
  let fence0 (c : Channel) : Channel := c.wr (Reg.MESH_FENCE 0) 1
  let x (f : Flit) := s [at1 f] id
  let crowd := s (at1 (flit 3 2) :: (List.range 8).map (fun _ => ⟨2, .west, flit 3 2⟩)) id
  let noway := s [at1 (flit 3 2)] (fun c => c.setMeshEntry false 1 3 7)
  let mc : Flit := { flit 1 5 with mask := 2 ^ 1 + 2 ^ 3 + 2 ^ 11 }
  let lost (i : Instr) (s : State) (code : Nat) : Bool :=
    { aft i s with faultq := [] } == { s.chan 0 with mesh := { (s.chan 0).mesh with flits := [] } } && (newFault (s.chan 0) (aft i s)).elim false (fun m => m.code.toNat == code && m.node.val == 1)
  let a := Reg.MESH_CTRL
  let sw := Instr.meshRtSwap 0 .qseq 1
  let t := nxt sw inj
  let t1 := (t.chan 0)
  let oldGone := t.onChan 0 (fun c => { c with mesh := { c.mesh with flits := [⟨1, .west, { flit 3 2 with gen := true }⟩] } })
  let old := t.onChan 0 (fun c => { c with mesh := { c.mesh with flits := [at1 (flit 3 2)] } })
  let done := aft (.meshSwapComplete 0) oldGone
  let late := aft (.meshSwapTimeout 0) t
  [leaves 128 (hop 0 .loc (flit 3 2)) inj, fs (nxt (hop 0 .loc (flit 3 2)) inj) == [at1 (flit 3 2)], fs (nxt (hop 0 .loc (flit 3 2)) t) == [src0 (flit 3 2)],
   fs (nxt (hop 0 .loc (flit 3 2)) (nxt (hop 0 .loc (flit 3 2)) t)) == [src0 (flit 3 2)], same 128 (hop 0 .loc (flit 3 2)) (s [] fence0),
   fs (nxt (hop 0 .loc (flit 3 3)) (s [] fence0)) == [at1 { flit 3 3 with vc := true }],
   fs (nxt (hop 0 .loc (flit 3 2)) (s [src0 (flit 5 2)] id)) == [src0 (flit 5 2), src0 (flit 3 2)],
   fs (nxt (hop 0 .loc (flit 5 2)) (s [src0 (flit 5 2), src0 (flit 3 2)] id)) == [src0 (flit 3 2), at1 (flit 5 2)],
   fs (nxt (hop 0 .loc (flit 3 2)) (s [] (fun c => c.setMeshEntry false 0 3 7))) == [src0 (flit 3 2)],
   (aft (hop 1 .west (flit 3 2)) (x (flit 3 2))).mesh.flits == [⟨2, .west, flit 3 2⟩], leaves 128 (hop 1 .west (flit 3 2)) (x (flit 3 2)),
   same 128 (hop 1 .west (flit 3 2)) crowd, lost (hop 1 .west (flit 3 2)) noway fcMeshUnreach,
   (aft (hop 1 .west (flit 100 2)) (x (flit 100 2))).fld Reg.MESH_CORR Fl.MESH_CORR_BAD == 1, (aft (hop 1 .west (flit 9 7)) (x (flit 9 7))).mesh.flits == [],
   (aft (hop 1 .west (flit 9 6)) (x (flit 9 6))).fld Reg.MESH_CORR Fl.MESH_CORR_BAD == 1, lost (hop 1 .west (flit 3 2) .double) (x (flit 3 2)) fcMeshUncorr,
   fs (nxt (hop 1 .west mc) (x mc)) == [⟨11, .north, flitPart mc [11]⟩, ⟨2, .west, flitPart mc [3]⟩],
   (aft (hop 1 .west (flit 1 2)) (x (flit 1 2))).mesh.eject == [⟨1, .loc, flit 1 2⟩],
   lands inj .qseq a, leaves 128 sw inj, t1.fld a Fl.MESH_CTRL_SWAP_BUSY == 1, t1.cmsgs == [.table 0], rdsBut [a] (inj.chan 0) t1, same 128 sw t,
   leaves 0 (.meshSwapComplete 0) oldGone, done.fld a Fl.MESH_CTRL_SWAP_BUSY == 0, done.fld a Fl.MESH_CTRL_RT_GEN == 1, done.rd Reg.MESH_SWAPS == 1, done.cmsgs == [],
   same 0 (.meshSwapComplete 0) old, same 0 (.meshSwapComplete 0) inj, leaves 0 (.meshSwapTimeout 0) t, late.fld a Fl.MESH_CTRL_SWAP_FAIL == 1,
   late.fld a Fl.MESH_CTRL_RT_GEN == 0]

theorem witness_MeshRouting : wRouting.all id = true := by decide +kernel

def wArrivals : List Bool :=
  let f := flit 3 2
  let g : Flit := { flit 1 2 with sub := 0 }
  let h : Flit := { flit 0 2 with sub := 0, src := 4, srcsub := 2 }
  let s (l : List FlitAt) : State := one (fun c => (busy { c with mesh := { c.mesh with eject := l } }).wr (Reg.MESH_FENCE 0) 2)
  let w (f : Flit) (a : Nat) (n : Nat) := Instr.meshWrite 0 f (BitVec.ofNat 48 a) ((List.range n).map (fun k => BitVec.ofNat 8 (5 + k)))
  let at0 (f : Flit) : FlitAt := ⟨f.dst.val, .loc, f⟩
  let t := s [at0 f, at0 { f with tag := 8 }]
  let tier := aft (w f (sliceBase 3 + 8) 2) t
  let astray := aft (w f (sliceBase 2 + 8) 2) t
  let gs := s [at0 g]
  let dead := aft (w g (spadBase 1) 2) gs
  let sp : Flit := { flit 0 2 with sub := 0 }
  let spad := aft (w sp (spadBase 0 + 64) 2) (s [at0 sp])
  let reg := Reg.CORE_DESC 0 5 3
  let hs := s [at0 h]
  let lpW : Flit := { flit 20 2 with sub := 2 }
  -- remote tacks of core 0, context 0
  let hdr (core ctx tack kind : Nat) : Word := BitVec.ofNat 32 (core * 2 ^ 22 + kind * 2 ^ 10 + ctx * 2 ^ 6 + tack)
  let b (h : Word) : State := one (fun c => { (busy c).setFld (Reg.CORE_TACK 0 3) Fl.CORE_TACK_REMOTE 1 with cmsgs := [.barrier h 9] })
  let add (h : Word) := Instr.remoteTackAdd 0 h 9 .clean
  let rel (h : Word) (e : Ecc := .clean) := Instr.remoteTackRelease 0 h 9 e
  let chk (i : Instr) (h : Word) (l : List Nat) (g : Channel → Bool) : Bool := leaves 0 i (b h) && regsBut l { (b h).chan 0 with cmsgs := [] } (aft i (b h)) && g (aft i (b h))
  let bad := aft (rel (hdr 0 0 3 1) .double) (b (hdr 0 0 3 1))
  [leaves 128 (w f (sliceBase 3 + 8) 2) t, tier.ldByte (sliceBase 3 + 9) == 6, tier.mesh.flits == [⟨3, .loc, flitAck f⟩], tier.mesh.eject == [at0 { f with tag := 8 }],
   same 128 (w { f with tag := 8 } (sliceBase 3) 2) t, leaves 128 (w f (sliceBase 2 + 8) 2) t, astray.mem == [], astray.mesh.flits == [⟨3, .loc, flitAck f⟩],
   (gs.chan 0).fencedWindow (spadBase 1), dead.rd Reg.MESH_FENCEDROP == 1, dead.mem == (gs.chan 0).mem, dead.mesh.flits == [⟨1, .loc, flitAck g⟩], same 128 (w f (sliceBase 3) 2) (s []),
   spad.ldByte (spadBase 0 + 65) == 6, leaves 128 (w h reg 4) hs, (aft (w h reg 4) hs).rd reg == ((busy ((s []).chan 0)).regWrite 0 .pf reg 0x08070605).rd reg,
   ((s [at0 lpW]).chan 0).meshBusy lpBase [5, 6], same 128 (w lpW lpBase 2) (s [at0 lpW]),
   chk (add (hdr 0 0 3 0)) (hdr 0 0 3 0) [Reg.CORE_TACK 0 3] (fun d => d.tack 0 3 == 11), chk (rel (hdr 0 0 3 1)) (hdr 0 0 3 1) [Reg.CORE_TACK 0 3] (fun d => d.tack 0 3 == 9),
   chk (add (hdr 0 1 3 0)) (hdr 0 1 3 0) [Reg.CORE_TACKDROP 0] (fun d => d.rd (Reg.CORE_TACKDROP 0) == 1), chk (add (hdr 0 0 4 0)) (hdr 0 0 4 0) [Reg.CORE_TACKDROP 0] (fun d => d.rd (Reg.CORE_TACKDROP 0) == 1),
   bad.cmsgs == [], (newFault ((b (hdr 0 0 3 1)).chan 0) bad).elim false (fun m => m.code.toNat == fcCnetUncorr && m.arg1.toNat == (hdr 0 0 3 1).toNat),
   same 0 (rel (hdr 0 0 3 0)) (b (hdr 0 0 3 0))]

theorem witness_MeshArrivals : wArrivals.all id = true := by decide +kernel

def wTier : List Bool :=
  let s (win : Nat) (ms : List MergeEnt) : State := one (fun c => { c.setFld Reg.MESH_CTRL Fl.MESH_CTRL_MERGE_WIN win with merges := ms })
  let rd (hint : Bool) := Instr.sliceRead 0 3 327679 0 0 true hint []
  let full := (List.range 16).map (fun l => (⟨3, l, []⟩ : MergeEnt))
  let m : MergeEnt := ⟨3, 327679, [(3, 0)]⟩
  let w (o : Fin 41943040) (v : Bool) := Instr.sliceWrite 0 3 o [7] v []
  let q : FlitAt := ⟨3, .loc, flit 3 2⟩
  let ovr := one (fun c => { c with mesh := { c.mesh with eject := [q] } })
  let d := aft (w 41943039 true) (s 8 [m, ⟨3, 0, []⟩])
  let far : MergeEnt := ⟨3, 327679, [(9, 5)]⟩
  let cl := Instr.mergeWindowClose 0 3 327679
  [leaves 0 (rd true) (s 8 []), (aft (rd true) (s 8 [])).merges == [m], regsBut [Reg.MESH_MERGED] { (s 8 [m]).chan 0 with merges := [{ m with waiting := [(3, 0), (3, 0)] }] } (aft (rd true) (s 8 [m])),
   (aft (rd true) (s 8 [m])).rd Reg.MESH_MERGED == 1, regsBut [Reg.MESH_MERGEFULL] ((s 8 full).chan 0) (aft (rd true) (s 8 full)),
   (aft (rd true) (s 8 full)).rd Reg.MESH_MERGEFULL == 1, same 0 (rd false) (s 8 []), d.ldByte (sliceBase 3 + 41943039) == 7, d.ldByte (sliceBase 4) == 0,
   d.merges == [⟨3, 0, []⟩], leaves 0 (w 0 true) (s 8 []), (ovr.chan 0).sliceWr 3 == some q, (aft (w 0 false) ovr).mesh.eject == [], (aft (w 0 false) ovr).mesh.flits == [⟨3, .loc, flitAck q.flit⟩],
   same 0 cl (s 8 [⟨4, 327679, []⟩]), (aft cl (s 8 [far, ⟨4, 327679, []⟩])).merges == [⟨4, 327679, []⟩],
   (aft cl (s 8 [far])).mesh.flits == [⟨3, .loc, sliceFlit 3 9 0 1 5 0 0⟩]]

theorem witness_TierAccesses : wTier.all id = true := by decide +kernel

/-- The four controllers of channel 0 ready. -/
def ready (c : Channel) : Channel := (List.range 4).foldl (fun c k => c.setFld (Reg.MEMC_STATUS k) Fl.MEMC_STATUS_READY 1) c

def wMem : List Bool :=
  let a : BitVec 48 := BitVec.ofNat 48 (lpBase + 0x2F_FFFF_FF00)
  let s := one ready
  let rd (n : Nat) := Instr.memRead 0 a n [] []
  let w (l : List Byte) := Instr.memWrite 0 a l [] []
  let data : List Byte := (List.range 256).map (BitVec.ofNat 8)
  let k := memCtrl (a.toNat - lpBase)
  let d := aft (w data) s
  let e := aft (w [9]) s
  [(s.chan 0).row a.toNat == .lp (a.toNat - lpBase), (s.chan 0).memServed a.toNat 256, same 0 (rd 256) s, ((State.reset).chan 0).memServed a.toNat 1 == false, same 0 (rd 256) State.reset,
   leaves 0 (w data) s, d.ld a.toNat 256 == data, d.regs == (s.chan 0).regs, rdsBut [Reg.MEMC_RMW k] (s.chan 0) e, e.rd (Reg.MEMC_RMW k) == 1, e.ldByte a.toNat == 9,
   same 0 (w [9]) State.reset]

theorem witness_MemAccesses : wMem.all id = true := by decide +kernel

def wArrays : List Bool :=
  let zero : BitVec 576 := 0
  let t := lineAddr 3 5
  let s := one ready
  let rd (raw : BitVec 576) := Instr.sliceRead 0 3 5 0 0 true false [(BitVec.ofNat 48 t |>.toNat, raw)]
  let one_ := zero ^^^ 8
  let two := zero ^^^ (8 + 2 ^ 300 + 2 ^ 500)
  let a : BitVec 48 := BitVec.ofNat 48 (lpBase + 64)
  let m (raw : BitVec 576) := Instr.memRead 0 a 64 [(a.toNat, raw)] []
  let k := memCtrl 64
  let c1 := aft (rd one_) s
  let c2 := aft (rd two) s
  let c3 := aft (m one_) s
  let c4 := aft (m two) s
  let sc (en n : Nat) (all : Bool) : State := one (fun c =>
    { (ready c).setFld Reg.TIER_CTRL Fl.TIER_CTRL_SCRUB_EN en with scrub := if all then (3, n) :: ((List.range 100).filter (· != 3)).map (fun i => (i, 327680)) else [(3, n)] })
  let p := Instr.tierScrub 0 3 []
  let canon (l : List (Nat × Nat)) : List (Nat × Nat) := l.foldl (fun m e => mset (fun _ => 0) m e.1 e.2) []
  let last : State := (sc 1 327679 true).onChan 0 (fun c => { c with scrub := canon c.scrub })
  let ms (en n : Nat) : State := one (fun c => { (ready c).setFld (Reg.MEMC_CTRL 2) Fl.MEMC_CTRL_SCRUB_EN en with mscrub := mset (fun _ => 0) [] 2 n })
  [(dec36 one_.toNat).2 == 1, (dec36 two.toNat).2 == 2, c1.rd Reg.TIER_CORR == 1, c1.corr == [t], c1.faultq == [], leaves 0 (rd one_) s,
   c2.rd Reg.TIER_UCCNT == 1, c2.rd Reg.TIER_UCSTAT == 7, c2.rd Reg.TIER_UCADDR == 10, (newFault (s.chan 0) c2).elim false (fun m => m.code.toNat == fcTierUncorr && m.arg1.toNat == t),
   c3.rd (Reg.MEMC_CORR k) == 1, c3.corr == [a.toNat], c4.rd (Reg.MEMC_UCCNT k) == 1, (newFault (s.chan 0) c4).elim false (fun m => m.code.toNat == fcMemUncorr && m.node.val == 114 + k && m.arg1.toNat == a.toNat),
   (aft (.tierCorrectWriteback 0 (BitVec.ofNat 48 t)) (s.setChan 0 c1)).corr == [],
   (aft p (sc 1 4 false)).scrub == [(3, 5)], leaves 0 p (sc 1 4 false), (aft p last).scrub == [], (aft p last).rd Reg.TIER_SCRUBS == 1, same 0 p (sc 0 4 false),
   (aft (.memScrub 0 2 [] 0) (ms 1 (memUnits - 1))).mscrub == [], (aft (.memScrub 0 2 [] 0) (ms 1 7)).mscrub == [(2, 8)], same 0 (.memScrub 0 2 [] 0) (ms 0 7)]

theorem witness_ArraysAndScrubs : wArrays.all id = true := by decide +kernel

theorem test_memCorrectWriteback : (aft (.memCorrectWriteback 0 (BitVec.ofNat 48 lpBase)) (one (fun c => { c with corr := [lpBase] }))).corr = [] := by
  decide +kernel

/-! ### Flash, KT5 -/

/-- The flash map of channel 0 ready. -/
def fup (c : Channel) : Channel := c.setFstat Fl.FLASH_STATUS_READY true

/-- The condition `FlashUp` of the statements. -/
def isUp (c : Channel) : Bool := c.fstat Fl.FLASH_STATUS_READY && !c.fstat Fl.FLASH_STATUS_SWAP_BUSY && !c.fstat Fl.FLASH_STATUS_FAILED

theorem isUp_iff (c : Channel) : isUp c = true ↔ FlashUp c := by simp [isUp, FlashUp, and_assoc]

/-- Channel 0 with f of its flash. -/
def fl (f : FlashSt → FlashSt) (c : Channel) : Channel := { c with flash := f c.flash }

/-- The condition `FlashServes` of the statements. -/
def serves (c : Channel) (u : Nat) : Bool :=
  decide (c.fstat Fl.FLASH_STATUS_READY = true ∧ c.fstat Fl.FLASH_STATUS_FAILED = false ∧ c.flash.waiting.any (fun r => r.units.any (fun x => x == u)) = false ∧
    ((c.flashBuf u).isSome ∨ c.fstat Fl.FLASH_STATUS_SWAP_BUSY = false ∧ c.flash.stale.contains u = false))

theorem serves_iff (c : Channel) (u : Nat) : serves c u = true ↔ FlashServes c u := decide_eq_true_iff

def wFlash : List Bool :=
  let a : BitVec 48 := BitVec.ofNat 48 (flashBase + 0x4005)
  let up := one fup
  let mapped (f : FlashSt → FlashSt) := one (fun c => fl (fun x => f { x with map0 := [(1, 9)], cache := [7] }) (fup c))
  let mp := mapped id
  let rd (st : Bool) (r : FlashRes) := Instr.flashRead 0 a 1 st r
  let w (n : Nat) := Instr.flashWrite 0 a ((List.range n).map (fun k => BitVec.ofNat 8 (k + 6))) false
  let d := aft (rd false .clean) mp
  let e := aft (rd true (.uncorr [5])) mp
  let x := aft (w 3) up
  let cached := mapped (fun x => { x with cache := [1, 4] })
  let bufd := mapped (fun x => { x with buf := [⟨1, [(5, 9)], false, false⟩] })
  let failed := one (fun c => (fup c).setFstat Fl.FLASH_STATUS_FAILED true)
  let ro := one (fun c => (fup c).setFstat Fl.FLASH_STATUS_RO true)
  let dropped (i : Instr) (s : State) : Bool := leaves 0 i s && regsBut [Reg.FLASH_DROP] (s.chan 0) (aft i s) && counts Reg.FLASH_DROP 1 (s.chan 0) (aft i s)
  let cold := State.reset
  let off := Instr.flashRead 0 (BitVec.ofNat 48 (flashBase - 1)) 1 false .clean
  let swapping := one (fun c => (fup c).setFstat Fl.FLASH_STATUS_SWAP_BUSY true)
  let behind := one (fun c => fl (fun x => { x with waiting := [.write 0x4000 [1] false] }) (fup c))
  let stale := mapped (fun x => { x with stale := [1] })
  let waits (s : State) : Bool := !serves (s.chan 0) 1 && leaves 0 (rd false .clean) s &&
    (aft (rd false .clean) s).flash.waiting == (s.chan 0).flash.waiting ++ [.read 0x4005 1 false] &&
    (aft (w 1) s).flash.waiting == (s.chan 0).flash.waiting ++ [.write 0x4005 [6] false]
  [(up.chan 0).row a.toNat == .flash 0x4005, same 0 off up, serves (up.chan 0) 1, same 0 (rd false .clean) up, serves (bufd.chan 0) 1, (bufd.chan 0).buffered 1 0x4005 1, same 0 (rd false .clean) bufd,
   (cached.chan 0).flash.cache.contains 1, same 0 (rd true .clean) cached, (aft (rd false .clean) cached).flash.cache == [4, 1],
   serves (mp.chan 0) 1, (mp.chan 0).buffered 1 0x4005 1 == false, (mp.chan 0).fmap (mp.chan 0).fgen 1 == 9, decide (((mp.chan 0).blk 8).reads + 1 < max 1 ((mp.chan 0).rd Reg.FLASH_RDTHR)),
   leaves 0 (rd false .clean) mp, d.flash.cache == [7, 1], (d.blk 8).reads == 1, d == { mp.chan 0 with flash := d.flash }, (aft (rd true .clean) mp).flash.cache == [7],
   e.rd Reg.FLASH_UCCNT == 1, e.rd Reg.FLASH_UCUNIT == 1,
   (newFault (mp.chan 0) e).elim false (fun m => m.code.toNat == fcFlashUncorr && m.node.val == 118 && m.arg1.toNat == flashUnit 1), mget memDefault e.mem (flashUnit 1) == 5,
   leaves 0 (w 3) up, x.ld a.toNat 3 == [6, 7, 8], x.mem == [], x.fstat Fl.FLASH_STATUS_DIRTY, rdsBut [Reg.FLASH_STATUS] (up.chan 0) x,
   dropped (rd false .clean) failed, dropped (w 1) failed, dropped (w 1) ro,
   waits cold, waits swapping, waits behind, waits stale, (aft (rd false .clean) stale).fstat Fl.FLASH_STATUS_SWAP_BUSY]

theorem witness_FlashAccesses : wFlash.all id = true := by decide +kernel

/-- A unit in the buffer with byte 0 written, due. -/
def unit0 (b : Byte) : BufUnit := ⟨1, [(0, b)], false, true⟩

theorem zeroUnit (c : Channel) (h : c.mem = []) : (c.unitBytes 1 (unit0 0)).all (· == 0) = true := by
  simp only [Channel.unitBytes, List.all_map, List.all_eq_true, List.mem_range]
  intro i hi
  by_cases e : i = 0
  · subst e; rfl
  · have hf : (unit0 0).bytes.find? (fun e => e.1 == i) = none := by simp [unit0]; omega
    simp only [Function.comp, hf]
    simp [h, mget, memDefault]

def wPrograms : List Bool :=
  let s (b : Byte) : State := one (fun c => fl (fun x => { x with buf := [unit0 b] }) (fup c))
  let c := (s 3).chan 0
  let idle := one (fl (fun x => { x with buf := [{ unit0 3 with due := false }, ⟨2, [], false, false⟩] }))
  let i := Instr.unitIdleTimeout 0 1
  let j := Instr.flashFlush 0 .qseq (BitVec.ofNat 32 (7 * 2 ^ 12 + 9 * 4))
  let k (blk : Nat) (ok : Bool) := Instr.flashUnitProgram 0 1 blk ok .clean
  let d := aft (k 5 false) (s 3)
  let early := one (fun c => fl (fun x => { x with buf := [{ unit0 3 with due := false }] }) (fup c))
  let full := one (fun c => fl (fun x => { x with buf := { unit0 3 with due := false } :: (List.range 2047).map (fun n => ⟨n + 2, [], false, false⟩) }) (fup c))
  let worn := one (fun c => fl (fun x => { x with buf := [unit0 3], blocks := [(5, ⟨0, 0, true, 0, false⟩)] }) (fup c))
  [c.fstat Fl.FLASH_STATUS_READY && !c.fstat Fl.FLASH_STATUS_FAILED, c.flashBuf 1 == some (unit0 3), c.blkTakes 5 false, c.blkTakes 327680 false == false, (c.unitBytes 1 (unit0 3)).head? == some 3,
   c.fmap c.fgen 1 == 0, ((s 0).chan 0).mem == [], decide (1025 < c.spare), leaves 0 (k 5 false) (s 3), (d.blk 5).bad, d.rd Reg.FLASH_GROWN == 1, d.flash.buf == [unit0 3], d.faultq == [], d.rd Reg.FLASH_NANDWL == 1,
   same 0 (k 5 true) early, same 0 (k 5 true) worn, same 0 (k 5 true) idle, same 0 (.flashUnitProgram 0 2 5 true .clean) (s 3), decide (2048 ≤ (full.chan 0).flash.buf.length), (aft (k 5 false) full).rd Reg.FLASH_GROWN == 1,
   leaves 0 i idle, (aft i idle).flash.buf == [unit0 3, ⟨2, [], false, false⟩], lands idle .qseq Reg.FLASH_CTRL, leaves 128 j idle,
   (aft j idle).flash.buf == [unit0 3, ⟨2, [], false, true⟩], rdsBut [Reg.FLASH_CTRL] (idle.chan 0) (aft j idle), (aft j idle).fld Reg.FLASH_CTRL Fl.FLASH_CTRL_SWAP_MS == 9,
   (aft j idle).fld Reg.FLASH_CTRL Fl.FLASH_CTRL_WL_SPREAD == 7]

theorem witness_FlashPrograms : wPrograms.all id = true := by decide +kernel

def wMaps : List Bool :=
  let a := Reg.FLASH_STATUS
  let up := one fup
  let swap := Instr.flashSwap 0 .qseq 2
  let every := Instr.flashSwapInterval 0
  let fin := Instr.flashSwapComplete 0 0
  let run := one (fun c => fl (fun x => { x with map0 := [(1, 9)], map1 := [(1, 10), (3, 4)], stale := [1] }) ((fup c).setFstat Fl.FLASH_STATUS_SWAP_BUSY true))
  let d := aft fin run
  let mapped := one (fun c => fl (fun x => { x with map0 := [(1, 9)], map1 := [(1, 9), (2, 8)] }) (fup c))
  let mv (ok : Bool) := Instr.flashRelocate 0 1 20 .clean ok
  let scrub (ok : Bool) := Instr.retentionScrub 0 3 [] ok
  let worn := one (fun c => fl (fun x => { x with map0 := [(1, 9), (2, 10)], map1 := [(1, 9), (2, 10)], blocks := [(9, ⟨0, 5000, false, 1, false⟩)] }) (fup c))
  let wl := Instr.staticWearLevel 0 8 30 true
  let late := Instr.lunBusyTimeout 0
  let dead := nxt late up
  let map := Instr.flashMapReady 0
  let cold := State.reset
  [leaves 0 every up, (aft every up).fstat Fl.FLASH_STATUS_SWAP_BUSY, restOf a Fl.FLASH_STATUS_SWAP_BUSY (up.chan 0) (aft every up), lands up .qseq Reg.FLASH_CTRL, leaves 128 swap up,
   (aft swap up).fstat Fl.FLASH_STATUS_SWAP_BUSY, rdsBut [a, Reg.FLASH_CTRL] (up.chan 0) (aft swap up), same 0 every cold, same 0 every dead,
   leaves 0 fin run, d.fgen, !d.fstat Fl.FLASH_STATUS_SWAP_BUSY, d.flash.map0 == [(1, 10), (3, 4)], d.flash.map1 == [(1, 10), (3, 4)], d.flash.stale == [], d.rd Reg.FLASH_SWAPS == 1,
   same 0 fin up, (mapped.chan 0).blkTakes 20 ((mapped.chan 0).unitKind 1), leaves 0 (mv true) mapped, (aft (mv true) mapped).fmap true 1 == 21, (aft (mv true) mapped).fmap false 1 == 9,
   (aft (mv true) mapped).rd Reg.FLASH_RELOC == 1, (aft (mv true) mapped).fmap true 2 == 8, ((aft (mv false) mapped).blk 20).bad, (aft (mv false) mapped).fmap true 1 == 9, (aft (mv false) mapped).rd Reg.FLASH_GROWN == 1,
   same 0 (mv true) up, same 0 (mv false) up, leaves 0 (scrub true) mapped, (aft (scrub true) mapped).blk 3 == ⟨0, 1, false, 0, false⟩, ((aft (scrub false) mapped).blk 3).bad, same 0 (scrub true) cold,
   decide ((worn.chan 0).fld Reg.FLASH_CTRL Fl.FLASH_CTRL_WL_SPREAD < (worn.chan 0).eraseMax), leaves 0 wl worn, (aft wl worn).fmap true 1 == 31,
   same 0 wl mapped, leaves 0 late up, (dead.chan 0).fstat Fl.FLASH_STATUS_FAILED, (newFault (up.chan 0) (dead.chan 0)).elim false (fun m => m.code.toNat == fcFlashDown && m.node.val == 118),
   same 0 late dead, leaves 0 map cold, (aft map cold).fstat Fl.FLASH_STATUS_READY, rdsBut [a] (cold.chan 0) (aft map cold), same 0 map up]

theorem witness_FlashMaps : wMaps.all id = true := by decide +kernel

def wKt5 : List Bool :=
  let a := Reg.KT5_CTRL
  let on (c : Channel) : Channel := ((c.setFld Reg.KT5_MAP Fl.KT5_MAP_SIZE 64).setFld a Fl.KT5_CTRL_EN 1).setFld a Fl.KT5_CTRL_TMB 4
  let put (w : List (Nat × Option KtWay)) (p : List Nat) (c : Channel) : Channel := { on c with kt5 := { c.kt5 with ways := w, pend := p, cands := [(5, [(7, 9)])] } }
  let s := one (put [] [3])
  let hit := one (put [(ktKey 0 0 2, some ⟨0, false, 4⟩)] [])
  let x : BitVec 48 := BitVec.ofNat 48 (flatBase + 0x77)
  let top : BitVec 48 := BitVec.ofNat 48 (flatBase + 64 * 2 ^ 30 - 1)
  let past : BitVec 48 := BitVec.ofNat 48 (flatBase + 64 * 2 ^ 30)
  let rd (x : BitVec 48) (pin : Bool) := Instr.kt5Access 0 x 1 none pin false
  let wr (x : BitVec 48) := Instr.kt5Access 0 x 1 (some [5]) true false
  let h := aft (rd x false) hit
  let ms := aft (rd top true) s
  let w := aft (wr x) s
  let wh := aft (wr x) hit
  let m := Instr.kt5HeatHalve 0
  let en (c : Channel) : Channel := c.setFld Reg.KT5_MAP Fl.KT5_MAP_SIZE 192
  let off := one en
  let e := Instr.kt5Enable 0 .qseq (BitVec.ofNat 32 (1 + 5 * 16 + 32 * 256))
  let dis := Instr.kt5Disable 0 .qseq 0
  let fls := Instr.kt5Flush 0 .qseq 3
  let busyS := one (fun c => (put [] [3] c).setCtxState 2 3)
  let fin := Instr.kt5FlushDone 0
  let cleaned (d : Channel) : Bool := d.kt5.ways == [] && d.kt5.pend == [] && d.fld a Fl.KT5_CTRL_BUSY == 1 && d.fld a Fl.KT5_CTRL_EN == 1
  [(s.chan 0).row top.toNat == .flat (64 * 2 ^ 30 - 1), (s.chan 0).row past.toNat == .hole, ((hit.chan 0).ktFind 0).isSome, leaves 0 (rd x false) hit, h.rd Reg.KT5_HITS == 1,
   rdsBut [Reg.KT5_HITS] (hit.chan 0) h, ((s.chan 0).ktFind 0).isNone, leaves 0 (rd top true) s, ms.rd Reg.KT5_MISSES == 1, ms.kt5.cands == [(5, [(7, 9)])],
   w.ldByte x.toNat == 5, w.mem == [((s.chan 0).ktBack 0x77, 5)], wh.ldByte x.toNat == 5, wh.mem != w.mem, same 0 (wr past) s,
   decide (3 ∈ (s.chan 0).kt5.pend), same 0 (.kt5Migration 0 4 []) s, leaves 0 m s, (aft m s).kt5.cands == [(5, [(7, 4)])],
   lands off .qseq a, !(off.chan 0).anyBusy, leaves 128 e off, (aft e off).fld a Fl.KT5_CTRL_EN == 1, (aft e off).fld a Fl.KT5_CTRL_TMB == 32, (aft e off).fld a Fl.KT5_CTRL_HEAT == 5,
   leaves 128 dis hit, cleaned (aft dis hit), (aft dis hit).kt5.disabling, leaves 128 fls hit, cleaned (aft fls hit), !(aft fls hit).kt5.disabling,
   (busyS.chan 0).anyBusy, same 128 e busyS, same 128 dis busyS, same 128 fls busyS,
   (aft fin (nxt dis hit)).fld a Fl.KT5_CTRL_EN == 0, (aft fin (nxt dis hit)).fld a Fl.KT5_CTRL_BUSY == 0, (aft fin (nxt fls hit)).fld a Fl.KT5_CTRL_EN == 1, same 0 fin hit]

theorem witness_Kt5AccessesAndControl : wKt5.all id = true := by decide +kernel

/-! ### Ports -/

/-- A codeword with more symbols in error than RS(544,514) corrects: the product of the code's first fifteen roots' factors. -/
def far : Nat := ((rsGen gf10 15).zip (List.range 16)).foldl (fun x e => x + e.1 * 2 ^ (10 * (543 - e.2))) 0

theorem gfMulGo_zero (g : GF) (b n : Nat) : gfMulGo g 0 b n 0 = 0 := by
  induction n with
  | zero => rfl
  | succ n ih => simp [gfMulGo, ih]

theorem gfEval_pad (g : GF) (l : List Nat) (n x : Nat) : gfEval g (l ++ List.replicate n 0) x = gfEval g l x := by
  have h : (List.replicate n 0).foldl (fun r c => gfMul g r x ^^^ c) 0 = 0 := by
    induction n with
    | zero => rfl
    | succ n ih => simpa [List.replicate_succ, gfMul, gfMulGo_zero] using ih
  simp [gfEval, List.reverse_append, List.foldl_append, h]

theorem rsSynd_pad (g : GF) (r : Nat) (l : List Nat) (n : Nat) : rsSynd g r (l ++ List.replicate n 0) = rsSynd g r l := by
  simp only [rsSynd, gfEval_pad]

theorem dec544_none : dec544 far = none := by
  have hs : (rsSynd gf10 30 (rsGen gf10 15)).all (· == 0) = false := by decide +kernel
  have hl : decide (30 / 2 < ((List.range 30).foldl (bmStep gf10 (rsSynd gf10 30 (rsGen gf10 15))) ⟨[1], [1], 0, 1, 1⟩).l) = true := by decide +kernel
  have hl := of_decide_eq_true hl
  have hc : ((List.range 544).map (fun s => bits far (10 * s) 10)).reverse = rsGen gf10 15 ++ List.replicate 528 0 := by decide +kernel
  simp only [dec544, hc, rsDecode, rsSynd_pad, hs, Bool.false_eq_true, if_false, hl, true_or, if_true, Option.map_none]

theorem sum_zeros (m n : Nat) : (List.range n).foldl (fun x s => x + nth 0 (List.replicate m 0).reverse s <<< (10 * s)) 0 = 0 := by
  induction n with
  | zero => rfl
  | succ n ih =>
    have h : nth 0 (List.replicate m 0).reverse n = 0 := by
      simp only [nth, List.reverse_replicate, List.getElem?_replicate]; split <;> rfl
    simp only [List.range_succ, List.foldl_append, List.foldl_cons, List.foldl_nil, ih, h, Nat.zero_shiftLeft, Nat.add_zero]

theorem dec544_zero : dec544 0 = some (0, []) := by
  have hs : (rsSynd gf10 30 (List.replicate 544 0)).all (· == 0) = true := by
    rw [← List.nil_append (List.replicate 544 0), rsSynd_pad]; decide +kernel
  have hc : ((List.range 544).map (fun s => bits 0 (10 * s) 10)).reverse = List.replicate 544 0 := by decide +kernel
  have h : rsDecode gf10 30 (List.replicate 544 0) = some (List.replicate 544 0, []) := by
    unfold rsDecode; exact if_pos hs
  simp only [dec544, hc, h, Option.map_some, sum_zeros, List.map_nil]

/-- Port 1 of channel 0 in state st. -/
def ps (st : Nat) (c : Channel) : Channel := (c.setPstate 1 st).setFld (Reg.YLP_CTRL 1) Fl.YLP_CTRL_EN 1

/-- Port 1 changed. -/
def py (f : YPort → YPort) (c : Channel) : Channel := c.setPort 1 (f (c.port 1))

/-- Nothing of d differs from c but registers listed, ports and what leaves. -/
def portsOnly (l : List Nat) (c d : Channel) : Bool :=
  decide (d = { c with regs := d.regs, yl := { c.yl with ports := d.yl.ports }, out := d.out }) && rdsBut l c d

/-- The conditions `LinkQuiet` and `PortIdle` of the statements, at port 1. -/
def calm (c : Channel) : Bool := decide ((c.yl.reqs = [] ∧ c.tat.perms = []) ∧ (c.port 1).txq = [] ∧ c.yl.waits = [])

theorem calm_iff (c : Channel) : calm c = true ↔ LinkQuiet c ∧ PortIdle c 1 := decide_eq_true_iff

def kept3 : List Cw := [⟨5, 0, []⟩, ⟨6, 0, []⟩, ⟨7, 0, []⟩]

def wCodewords : List Bool :=
  let s := one (ps psActive)
  let down := one (ps psDown)
  let c := s.chan 0
  let m := Instr.markerSend 0 1
  let k := one (fun c => py (fun y => { y with kept := kept3 }) (ps psActive c))
  let a := Instr.ackTimeout 0 1
  -- P0 of channel 1 has sent a data codeword and then a marker
  let sent (o : List Out) (x : State) := x.setChan 1 { x.chan 1 with out := o }
  let way := sent [.codeword 1 0 true 0 [], .codeword 1 0 false 0 []] s
  let next := way.setChan 0 (py (fun y => { y with seen := 1 }) c)
  -- bits of the payload 0: SEQ 0, an acknowledgement of 0, no NAK
  [c.pstate 1 == psActive, calm c, decide ((c.port 1).unc.length < 63), bits 0 10 10 == (c.port 1).rxSeq,
   decide (bits 0 10 10 ≠ ((py (fun y => { y with rxSeq := 1 }) c).port 1).rxSeq), bits 0 80 10 == (c.port 1).txSeq, !bit 0 90,
   (py (fun y => { y with kept := kept3 }) c |>.port 1).kept.findIdx? (fun e => e.seq == 0) == none,
   portsOnly [] c { aft m s with out := [] }, (aft m s).out.length == 1, ((aft m s).port 1).mcount == 1, same 128 m down, same 128 (.dataCodewordRx 0 1 0) down,
   (k.chan 0).pstate 1 == psActive, (((k.chan 0).port 1).kept) == kept3, same 128 a s, way.onWay 0 1 false, !way.onWay 0 1 true, next.onWay 0 1 true, !next.onWay 0 1 false,
   !s.onWay 0 1 false, s.onWay 0 2 true, same 128 (.dataCodewordRx 0 1 0) s, same 128 (.markerRx 0 1 0) way,
   (laneLevels (0b0111 <<< 10) false 1).take 5 == [2, 1, 0, 0, 0], (laneLevels (0b0111 <<< 10) true 0).take 10 == [0, 0, 0, 0, 0, 2, 1, 0, 0, 0],
   precode 0 [1, 2, 0, 3] == [1, 1, 3, 0]]

theorem witness_CodewordsAndRetry : wCodewords.all id = true ∧ dec544 far = none ∧ dec544 0 = some (0, []) :=
  ⟨by decide +kernel, dec544_none, dec544_zero⟩

def wPorts : List Bool :=
  let st := Reg.YLP_STAT 1
  let s (n : Nat) := one (ps n)
  let c (n : Nat) := (s n).chan 0
  let chk (i : Instr) (n : Nat) (l : List Nat) (q : Nat) (k : Nat := 128) : Bool :=
    leaves k i (s n) && portsOnly l { c n with faultq := (aft i (s n)).faultq } (aft i (s n)) && (aft i (s n)).pstate 1 == q
  let bk : List Nat := [0x3C7, 0x3C6, 0x3C5, 0x3C4, 0x3C3, 0x3C2, 0x3C1, 0x3C0]
  let pt (l : List Nat) := Instr.portTrained 0 1 l 0xA5
  let tr := aft (pt bk) (s psTraining)
  let a := Reg.YLP_CTRL 1
  let l := [a, st, Reg.YLP_PARTNER 1]
  let en (v : Nat) := Instr.portEnable 0 .qseq 1 (BitVec.ofNat 32 v)
  let dis := Instr.portDisable 0 .qseq 1 0
  let re := Instr.portRestart 0 .qseq 1 3
  let wk := Instr.ylWake 0 .qseq 1
  let w := one (fun c => py (fun y => { y with width := some 1, agreed := true }) (ps psActive c))
  let wd := Instr.widthChangeDone 0 1
  let off := State.reset
  [calm (c psActive), chk (.markerLockLoss 0 1) psActive [st, Reg.YLP_RETRAIN 1] psRetrain, chk (.markerLockLoss 0 1) psMiswired [st, Reg.YLP_RETRAIN 1] psRetrain,
   chk (.retrainDone 0 1) psRetrain [st] psActive, chk (.retrainTimeout 0 1) psRetrain [st] psDown, chk (pt bk) psTraining [st] psActive, chk (pt bk.reverse) psTraining [st] psActive,
   (aft (pt bk.reverse) (s psTraining)).fld st Fl.YLP_STAT_LANEREV == 0, same 128 (pt [0x3C0, 0x3C2, 0x3C1, 0x3C3, 0x3C4, 0x3C5, 0x3C6, 0x3C7]) (s psTraining),
   tr.fld st Fl.YLP_STAT_LANEREV == 1, tr.fld st Fl.YLP_STAT_POLINV == 0xA5, chk (.ylLost 0 1) psActive [st] psLost,
   (newFault (c psActive) (aft (.ylLost 0 1) (s psActive))).elim false (fun m => m.code.toNat == fcYlLost && m.node.val == 109),
   same 128 (.ylLost 0 1) (s psTraining), same 128 (.markerLockLoss 0 1) (s psTraining), same 128 (pt bk) (s psActive), same 128 (.retrainDone 0 1) (s psActive),
   same 128 (.retrainTimeout 0 1) (s psActive), lands off .qseq a, lands (s 2) .qseq a, lands (s 2) .qseq Reg.YL_WAKE,
   portsOnly l (off.chan 0) (aft (en (77 * 4)) off), (aft (en (77 * 4)) off).pstate 1 == psTraining, (aft (en (77 * 4)) off).fld a Fl.YLP_CTRL_RETRAIN_US == 77,
   chk dis psActive l psDisabled, (aft dis (s psActive)).fld a Fl.YLP_CTRL_EN == 0, chk re psDown l psTraining, chk re psLost l psTraining, chk re psMiswired l psTraining, chk re psActive l psActive,
   ((c psActive).port 1).credit 4 1, ((c psActive).port 1).kept == [], same 128 wk (s psDown),
   leaves 0 wd w, (aft wd w).fld st Fl.YLP_STAT_NARROW == 1, same 0 wd (s psActive)]

theorem witness_Ports : wPorts.all id = true := by decide +kernel

/-! ### Remote writes, routes -/

/-- A packet that lies in the receive buffer of port 1. -/
def holds (p : Pkt) (c : Channel) : Channel := c.setPort 1 { c.port 1 with rxq := [(p.vc, p)] }

/-- Window 0 of channel 0: open, 4 KiB at the start of LPDDR5X; f: the further bits of its CTRL. -/
def win (f : Nat) (c : Channel) : Channel :=
  ((c.setFld (Reg.YLW_BASEH 0) Fl.YLW_BASEH_ADDR 0x100).setFld (Reg.YLW_SIZE 0) Fl.YLW_SIZE_SIZE 1).wr (Reg.YLW_CTRL 0) (1 + f)

def wRemote : List Bool :=
  let w (src n off : Nat) (l : List (BitVec 512) := []) : Pkt := mkPkt 1 0 0 src 3 n 16 off 0 l
  let s (p : Pkt) (f : Nat) : State := one (fun c => holds p (win f c))
  let i (p : Pkt) := Instr.ylWrite 0 1 p
  let answer (p : Pkt) (f : Nat) (d : Channel) (st : Nat) : Bool :=
    let t := s p f
    decide (nxt (i p) t = { t.setChan 0 ((d.routeResp none (d.respTo p st)).onward t.free) with free := t.free + 128 })
  let c1 (p : Pkt) (f : Nat) : Channel := ((s p f).chan 0).takeRx 1 p
  let accept := 2 ^ Fl.YLW_CTRL_ACCEPT.lo
  let notify := 2 ^ Fl.YLW_CTRL_NOTIFY.lo
  let good := w 1 0 4096
  let d0 (f : Nat) := (c1 good f).count (Reg.YLW_WRITES 0) 1
  let full := w 1 0 4032 [7]
  let d1 (f : Nat) := (((c1 full f).rmwCount (lpBase + 4032) 64).st (lpBase + 4032) false (7 :: List.replicate 63 0)).count (Reg.YLW_WRITES 0) 1
  let fl := holds full ((win 0 ((State.reset).chan 0)).wr (Reg.YLW_BASEH 0) 0x1000)
  let low := w 1 0 4160
  let none_ := w 1 63 0
  let spoilt : Pkt := (w 1 0 0).setFld (8 * 0x18) 32 7
  let resp (st : Nat) : Pkt := mkPkt 2 2 0 1 3 0 (16 + 32 * st) 64 0 []
  let r : RwReq := ⟨.cmd 0, 0, 128, 1, 0, 0, 0, 3, 128, true, [0, 64], none⟩
  let sr (st : Nat) : State := one (fun c => let d := holds (resp st) c; { d with yl := { d.yl with reqs := [r] } })
  let j (st : Nat) := Instr.wresp 0 1 (resp st)
  [((s good 0).chan 0).winOpen 0, ((s good 0).chan 0).winBase 0 == lpBase, ((s good 0).chan 0).winSize 0 == 4096, (c1 good 0).look good.dst == .here, good.crcOk, good.lastp,
   answer good 0 (d0 0) 0, (aft (i good) (s good 0)).rd (Reg.YLW_WRITES 0) == 1,
   answer good notify (d0 notify) 0, answer full 0 (d1 0) 0, (d1 0).ldByte (lpBase + 4032) == 7, (d1 0).rd (Reg.MEMC_RMW 0) + (d1 0).rd (Reg.MEMC_RMW 1) + (d1 0).rd (Reg.MEMC_RMW 2) + (d1 0).rd (Reg.MEMC_RMW 3) == 1,
   answer full notify { d1 notify with cmsgs := [barrierMsg 0 109 0 0 0 1] } 0, (aft (i full) (s full notify)).cmsgs.length == 1,
   fl.row (fl.winBase 0) == .flash 0, fl.winHeld 1 full, same 128 (i full) (State.reset.setChan 0 fl),
   answer none_ 0 ((c1 none_ 0).count (Reg.YLW_WDROP 63) 1) 1, answer good accept (c1 good accept) 3, answer low 0 (c1 low 0) 2, !spoilt.crcOk,
   (newFault ((s spoilt 0).chan 0) (aft (i spoilt) (s spoilt 0))).elim false (fun m => m.code.toNat == fcYlEcrc && m.node.val == 109), (aft (i spoilt) (s spoilt 0)).rd Reg.YL_ECRC == 1,
   (resp 0).ptype == 2, (resp 0).status == 0, (resp 1).status == 1, (aft (j 0) (sr 0)).yl.reqs == [{ r with open_ := [0] }], leaves 128 (j 0) (sr 0),
   (aft (j 1) (sr 1)).rd Reg.YL_WCLOSEDRX == 1, (aft (i (resp 0)) (sr 0)) == ((sr 0).chan 0).takeRx 1 (resp 0), (aft (.wresp 0 1 good) (s good 0)) == c1 good 0]

theorem witness_RemoteWrites : wRemote.all id = true := by decide +kernel

def wForward : List Bool :=
  let p : Pkt := mkPkt 1 0 9 1 3 0 16 0 0 []
  let q : Pkt := mkPkt 2 2 9 1 3 0 16 0 0 []
  -- channel 9 by port 2, dateline not crossed
  let route (p : Pkt) : State := one (fun c => holds p ((c.setPstate 2 psActive).setRtEntry false 9 2))
  let lost (p : Pkt) : State := one (holds p)
  let waits (p : Pkt) : State := one (fun c => holds p ((c.setRtEntry true 9 2).setFld Reg.YL_RCTRL Fl.YL_RCTRL_WAIT_US 10))
  let i (p : Pkt) := Instr.packetForward 0 1 p
  let c1 (s : State) (p : Pkt) := (s.chan 0).takeRx 1 p
  let w : RtWait := ⟨some 1, q, 0, false⟩
  let late := one (fun c => { c with yl := { c.yl with waits := [w] } })
  let t := Instr.lookupWaitTimeout 0
  let stuck (us : Nat) := one (fun c => (py2 (c.setFld Reg.YL_RCTRL Fl.YL_RCTRL_STUCK_US us)))
  let k := Instr.ylStuck 0 1 2
  let r : RwReq := ⟨.cmd 0, 0, 128, 1, 0, 0, 0, 3, 128, true, [0], none⟩
  let rq := one (fun c => { c with yl := { c.yl with reqs := [r] } })
  let j := Instr.remoteWriteTimeout 0 0
  [(c1 (route p) p).look 9 == .port 2 false, outVc p.vc (some 1) 2 false == 0, (c1 (lost q) q).look 9 == .none, (aft (i q) (lost q)).rd Reg.YL_NOROUTE == 1, leaves 128 (i q) (lost q),
   (c1 (waits p) p).look 9 == .wait, (aft (i p) (waits p)).yl.waits == [⟨some 1, p, 0, true⟩], leaves 128 (i p) (waits p),
   (aft t late).yl.waits == [], (aft t late).rd Reg.YL_NOROUTE == 1, leaves 128 t late, same 128 t State.reset,
   leaves 128 k (stuck 5), (newFault ((stuck 5).chan 0) (aft k (stuck 5))).elim false (fun m => m.code.toNat == fcYlStuck && m.node.val == 109), same 128 k (stuck 0),
   leaves 128 j rq, (aft j rq).rd Reg.YL_RWTIMEOUT == 1, (aft j rq).yl.reqs == []]
where
  py2 (c : Channel) : Channel := (c.setPstate 1 psActive).setPort 1 { c.port 1 with txq := [(2, mkPkt 2 2 9 1 3 0 16 0 0 [])] }

theorem witness_ForwardingAndTimeouts : wForward.all id = true := by decide +kernel

def wControlPkts : List Bool :=
  let a (c : Channel) : Channel := (c.setPstate 1 psActive).setPort 1 { c.port 1 with partnered := true }
  let s (p : Pkt) : State := one (fun c => holds p (a c))
  let c1 (p : Pkt) : Channel := ((s p).chan 0).takeRx 1 p
  -- the partner at +X: its port 0, the same system and ring sizes
  let c := a (Channel.reset 0)
  let pic (sys : Nat) : Pkt := mkPkt 4 4 0 (c.neighbour 1) 0 0 0 0 (sys + 0 * 2 ^ 16 + c.fld Reg.YL_COORD Fl.YL_COORD_DY * 2 ^ 96 + c.fld Reg.YL_COORD Fl.YL_COORD_DZ * 2 ^ 104) []
  let ok := pic (c.fld Reg.YL_SYSID Fl.YL_SYSID_SYSID)
  let bad := pic (c.fld Reg.YL_SYSID Fl.YL_SYSID_SYSID + 1)
  let i (p : Pkt) := Instr.picot 0 1 p
  let ctl (t v : Nat) : Pkt := mkPkt t 4 0 1 0 0 0 0 v []
  let dark := one (fun c => { a c with dark := true })
  let wide (p : Pkt) : State := one (fun c => let d := holds p (a c); d.setPort 1 { d.port 1 with width := some 8 })
  let lk (p : Pkt) (v : Nat) : State := one (fun c => (holds p (a c)).setFld Reg.PWR_WAKECFG Fl.PWR_WAKECFG_LINKEN v)
  [(s ok).chan 0 |>.pstate 1 |> (· == psActive), !((s ok).chan 0).dark, (dark.chan 0).dark, same 128 (.picotSend 0 1) dark,
   ok.ptype == 4, (c1 ok).picotOk 1 ok, leaves 128 (i ok) (s ok), ((aft (i ok) (s ok)).port 1).confirmed, (aft (i ok) (s ok)).pstate 1 == psActive,
   (c1 bad).picotOk 1 bad == false, (aft (i bad) (s bad)).pstate 1 == psMiswired, (newFault ((s bad).chan 0) (aft (i bad) (s bad))).elim false (fun m => m.code.toNat == fcYlMiswire),
   leaves 0 (.view 0 1 (ctl 5 0)) (s (ctl 5 0)), aft (.view 0 1 (ctl 5 0)) (s (ctl 5 0)) == (c1 (ctl 5 0)).takeView (ctl 5 0).view,
   regsBut [Reg.YLP_BAD 1] (c1 (ctl 5 1)) (aft (.view 0 1 (ctl 5 1)) (s (ctl 5 1))), (aft (.view 0 1 (ctl 5 1)) (s (ctl 5 1))).rd (Reg.YLP_BAD 1) == 1,
   aft (.wake 0 1 (ctl 7 0)) (lk (ctl 7 0) 1) == (((lk (ctl 7 0) 1).chan 0).takeRx 1 (ctl 7 0)).wakeEvent 1 1,
   aft (.wake 0 1 (ctl 7 0)) (lk (ctl 7 0) 0) == ((lk (ctl 7 0) 0).chan 0).takeRx 1 (ctl 7 0),
   ((aft (.width 0 1 (ctl 8 8)) (wide (ctl 8 8))).port 1).agreed, ((aft (.width 0 1 (ctl 8 8)) (wide (ctl 8 8))).port 1).width == some 8,
   aft (.width 0 1 (ctl 8 4)) (s (ctl 8 4)) == c1 (ctl 8 4)]

theorem witness_ControlPackets : wControlPkts.all id = true := by decide +kernel

def wWindows : List Bool :=
  let a := Reg.YL_RCTRL
  let s := State.reset
  let swap := Instr.ylSwap 0 .qseq 2
  let fill := nxt (.ylFillDone 0) s
  let filling := one (fun c => c.setFld a Fl.YL_RCTRL_FILL_BUSY 1)
  let b := Reg.YLW_CTRL 0
  let shut := one (fun c => (win 0 c).setFld b Fl.YLW_CTRL_OPEN 0)
  let none_ := State.reset
  let open_ := one (win 0)
  let op := Instr.windowOpen 0 .qseq 0 (BitVec.ofNat 32 (1 + 3 * 16))
  let cl := Instr.windowClose 0 .qseq 0 0
  let end_ := Instr.windowCloseDone 0 0
  [lands s .qseq a, (s.chan 0).fillBusy == false, leaves 128 swap s, (aft swap s).rtGen, (aft swap s).rd Reg.YL_SWAPS == 1, rdsBut [a, Reg.YL_SWAPS] (s.chan 0) (aft swap s),
   (filling.chan 0).fillBusy, (aft swap filling).rtGen == false, rdsBut [a] (filling.chan 0) (aft swap filling), leaves 128 swap filling, (fill.chan 0).fillBusy == false,
   (aft (.ylFillDone 0) filling).fillBusy == false, lands shut .qseq b, leaves 128 op shut, (aft op shut).winOpen 0, (aft op shut).winCtx 0 == 3, regsBut [b] (shut.chan 0) (aft op shut),
   (aft op none_).winOpen 0 == false, (aft op none_).fld b Fl.YLW_CTRL_ERR == 1, leaves 128 cl open_, (aft cl open_).winOpen 0 == false, (aft cl open_).fld b Fl.YLW_CTRL_CLOSING == 1,
   same 128 op open_, (aft end_ (nxt cl open_)).fld b Fl.YLW_CTRL_CLOSING == 0, leaves 0 end_ open_]

theorem witness_RoutesAndWindows : wWindows.all id = true := by decide +kernel

/-! ### Collectives, presses -/

theorem storeFull_big (c : Channel) (n : Nat) (h : 2 ^ 19 ≤ n) :
    Channel.storeFull { c with tat := { c.tat with held := [(0, ⟨0, List.replicate n 0⟩)] } } = true := by
  simp only [Channel.storeFull, Channel.heldSlots, List.foldl_cons, List.foldl_nil, List.length_replicate, decide_eq_true_eq]
  omega

/-- A packet in the receive buffer of port 1. -/
def in1 (p : Pkt) (c : Channel) : Channel := c.setPort 1 { c.port 1 with rxq := [(p.vc, p)] }

def wColl : List Bool :=
  (List.range 6).flatMap (fun j =>
    let q (relay ep : Nat) : Pkt := mkPkt 3 0 0 1 9 0 0 0 (j + relay * 64 * 2 ^ 8 + ep * 2 ^ 32) []
    let bad : Pkt := (q 0 0).setFld (8 * 0x18) 32 7
    let s (p : Pkt) : State := one (in1 p)
    let c1 (p : Pkt) := ((s p).chan 0).takeRx 1 p
    let i (p : Pkt) := collRow 0 1 p j
    [(q 0 0).ptype == 3, (q 0 0).kind == j, ((s (q 0 0)).chan 0).storeFull == false, (c1 (q 1 0)).carries 0 0 1, (q 1 0).relay,
     aft (i (q 1 0)) (s (q 1 0)) == (c1 (q 1 0)).sendPkt 0 0 (q 1 0), leaves 128 (i (q 1 0)) (s (q 1 0)), !bad.crcOk,
     (newFault ((s bad).chan 0) (aft (i bad) (s bad))).elim false (fun m => m.code.toNat == fcTatEcrc && m.node.val == 106 && m.arg0.toNat == 9),
     (q 0 0).crcOk, regsBut [Reg.TAT_EPDROP] (c1 (q 0 1)) (aft (i (q 0 1)) (s (q 0 1))), (aft (i (q 0 1)) (s (q 0 1))).rd Reg.TAT_EPDROP == 1,
     (aft (i (q 0 0)) (s (q 0 0))).tat.held == [(1, q 0 0)]])

theorem witness_CollectivePackets : wColl.all id = true := by decide +kernel

def wPresses : List Bool :=
  let q (job kind : Nat) : Pkt := mkPkt 6 4 0 1 0 0 0 0 (kind + job * 2 ^ 16 + 1 * 2 ^ 32) []
  let s (p : Pkt) : State := one (fun c => in1 p ((c.setFld (Reg.UPD_PRESS 3) Fl.UPD_PRESS_MULTI 1).setFld (Reg.TAT_JOB 3) Fl.TAT_JOB_JOB 77))
  let c1 (p : Pkt) := ((s p).chan 0).takeRx 1 p
  let i (p : Pkt) (j : Nat) := pressRow 0 1 p j
  let v : Channel := ((busy (Channel.reset 0)).setFld (Reg.UPD_PRESS 0) Fl.UPD_PRESS_PHASE phVoted).wr (Reg.TAT_CDIG 0 7) 0x55
  let last := v.wr (Reg.CTX_PRESS 0) 0xFFFF_FFFF
  let d := v.commitStep 0
  [0, 1].flatMap (fun j =>
    [(q 76 j).ptype == 6, (q 76 j).kind == j, (c1 (q 76 j)).pressCtx (q 76 j) == none, regsBut [Reg.YLP_BAD 1] (c1 (q 76 j)) (aft (i (q 76 j) j) (s (q 76 j))),
     (aft (i (q 76 j) j) (s (q 76 j))).rd (Reg.YLP_BAD 1) == 1, (c1 (q 77 j)).pressCtx (q 77 j) == some 3, (aft (i (q 77 j) j) (s (q 77 j))).tat.held == [(1, q 77 j)],
     leaves 128 (i (q 77 j) j) (s (q 77 j))]) ++
  [v.phase 0 == phVoted, v.ctxState 0 == ctxStep, d.press 0 == 1, (last.commitStep 0).press 0 == 0, d.rd Reg.UPD_PRESSES == 1, d.phase 0 == phIdle, d.ctxState 0 == ctxReady,
   d.rd (Reg.TAT_PDIG 0 7) == 0x55, d.press 1 == 0]

theorem witness_Presses : wPresses.all id = true := by decide +kernel

/-- One bucket table entry of context 0, at the start of LPDDR5X, with the flags given and one bucket in state st. -/
def bucket (fl st : Nat) (c : Channel) : Channel :=
  let d := ((c.setCtxState 0 ctxStep).setFld (Reg.TAT_BTBASEH 0) Fl.TAT_BTBASEH_ADDR 0x100).setFld (Reg.TAT_BTCFG 0) Fl.TAT_BTCFG_NBKT 1
  Channel.setBkt { d with mem := [(lpBase + 0x17, BitVec.ofNat 8 fl), (lpBase + 0x18, 4), (lpBase + 0x19, 5)] } 0 0 { Bkt.reset with st := st }

/-- A pass of bucket 0 of context 0. -/
def pass0 : Pass := ⟨0, 0, 0, 0, false, 3, 0, false, [], none, [], [], true, 3, 5⟩

def wReductions : List Bool :=
  let i := Instr.reductionStart 0 0
  let s0 := one (fun c => c.setCtxState 0 ctxStep)
  let s (st : Nat) := one (bucket 1 st)
  let d := aft i (s 2)
  let e := aft i (s 1)
  let q (f : Channel → Channel) : State := one (fun c => let d := f (bucket 1 2 c); { d with tat := { d.tat with queue := [(0, 0)] } })
  let odd (c : Channel) : Channel := (c.setFld (Reg.TAT_GRP 0 0) Fl.TAT_GRP_EMODE 1).setFld (Reg.TAT_GRP 0 0) Fl.TAT_GRP_ELEN 0
  let j := Instr.bucketStart 0
  let b := aft j (q id)
  let full := one (fun c => { c with tat := { c.tat with passes := [pass0, pass0, pass0, pass0], queue := [(0, 0)] } })
  [leaves 0 i s0, ((aft i s0).step 0).reducing, ((s 2).chan 0).nbkt 0 == 1, (((s 2).chan 0).bEntry 0 0).valid, leaves 0 i (s 2), d.tat.queue == [(0, 0)], (d.step 0).reducing,
   leaves 0 i (s 1), (newFault ((s 1).chan 0) e).elim false (fun m => m.code.toNat == fcTatContrib && m.ctx.val == 0), e.tat == ((s 1).chan 0).tat,
   same 0 i State.reset, ((q odd).chan 0).nextBucket == some (0, 0), ((q odd).chan 0).groupOk 0 == false,
   (newFault ((q odd).chan 0) (aft j (q odd))).elim false (fun m => m.code.toNat == fcTatGroup), (aft j (q odd)).tat.queue == [], leaves 128 j (q odd),
   ((q id).chan 0).groupOk 0, ((q id).chan 0).gsize 0 == 1, leaves 128 j (q id), b.tat.queue == [], b.tat.passes.length == 1, (b.bkt 0 0).st == 4, b.mem == ((q id).chan 0).mem,
   same 128 j full, same 128 j State.reset]

theorem witness_ReductionsStart : wReductions.all id = true := by decide +kernel

def wPasses : List Bool :=
  let s (fl st : Nat) (p : Pass) : State := one (fun c => let d := bucket fl st c; { d with tat := { d.tat with passes := [p] } })
  let i := Instr.passEnd 0 0 0
  let flagged (n : Nat) : Pass := { pass0 with flags := [0], pass := n, scales := [0x70] }
  let t := s 1 4 pass0
  let again (n : Nat) := aft i (s 1 4 (flagged n))
  let j := Instr.bucketDone 0 0 0
  let u := s 3 5 pass0
  let d := aft j u
  [((t.chan 0).findPass 0 0) == some 0, leaves 128 i t, ((aft i t).bkt 0 0).st == 5, (again 0).rd Reg.TAT_RESTARTS == 1, (again 3).rd Reg.TAT_BF16 == 1,
   ((again 0).tat.passes.map (fun p => (p.pass, p.scales))) == [(1, [0x74])], leaves 128 i (s 1 4 (flagged 2)), same 128 i (s 1 4 { pass0 with ended := false }),
   leaves 128 j u, (d.bkt 0 0).st == 6, d.tat.passes == [], d.rd Reg.TAT_BUCKETS == 1, d.cmsgs == [barrierMsg 4 106 0 0 5 1], (aft j (s 1 5 pass0)).cmsgs == [], same 128 j t]

theorem witness_PassesEnd : wPasses.all id = true := by decide +kernel

def wTimes : List Bool :=
  let a := Reg.UPD_PRESS 0
  let s := one (fun c => { c with tat := { c.tat with passes := [{ pass0 with ended := false, tag := 6, ep := 8 }] } })
  let i (t : BitVec 16) := Instr.collTimeout 0 0 t
  let p (ph multi : Nat) : State := one (fun c =>
    (((c.setCtxState 0 ctxStep).setFld a Fl.UPD_PRESS_PHASE ph).setFld a Fl.UPD_PRESS_MULTI multi).setStep 0 { StepSt.reset with reducing := true })
  let b := Instr.pressBegin 0 0
  let t := Instr.pressTimeout 0 0
  let one_ := aft b (p phLocal 0)
  let many := aft b (p phLocal 1)
  [(s.chan 0).collEpoch 0 6 == some 8, leaves 0 (i 6) s, (newFault (s.chan 0) (aft (i 6) s)).elim false (fun m => m.code.toNat == fcTatTimeout && m.node.val == 101 && m.arg0.toNat == 6),
   same 0 (i 7) s, ((p phLocal 0).chan 0).ownedSites 0 == [], leaves 128 b (p phLocal 0), one_.press 0 == 1, one_.phase 0 == phIdle, one_.ctxState 0 == ctxReady,
   leaves 128 b (p phLocal 1), many == Channel.onward ((((((p phLocal 1).chan 0).setFld a Fl.UPD_PRESS_PHASE phVoted).setStep 0 { StepSt.reset with reducing := true, voted := 0 }).chainBegin 0 0 (.votes 1)).pumpHeld 0) 0,
   same 128 b (p phVoted 0), leaves 0 t (p phVoted 1), (newFault ((p phVoted 1).chan 0) (aft t (p phVoted 1))).elim false (fun m => m.code.toNat == fcPressTimeout && m.arg1.toNat == 1),
   same 0 t (p phVoted 0)]

theorem witness_PressAndTimeouts : wTimes.all id = true := by decide +kernel

/-! ### Host interface -/

/-- Submission queue 0 and completion queue 0 of 16 entries, enabled. -/
def queues (c : Channel) : Channel :=
  ((hosted c).setFld Reg.HIF_STATUS Fl.HIF_STATUS_WIN_UP 1).wr (Reg.HIF_SQ_CFG 0) (1 + 4 * 4) |>.wr (Reg.HIF_CQ_CFG 0) (1 + 4 * 4) |>.wr (Reg.HIF_CQ_STAT 0) (2 ^ 16)

/-- The host accesses of a channel that the bridge die answers: `Dropped` of the statements. -/
def drops (i : Instr) (s : State) (n : Option Nat) : Bool :=
  let t := nxt i s
  t == { s with mod := t.mod, out := (match n with | some n => [Out.readData 0 (List.replicate n 0xFF)] | none => []) ++ s.out } &&
    t.mrd (Reg.MOD_DROP 0) == 1 && t.mrd (Reg.MOD_DROP 1) == 0 && t.mrd Reg.MOD_STATUS == s.mrd Reg.MOD_STATUS

noncomputable def wHost : List Bool :=
  let s := one queues
  let sb (v : Word) := Instr.sqDoorbell 0 0 v
  let cb (v : Word) := Instr.cqDoorbell 0 0 v
  let wrong (i : Instr) : Bool := let d := aft i s; leaves 0 i s && d.rd Reg.HIF_DBERR == 1 && rdsBut [Reg.HIF_DBERR, Reg.HIF_EVPEND] (s.chan 0) d && bit (d.rd Reg.HIF_EVPEND) 9
  let cut := one (fun c => { queues c with way := ⟨false, false, true, false⟩ })
  let gone := one (fun c => { queues c with way := ⟨false, true, false, false⟩ })
  let co (ien n : Nat) := one (fun c => ((queues c).setFld (Reg.HIF_CQ_CFG 0) Fl.HIF_CQ_CFG_IEN ien).setUncovered 0 n)
  let k := Instr.cqCoalesceTimeout 0 0
  let um := Instr.registerWrite (some 0) .pf 0x300_000C 0 none
  let ev := one (fun c => (queues c).setFld Reg.HIF_EVPEND Fl.HIF_EVPEND_PEND 0x3FF)
  let e := Instr.evpendClear 0 .pf 0x201
  let off := one (fun c => (queues c).setFld (Reg.HIF_SQ_CFG 0) Fl.HIF_SQ_CFG_EN 0)
  let sq (v : Nat) := Instr.sqEnable 0 .pf 0 (BitVec.ofNat 32 v)
  let sx (v : Nat) := Instr.sqDisable 0 .pf 0 (BitVec.ofNat 32 v)
  let cq (v : Nat) := Instr.cqEnable 0 .pf 0 (BitVec.ofNat 32 v)
  let cx (v : Nat) := Instr.cqDisable 0 .pf 0 (BitVec.ofNat 32 v)
  let bare := one (fun c => (hosted c).setFld Reg.HIF_STATUS Fl.HIF_STATUS_WIN_UP 1)
  let sa := Reg.HIF_SQ_CFG 0
  let ca := Reg.HIF_CQ_CFG 0
  let g := aft (sq (16 * 4 + 3 * 2 ^ 7)) off
  let h := aft (cq (4 * 4 + 2047 * 2 ^ 8)) bare
  [(s.chan 0).hostWay == .open, leaves 0 (sb 15) s, (aft (sb 15) s).sqTail 0 == 15, (s.chan 0).sqSize 0 == 16, wrong (sb 16), leaves 0 (cb 15) s, (aft (cb 15) s).cqHead 0 == 15, wrong (cb 16),
   wrong (.sqDoorbell 0 1 0), (cut.chan 0).hostWay == .bridge, drops (sb 3) cut none, drops (cb 3) cut none, (gone.chan 0).hostWay == .none, same 0 (sb 3) gone, same 0 (cb 3) gone,
   leaves 0 k (co 1 3), (aft k (co 1 3)).uncovered 0 == 0, (aft k (co 1 3)).out.length == 0, (aft k (co 1 3)).vecs.pend == [0], ((co 1 3).chan 0).msiUp, ((co 1 3).chan 0).vecMasked 0,
   leaves 128 um s, ((nxt um s).chan 0).vecMasked 0 == false, (aft k (nxt um (co 1 3))).out.length == 1, (aft um (nxt k (co 1 3))).out == [.msix 0 0],
   (aft um (nxt k (co 1 3))).vecs.pend == [], same 0 k (co 1 0), same 0 k (co 0 3),
   lands ev .pf Reg.HIF_EVPEND, leaves 128 e ev, (aft e ev).fld Reg.HIF_EVPEND Fl.HIF_EVPEND_PEND == 0x1FE,
   lands off .pf sa, leaves 128 (sq (16 * 4 + 3 * 2 ^ 7)) off, g.sqOn 0, g.sq 0 Fl.HIF_SQ_CFG_LOG2SIZE == 16, g.sq 0 Fl.HIF_SQ_CFG_CTX == 3, g.sqTail 0 == 0,
   (aft (sq (17 * 4)) off).sqOn 0 == false, (aft (sq (17 * 4)) off).sq 0 Fl.HIF_SQ_CFG_ERR == 1, (aft (sq (3 * 4)) off).sq 0 Fl.HIF_SQ_CFG_ERR == 1,
   (aft (sq (4 * 4 + 2 ^ 11)) off).sq 0 Fl.HIF_SQ_CFG_ERR == 1, same 128 (sq (16 * 4)) s, (aft (sx 0) s).sqOn 0 == false, leaves 128 (sx 0) s, (aft (sx (5 * 4)) off).sq 0 Fl.HIF_SQ_CFG_LOG2SIZE == 5,
   lands bare .pf ca, leaves 128 (cq (4 * 4)) bare, h.cqOn 0, h.cq 0 Fl.HIF_CQ_CFG_VEC == 2047, h.fld (Reg.HIF_CQ_STAT 0) Fl.HIF_CQ_STAT_PHASE == 1,
   (aft (cq (17 * 4)) bare).cq 0 Fl.HIF_CQ_CFG_ERR == 1, same 128 (cq 0) s, (aft (cx 0) off).cqOn 0 == false, leaves 128 (cx 0) off, (aft (cx 0) s).cqOn 0, (aft (cx 0) s).cq 0 Fl.HIF_CQ_CFG_ERR == 1]

theorem witness_HostQueues : wHost.all id = true := by decide +kernel

/-- A queue entry: opcode and the rest by byte offset and value. -/
def entry (opc : Nat) (l : List (Nat × Nat)) : BitVec 512 := BitVec.ofNat 512 (l.foldl (fun x e => x + e.2 * 2 ^ (8 * e.1)) opc)

def wCommands : List Bool :=
  let q (st : Nat) (f : Channel → Channel) : State := one (fun c => f (((queues (busy c)).setCtxState 0 st).setTail 0 1))
  let mb (c : Channel) : Channel := c.setFld (Reg.CTX_STATE 0) Fl.CTX_STATE_MB 1
  let starts (s : State) (w : BitVec 512) : Bool :=
    let c := s.chan 0
    c.mayStart 0 && !c.cmdAsleep (cf w 0 1) && c.marks 0 == 0 && !(bit (cf w 1 1) 0 && c.host.cmds.any (fun k => k.sq == 0)) && !((cf w 0 1 == 3 || cf w 0 1 == 4) && c.ctxState 0 == ctxStep)
  let ok (s : State) (w : BitVec 512) (st : Nat) : Bool := starts s w && ((s.chan 0).serve 0 w).1.cmdCheck w 0 == st
  let due (i : Instr) (s : State) : List (Nat × Nat × Nat) := (aft i s).host.compl.map (fun e => (e.status, e.detail, e.res))
  let row (w : BitVec 512) (l : List Byte) : Instr := hostRow 0 0 w l [] (cf w 0 1)
  let nop := entry 0 []
  let load := entry 1 [(8, lpBase)]
  let unl := entry 2 []
  let step := entry 3 [(8, lpBase), (0x14, 1), (0x16, 0)]
  let perm := entry 4 [(8, lpBase)]
  let rw := entry 5 [(8, lpBase), (0x14, 1)]
  let toCh := entry 6 [(8, 0x1000), (0x10, lpBase), (0x18, 64)]
  let toHost := entry 6 [(8, 0x1000), (0x10, lpBase), (0x18, 64), (0x1C, 1)]
  let data : List Byte := (List.range 64).map (BitVec.ofNat 8)
  let r := q ctxReady mb
  let d := aft (row toCh data) r
  let s3 := aft (row step []) r
  let u := aft (row unl []) r
  let p := aft (row perm []) r
  let marked := q ctxReady (fun c => c.setMarks 0 2)
  let ordered := entry 0 [(1, 1)]
  let busyQ := q ctxReady (fun c => { c with host := { c.host with cmds := [⟨9, 0, 0, 0, 6, 0⟩] } })
  let empty := q ctxReady (fun c => c.setTail 0 0)
  [ok r nop 0, ok r load 0, ok r unl 0, ok r step 0, ok r perm 0, ok r rw 0, ok r toCh 0, ok r toHost 0, ok r (entry 0 [(9, 1)]) 5, ok (q ctxEmpty mb) unl 1,
   leaves 128 (row nop []) r, due (row nop []) r == [(0, 0, 0)], due (row (entry 0 [(9, 1)]) []) r == [(5, 0, 0)], (aft (row nop []) r).sqHead 0 == 1,
   due (row unl []) r == [(0, 0, 0)], u.ctxState 0 == ctxEmpty, (u.core 0).owner == none, leaves 128 (row unl []) r,
   s3.ctxState 0 == ctxStep, s3.phase 0 == phLocal, s3.step 0 == { StepSt.reset with cmd := some 0 }, s3.host.cmds.length == 1, leaves 128 (row step []) r,
   leaves 128 (row perm []) r, p.host.cmds.length + p.host.compl.length == 1, leaves 128 (row rw []) r,
   leaves 128 (row toCh data) r, due (row toCh data) r == [(0, 0, 64)], d.ld lpBase 64 == data, due (row toHost []) r == [(0, 0, 64)], (aft (row toHost []) r).out == [.hostWrite 0 0x1000 (zeros 64)],
   due (.hostReadFail 0 0 toCh (data.take 3)) r == [(6, 1, 0)], (aft (.hostReadFail 0 0 toCh (data.take 3)) r).ldByte (lpBase + 2) == 2,
   due (row nop []) marked == [(4, 0, 0)], (aft (row nop []) marked).marks 0 == 1, (aft (row ordered []) busyQ).host.blocked == [0], leaves 128 (row ordered []) busyQ,
   (aft (row step []) (q ctxStep mb)).host.blocked == [0], same 128 (row nop []) empty, same 128 (.hostReadFail 0 0 toCh data) empty,
   (r.chan 0).pickSq == some 0, nxt (.commandStart 0 nop [] []) r == nxt (row nop []) r, (empty.chan 0).pickSq == none, same 128 (.commandStart 0 nop [] []) empty]

theorem witness_QueueCommands : wCommands.all id = true := by decide +kernel

def wCompletions : List Bool :=
  let a := Reg.HIF_CQ_STAT 0
  let k : Cmd := ⟨7, 0, 0x1234, 0, 6, 0⟩
  let c := (one (fun c => { queues c with host := { c.host with cmds := [k], blocked := [3] } })).chan 0
  let e := c.endCmd 7 6 1 9
  let x : Compl := ⟨0, 0x1234, 0, 0, 0, 64⟩
  let s (f : Channel → Channel) : State := one (fun c => f { queues c with host := { c.host with compl := [x] } })
  let i := Instr.completionWrite 0 0
  let d := aft i (s id)
  let last := s (fun c => (c.setFld a Fl.HIF_CQ_STAT_TAIL 15).setHead 0 5)
  let full := s (fun c => (c.setFld a Fl.HIF_CQ_STAT_TAIL 15))
  let off := s (fun c => c.setFld (Reg.HIF_CQ_CFG 0) Fl.HIF_CQ_CFG_EN 0)
  let l : LoadWait := ⟨7, 2, lpBase⟩
  let w (f : Channel → Channel) : State := one (fun c => f { queues c with host := { c.host with loads := [l], cmds := [k] } })
  let late := Instr.reconfigDrainTimeout 0 2
  let done := Instr.reconfigDrainDone 0 2
  let held (c : Channel) : Channel := { c.setCore 0 { Core.reset with owner := some 2 } with qlines := [⟨0, 1, 0, 0, ⟨true, 0⟩⟩] }
  [e.host.cmds == [], e.host.blocked == [], e.host.compl == [⟨0, 0x1234, 0, 6, 1, 0⟩], e.rd Reg.HIF_CMDS == 1, leaves 0 i (s id), d.cqTail 0 == 1, d.host.compl == [],
   d.out.getLast? == some (.hostWrite 0 (c.cqAddr 0) (c.complBytes x)), (aft i last).cqTail 0 == 0, (aft i last).fld a Fl.HIF_CQ_STAT_PHASE == 0, (full.chan 0).cqFull 0, same 0 i full,
   (aft i off).host.compl == [], (aft i off).out == [], same 0 i (one queues), leaves 0 late (w id), (aft late (w id)).host.compl == [⟨0, 0x1234, 0, 1, 0, 0⟩],
   ((w held).chan 0).drained 2 == false, same 0 done (w held), ((w id).chan 0).drained 2,
   (aft done (w id)).ctxState 2 == ctxReady, (aft done (w id)).config 2 == 1, same 0 late (one queues), same 0 done (one queues)]

theorem witness_Completions : wCompletions.all id = true := by decide +kernel

def wAccesses : List Bool :=
  let up (c : Channel) : Channel := (hosted c).setFld Reg.HIF_STATUS Fl.HIF_STATUS_WIN_UP 1
  let ap (g : Nat) (c : Channel) : Channel := (up c).setFld Reg.HIF_APBASE Fl.HIF_APBASE_BASE g
  let s := one up
  let dn := one hosted
  let cut := one (fun c => { c with way := ⟨false, false, true, false⟩ })
  let rd := Instr.windowAccess 0 .pf 0 none false
  let wr := Instr.windowAccess 0 .pf 0 (some 5) false
  let wide (w : Option Word) := Instr.windowAccess 0 .pf 0 w true
  let tmo (b : Bool) := Instr.windowAccessTimeout 0 b
  let lp := one (ap 1024)
  let hole := one (ap 1)
  let bar (off : Fin 68719476736) (w : Option (List Byte)) := Instr.bar2Access 0 off 8 w 1 []
  let bob := one (fun c => ap 1 (busy c))
  let bread (e : Ecc) := Instr.bar2Access 0 0x2000_8008 8 none 1 [(0, e)]
  let d := aft (bar 64 (some [1, 2])) lp
  let pz := Instr.poisonedWrite 0
  [lands s .pf 0xA000, nxt wr s == { s.setChan 0 ((s.chan 0).regWrite 0 .pf 0xA000 5) with free := 128 }, leaves 0 rd s, (aft rd s).out == [.readData 0 (leBytes 4 ((s.chan 0).regRead .pf 0xA000))],
   (dn.chan 0).hostWay == .open, same 0 rd dn, same 128 wr dn, leaves 0 (tmo true) s, (aft (tmo true) s).rd Reg.HIF_WINTO == 1, (aft (tmo false) s).out == [.readData 0 (List.replicate 4 0xFF)],
   (hole.chan 0).apertureHole (2 ^ 30 + 0x2000_0000) == false, (hole.chan 0).apertureHole (2 ^ 30 + 0x0C80_0000), leaves 0 (bar 0x0C80_0000 none) hole, (aft (bar 0x0C80_0000 none) hole).rd Reg.HIF_APHOLE == 1,
   (aft (bar 0x0C80_0000 none) hole).out == [.readData 0 (zeros 8)], (aft (bar 0x0C80_0000 (some [1])) hole).rd Reg.HIF_APHOLE == 1, (lp.chan 0).row (1024 * 2 ^ 30 + 64) == .lp 64,
   (aft (bar 64 none) lp).out == [.readData 0 (zeros 8)], leaves 0 (bar 64 (some [1, 2])) lp, d.ld (lpBase + 64) 2 == [1, 2], (cut.chan 0).hostWay == .bridge,
   drops (.hostRequestDropped 0 8 true 1) cut none, drops (.hostRequestDropped 0 8 false 1) cut (some 8), (nxt (.hostRequestDropped 0 4096 true 8) cut).mrd (Reg.MOD_DROP 0) == 8,
   drops (wide none) cut (some 8), leaves 0 (wide none) s, (aft (wide none) s).out == [.readData 0 (zeros 8)], same 128 (wide (some 5)) s, drops (bar 0 none) cut (some 8), drops (tmo false) cut (some 4), drops rd cut (some 4),
   same 0 (.hostRequestDropped 0 8 true 1) s, same 0 (.hostRequestDropped 0 8 false 1) s, nxt pz s == { s with out := [.aer 0] }, same 0 pz State.reset,
   (bob.chan 0).row (2 ^ 30 + 0x2000_8008) == .bob 0 0x8008, leaves 0 (bread .single) bob, (aft (bread .single) bob).rd (Reg.CORE_BOBCORR 0) == 1, (aft (bread .single) bob).out == [.readData 0 (zeros 8)],
   leaves 0 (bread .double) bob, (aft (bread .double) bob).faultq.map (fun m => (m.code.toNat, m.node.val, m.arg0.toNat)) == [(fcBobUncorr, 0, 17)]]

theorem witness_HostAccesses : wAccesses.all id = true := by decide +kernel

/-! ### Mailboxes -/

/-- Mailbox 0 from the host to r, mailbox 1 back, a request of function f and argument a in mailbox 0 (SEQ 5); f2 of the rest. -/
def mailed (r f a : Nat) (c : Channel) : Channel :=
  let d := (hosted c).wr (Reg.MBX_BIND 0) (0x11 + r * 2 ^ 8 + 2 ^ 16) |>.wr (Reg.MBX_BIND 1) (r + 0x11 * 2 ^ 8 + 2 ^ 16)
  (d.wr (Reg.MBX_DATA 0) (5 * 2 ^ 28 + f * 2 ^ 20 + a)).setFld (Reg.MBX_STAT 0) Fl.MBX_STAT_FULL 1

def wMail : List Bool :=
  let s := one (mailed 0x22 0 0)
  let empty := one (fun c => (mailed 0x22 0 0 c).setFld (Reg.MBX_STAT 0) Fl.MBX_STAT_FULL 0)
  let w (m : Master) := Instr.mbxWrite 0 m 0 7 .clean
  let we (e : Ecc) := Instr.mbxWrite 0 .tseq 2 7 e
  let seqs := one (fun c => (mailed 0x22 0 0 c).wr (Reg.MBX_BIND 2) (0x21 + 0x11 * 2 ^ 8 + 2 ^ 16))
  let cl (m : Master) := Instr.mbxClear 0 m 0
  let t := Instr.mbxTimeout 0 0
  let st := Reg.MBX_STAT 0
  let c := s.chan 0
  [masterId 0 .pf == 0x11, c.isTx 0 0x11, c.isRx 0 0x22, c.hostWay == .open, (aft (w .pf) empty).rd (Reg.MBX_DATA 0) == 7, (aft (w .pf) empty).mbxFull 0, leaves 0 (w .pf) empty,
   (aft (w .pf) s).fld st Fl.MBX_STAT_OVR == 1, regsBut [st] c (aft (w .pf) s), (aft (w .tseq) s).rd Reg.MBX_BADW == 1, regsBut [Reg.MBX_BADW] c (aft (w .tseq) s),
   (aft (cl .pseq) s).mbxFull 0 == false, bit ((aft (cl .pseq) s).rd Reg.HIF_EVPEND) 4, same 0 (cl .pseq) empty, (aft (cl .pf) s).rd Reg.MBX_BADW == 1,
   (aft t s).fld st Fl.MBX_STAT_TIMEOUT == 1, bit ((aft t s).rd Reg.HIF_EVPEND) 5, same 0 t empty,
   c.repBox 0x22 == some 1, c.reply 0x22 (5 * 2 ^ 28) ⟨0, 9⟩ == c.mbxFill 1 (5 * 2 ^ 28 + 9), (c.mbxFill 1 3).mbxFull 1, ((c.mbxFill 1 3).reply 0x22 0 ⟨3, 9⟩).host.replies == [(1, 3 * 2 ^ 24 + 9)],
   c.repBox 0x23 == none, c.reply 0x23 0 ⟨0, 9⟩ == c, c.mbxNext 1 == c,
   (aft (we .single) seqs).fld Reg.CNET_CORR Fl.CNET_CORR_CORR == 1, (aft (we .single) seqs).rd (Reg.MBX_DATA 2) == 7, leaves 0 (we .double) seqs, (aft (we .double) seqs).mbxFull 2 == false,
   (aft (we .double) seqs).faultq.map (fun m => (m.code.toNat, m.node.val)) == [(fcCnetUncorr, 105)]]

/-- The answer that mailbox 1 holds after command i. -/
def answered (i : Instr) (s : State) (stat res : Nat) : Bool :=
  leaves 0 i s && ((aft i s).mbxFull 0 == false) && (aft i s).rd (Reg.MBX_DATA 1) == 5 * 2 ^ 28 + stat * 2 ^ 24 + res && (aft i s).mbxFull 1

def wRequests : List Bool :=
  let s (r f a : Nat) : State := one (mailed r f a)
  (List.range 6).flatMap (fun j =>
    let (i, r, f, g) := asked 0 j
    [((s r f 3).chan 0).reqBox r == some 0, answered i (s r f 3) 0 (g ((s r f 3).chan 0) 3), same 0 i (s r 0x77 0), same 0 i State.reset]) ++
  (List.range 5).flatMap (fun k =>
    let i := Instr.ping 0 (Fin.ofNat 5 k)
    [answered i (s (0x20 + k) 0 0) 0 0, answered i (s (0x20 + k) 0xFF 0) 2 0, same 0 i (s (0x20 + k) (nth 0 [0x10, 0x40, 0x20, 0x30, 1] k) 0)]) ++
  (let fl (l : List BufUnit) : State := one (fun c => let d := mailed 0x23 0x31 0 c; { d with flash := { d.flash with buf := l } })
   let e (a : Nat) := s 0x22 0x21 a
   let en := Instr.pwrEnter 0
   let stepping := one (fun c => (mailed 0x22 0x21 3 c).setCtxState 4 2)
   let dv (h d v f : Nat) := s 0x22 0x23 (h + d * 2 + v * 2 ^ 5 + f * 2 ^ 13)
   [answered (.flush 0) (fl []) 0 1, answered (.flush 0) (fl [⟨1, [], false, false⟩]) 1 0, (aft (.flush 0) (fl [⟨1, [], false, false⟩])).flash.buf == [⟨1, [], false, true⟩],
    answered en (e 0) 3 0, answered en (e 5) 3 0, ((e 2).chan 0).entryCheck 2 == none, answered en (e 2) 0 0, (aft en (e 2)).pwr.entry.isSome, answered en stepping 3 (0x20 + 2 * 2 ^ 8),
    answered (.pwrExitReq 0) (s 0x22 0x22 0) 0 0, answered (.dvfs 0) (dv 0 4 0 0) 0 0, ((dv 0 5 0 1).chan 0).dvfsCheck 0 5 0 true false == some 6, answered (.dvfs 0) (dv 0 5 0 1) 3 (0x22 + 6 * 2 ^ 8),
    ((dv 1 8 0 1).chan 0).dvfsCheck 1 8 0 true false == none, answered (.dvfs 0) (dv 1 8 0 1) 0 0])

theorem witness_MailboxesAndRequests : wMail.all id = true ∧ wRequests.all id = true := ⟨by decide +kernel, by decide +kernel⟩

/-- A key record of generation 0 whose key 0 is the digest of the test's public key. -/
def recNat : Nat := 0x89c6b8b5e8e0fa06f6d6c7c5e4a65851607858e9e3908bcbf7476b80622c6820000000000000000000000000000000000000000000000000000000000000000000000000000000000000000000000000000000000000000000000000000000000000000000000000000000000000000000000000000000000000000000000000000000000000000000000000000000000000000000000000000000000000000000000000000000000000000000000000000000000000000000000000000000000000000000000000000000000000000c6b20c096ddc840a6c3d5f1785e51d8da46fdb6da5b4560b41789e216265fe8a0000000000000000000000004f545047

/-- An image of five sections, signed with that key; its binding table binds the mailboxes of a request to the boot block. -/
def imgNat : Nat := 0x1112400012411000000000000000000000000000000000000000000000000000000000000000000000000000000000000000000000000000000000000004000000180000000040000000000000000000001800000000300000000000000000000018000000002000000000000000000000180000000010000000000000000000001800000000000000000000000000000000000000000000000000000000000000000000000000000000000000000000000000000000000000000000000000000000000000000f5277a2b890b830878e9e9f7fce11bdd1488bc2ecdb7b83a4a97422811502d6de6c744ce0a47de414b89264013b92c1000092ff9c7bc419d0a76126316a116873208d610778467cb7a295c63de66fbfe64a0302706b76b25a36b65097d288ab6995aee11916e8065b38da9ecb0fd8ba45280b343d1398ae675ebcf09a5a05d9996fcd25f7e9ecbfaf7ae7e399d1117fc38c6736e8ffd640ba4f5cd378a34fff40000000000000000000000000102000300000001000001c00005000155484152

/-- A record of generation 1 with minimum SVN 1, its signature by the same key, the key. -/
def newNat : Nat := 0x995aee11916e8065b38da9ecb0fd8ba45280b343d1398ae675ebcf09a5a05d9996fcd25f7e9ecbfaf7ae7e399d1117fc38c6736e8ffd640ba4f5cd378a34fff4c54bb443dad8bb7c83de97c9ba2de009ee2f937594238658fa4f00031e83129c1a7465fd5af9f04e10882ec253741ba9e51f7a0e4cac8c12456b7f435739bebc2bf130b85bcee15603879e145cb2fd55a27b40965947e075cbb670530bcb02a20000000000000000000000000000000000000000000000000000000000000000000000000000000000000000000000000000000000000000000000000000000000000000000000000000000000000000000000000000000000000000000000000000000000000000000000000000000000000000000000000000000000000000000000000000000000000000000000000000000000000000000000000000000000000000000000000000000000000000c6b20c096ddc840a6c3d5f1785e51d8da46fdb6da5b4560b41789e216265fe8a0000000000000001000000014f545047

def recBytes : List Byte := leBytes 256 recNat
def imgBytes : List Byte := leBytes 448 imgNat
def newBytes : List Byte := leBytes 384 newNat

/-! ### Boot, mend -/

theorem record_ok : recOk recBytes 0 = true := by decide +kernel

theorem image_ok : imageCheck recBytes imgBytes = 0 := by decide +kernel

/-- Channel 0 with that record programmed and images in the boot flash: the test's in slot a, a header of zeros in the other. -/
def flashed (a : Nat) (c : Channel) : Channel :=
  let cells (base : Nat) (d : Byte) (l : List Byte) : List (Nat × Byte) := ((l.zip (List.range l.length)).filter (fun e => e.1 != d)).map (fun e => (base + e.2, e.1))
  let blank : List (Nat × Byte) := cells (slotBase (1 - a)) 0xFF (zeros 32)
  let img := cells (slotBase a) 0xFF imgBytes
  { c with otp := { c.otp with recs := cells 0 0 recBytes }, bflash := if a = 0 then img ++ blank else blank ++ img }

/-- With the conversion on. -/
def lit (f : Channel → Channel) : State := { one f with pins := { State.reset.pins with conv := true } }

theorem flashed_record : ∀ a, a = 0 ∨ a = 1 → (flashed a (Channel.reset 0)).otp.genBytes 0 = recBytes := by
  intro a h; rcases h with rfl | rfl <;> decide +kernel

theorem flashed_gen : ∀ a, a = 0 ∨ a = 1 → (flashed a (Channel.reset 0)).otp.gen = some 0 := by
  intro a h
  have g (k : Nat) (hk : k = 1 ∨ k = 2 ∨ k = 3) : recOk ((flashed a (Channel.reset 0)).otp.genBytes k) k = false := by
    rcases h with rfl | rfl <;> rcases hk with rfl | rfl | rfl <;> decide +kernel
  simp only [Otp.gen, List.find?, g 1 (.inl rfl), g 2 (.inr (.inl rfl)), g 3 (.inr (.inr rfl)), flashed_record a h, record_ok]

theorem flashed_image : ∀ a, a = 0 ∨ a = 1 → (flashed a (Channel.reset 0)).slotImage a = imgBytes := by
  intro a h; rcases h with rfl | rfl <;> decide +kernel

def wBoot : List Bool :=
  let c0 := flashed 0 (Channel.reset 0)
  let c1 := flashed 1 (Channel.reset 0)
  let b := Instr.boot 0 false
  let blank := lit id
  let d := aft b blank
  let p6 (f : Channel → Channel) := one (fun c => f (c.setDwg Fl.DWG_STATUS_PHASE 6))
  let t (mem : BitVec 4) (bus : Byte) := Instr.bootTrainDone 0 mem bus
  let up := nxt (t 0 0) (p6 id)
  let bad := aft (t 4 0) (p6 id)
  [c0.activeSlot == 0, c1.activeSlot == 0, imageCheck recBytes (c1.slotImage 0) == 3, imageCheck recBytes (c0.slotImage 1) == 3, c0.way.held == false, c0.pst == 0, c0.dwg Fl.DWG_STATUS_PHASE == 0,
   (blank.chan 0).otp.gen == none, leaves 0 b blank, d.dwg Fl.DWG_STATUS_PHASE == 8, d.dwg Fl.DWG_STATUS_CODE == 1, same 0 b (p6 id),
   (up.chan 0).dwg Fl.DWG_STATUS_PHASE == 7, (up.chan 0).fld (Reg.MEMC_STATUS 3) Fl.MEMC_STATUS_READY == 1, up.mfld Reg.MOD_STATUS ⟨Fl.MOD_STATUS_CH_RUN.lo, 4⟩ == 1,
   leaves 0 (t 4 0) (p6 id), bad.dwg Fl.DWG_STATUS_PHASE == 8, bad.dwg Fl.DWG_STATUS_CODE == 9, same 0 (t 0 0) State.reset]

/-- Booting from slot 0, from slot 1 by fallback; what fails. -/
theorem witness_Booting : wBoot.all id = true ∧ (flashed 0 (Channel.reset 0)).otp.gen = some 0 ∧ (flashed 1 (Channel.reset 0)).otp.gen = some 0 ∧
    imageCheck ((flashed 0 (Channel.reset 0)).otp.genBytes 0) ((flashed 0 (Channel.reset 0)).slotImage 0) = 0 ∧
    imageCheck ((flashed 1 (Channel.reset 0)).otp.genBytes 0) ((flashed 1 (Channel.reset 0)).slotImage 1) = 0 :=
  ⟨by decide +kernel, flashed_gen 0 (.inl rfl), flashed_gen 1 (.inr rfl), by rw [flashed_record 0 (.inl rfl), flashed_image 0 (.inl rfl)]; exact image_ok,
    by rw [flashed_record 1 (.inr rfl), flashed_image 1 (.inr rfl)]; exact image_ok⟩

/-- A request of function f for the boot block, with the operands given. -/
def dwgAsk (f addrH len : Nat) (c : Channel) : Channel := (((mailed 0x24 f 0 c).wr Reg.DWG_ADDRH addrH).wr Reg.DWG_LEN len)

def wLong : List Bool :=
  let s (f addrH len : Nat) (g : Channel → Channel) : State := one (fun c => g (dwgAsk f addrH len c))
  let st := Reg.DWG_STATUS
  let att := Instr.attest 0
  let oneBusy (c : Channel) : Channel := c.setDwg Fl.DWG_STATUS_OP 2
  let denied (i : Instr) (s : State) (code : Nat) : Bool := (aft i s).rd (Reg.MBX_DATA 1) == 5 * 2 ^ 28 + 3 * 2 ^ 24 && (aft i s).dwg Fl.DWG_STATUS_CODE == code
  let staged (op : Nat) := one (fun c => let d := c.setDwg Fl.DWG_STATUS_OP op; { d with fw := { d.fw with stage := [7, 8], otpNew := [0, 0, 0, 0, 1, 9] } })
  let sd (ok : Bool) := Instr.stageDone 0 ok
  let e := aft (sd true) (staged 1)
  let od := Instr.otpProgramDone 0
  let o := aft od (staged 3)
  let c := (s 2 0x100 448 id).chan 0
  [((s 1 0x100 0 id).chan 0).reqBox 0x24 == some 0, ((s 1 0x100 0 id).chan 0).dwgSpanOk 864, ((s 1 0x200 0 id).chan 0).dwgSpanOk 864 == false, denied att (s 1 0x200 0 id) 14,
   answered (.stage 0) (s 2 0x100 448 oneBusy) 1 0, denied (.stage 0) (s 2 0x200 448 id) 14, c.dwgSpanOk (c.rd Reg.DWG_LEN), decide (c.rd Reg.DWG_LEN ≤ slotSize),
   answered (.stage 0) (s 2 0x100 448 id) 0 0, (aft (.stage 0) (s 2 0x100 448 id)).dwg Fl.DWG_STATUS_CODE == 3, (aft (.stage 0) (s 2 0x100 448 id)).dwg Fl.DWG_STATUS_OPSTAT == 2,
   leaves 128 (sd true) (staged 1), e.dwg Fl.DWG_STATUS_OP == 0, e.dwg Fl.DWG_STATUS_OPSTAT == 1, e.bf (slotBase 1) 3 == [7, 8, 0xFF], same 128 (sd false) (staged 0),
   answered (.otpCommit 0) (s 4 0x100 384 oneBusy) 1 0, denied (.otpCommit 0) (s 4 0x100 384 id) 12,
   leaves 0 od (staged 3), o.otp.recs == [(260, 1), (261, 9)], o.dwg Fl.DWG_STATUS_OPSTAT == 1, same 0 od (staged 1), rdsBut [st] ((staged 3).chan 0) o]

/-- The commit block of the test where the record and the image of `flashed` run, at the start of LPDDR5X. -/
def committing (c : Channel) : Channel :=
  let d := dwgAsk 4 0x100 384 (flashed 0 c)
  { d with fw := { d.fw with svn := 1 },
           mem := ((newBytes.zip (List.range 384)).filter (fun e => e.1 != 0)).map (fun e => (lpBase + e.2, e.1)) }

/-- An image to stage there. -/
def staging (c : Channel) : Channel :=
  { dwgAsk 2 0x100 448 (flashed 0 c) with mem := ((imgBytes.zip (List.range 448)).filter (fun e => e.1 != 0)).map (fun e => (lpBase + e.2, e.1)) }

theorem staging_image : (staging (Channel.reset 0)).ld (staging (Channel.reset 0)).dwgAddr 448 = imgBytes := by decide +kernel

theorem committing_block : (committing (Channel.reset 0)).ld (committing (Channel.reset 0)).dwgAddr 384 = newBytes := by decide +kernel

theorem commit_ok : (committing (Channel.reset 0)).commitCheck newBytes = 0 := by decide +kernel

theorem witness_LongOperations : wLong.all id = true ∧ imageCheck (staging (Channel.reset 0)).genRec ((staging (Channel.reset 0)).ld (staging (Channel.reset 0)).dwgAddr 448) = 0 ∧
    (committing (Channel.reset 0)).commitCheck ((committing (Channel.reset 0)).ld (committing (Channel.reset 0)).dwgAddr 384) = 0 := by
  refine ⟨by decide +kernel, ?_, ?_⟩
  · have h : (staging (Channel.reset 0)).genRec = recBytes := by decide +kernel
    rw [staging_image, h]; exact image_ok
  · rw [committing_block]; exact commit_ok

/-- A MEND request with the image of `flashed` in the inactive slot 1; phase m of a mend. -/
def mending (m : Nat) (c : Channel) : Channel := let d := dwgAsk 3 0x100 0 (flashed 1 c); { d with fw := { d.fw with mend := m } }

def wMend : List Bool :=
  let st := Reg.DWG_STATUS
  let s (m : Nat) (g : Channel → Channel) : State := one (fun c => g (mending m c))
  let c := (s 0 id).chan 0
  let rinse (c : Channel) : Channel := c.setCtxState 3 ctxRinse
  let tries (n : Nat) (c : Channel) : Channel := { c with fw := { c.fw with tries := n } }
  let pk := Instr.mendPark 0
  let late := Instr.mendParkTimeout 0
  let sw := Instr.mendSwitch 0 9
  let swapping (c : Channel) : Channel := c.setFstat Fl.FLASH_STATUS_SWAP_BUSY true
  -- the other slot's image is no image
  let none_ := one (fun c => dwgAsk 3 0x100 0 (flashed 0 c))
  let d := aft (.mend 0) none_
  [answered (.mend 0) (s 0 (fun c => c.setDwg Fl.DWG_STATUS_OP 1)) 1 0, answered (.mend 0) none_ 0 0, d.dwg Fl.DWG_STATUS_CODE == 3, d.dwg Fl.DWG_STATUS_OPSTAT == 2,
   fieldAt imgBytes 0x14 2 == c.fw.handover, c.slotImage (1 - c.activeSlot) == imgBytes, c.mendWaits == false,
   decide (fieldAt imgBytes 0x14 2 ≠ 1), c.reqBox 0x24 == some 0, reqFunc (c.rd (Reg.MBX_DATA 0)) == 3,
   (List.range 16).all (fun i => fieldAt ((imgPart imgBytes 4 0).getD []) (4 * i) 4 % 2 ^ 17 == c.rd (Reg.MBX_BIND i)),
   leaves 0 pk (s 3 id), (aft pk (s 3 id)).fw.mend == 4, ((s 3 rinse).chan 0).mendWaits, leaves 0 pk (s 3 rinse), (aft pk (s 3 rinse)).dwg Fl.DWG_STATUS_DEFERRED == 1,
   (aft pk (s 3 rinse)).rd Reg.SEQ_DEFER == 1, same 0 pk (s 4 id), (aft (.mendRetry 0) (s 5 id)).fw.mend == 4, same 0 (.mendRetry 0) (s 4 id),
   (aft late (s 4 (tries 6))).fw.mend == 5, (aft late (s 4 (tries 6))).fw.tries == 7, (aft late (s 4 (tries 7))).dwg Fl.DWG_STATUS_CODE == 15, regsBut [st] { (s 4 (tries 7)).chan 0 with fw := (aft late (s 4 (tries 7))).fw } (aft late (s 4 (tries 7))),
   same 0 late (s 3 id), same 0 sw (s 3 id), same 0 sw (s 4 swapping), ((s 4 id).chan 0).safePoints, (aft sw (s 4 id)).dwg Fl.DWG_STATUS_SLOT == 1, (aft sw (s 4 id)).rd Reg.DWG_UCVER == 0x01020003,
   (aft sw (s 4 id)).rd Reg.SEQ_MENDS == 1, (aft sw (s 4 id)).fw.mend == 0]

theorem mending_record : (mending 0 (Channel.reset 0)).genRec = recBytes := by decide +kernel

/-- The image verifies and its binding table is the channel's; another table (code 10) or handover number (code 11) is met by a channel whose own differ. -/
theorem witness_Mending : wMend.all id = true ∧ imageCheck (mending 0 (Channel.reset 0)).genRec imgBytes = 0 :=
  ⟨by decide +kernel, by rw [mending_record]; exact image_ok⟩

/-! ### The module -/

/-- The module after 48 V and PCIe have come up. -/
def modUpS (f : Channel → Channel) : State :=
  let s := one (fun c => f (hosted c))
  { s with pins := { s.pins with conv := true, prsnt := true, mrst := false, perst := false, d3 := false, straps := 6, sampled := 6 } }

/-- A channel with something in each unit. -/
def full (c : Channel) : Channel :=
  (((busy c).st lpBase false [5]).st (sliceBase 0) false [6]).wr Reg.FLT_LOGLOST 3 |>.wr Reg.NUM_SRSEEDL 9

/-- The condition `WasReset`, at one address of each kind. -/
def wasReset (c d : Channel) : Bool :=
  decide ({ d with regs := [], mem := [], flash := .reset, pwr := .reset } =
    { Channel.reset c.num with way := d.way, ts := c.ts, bflash := c.bflash, otp := c.otp, out := c.out, regs := [] }) &&
    d.num == c.num && d.cores == [] && d.dwg Fl.DWG_STATUS_PHASE == 0 && d.pst == 0 && mget memDefault d.mem (sliceBase 0) == 0 &&
    mget memDefault d.mem lpBase == mget memDefault c.mem lpBase && d.ctxState 0 == ctxEmpty && d.ctxState 15 == ctxEmpty &&
    d.rd Reg.FLT_LOGLOST == c.rd Reg.FLT_LOGLOST && d.rd Reg.NUM_SRSEEDL == 0

/-- Nothing changes but the MOD block, what leaves the module, channel 0 and the free values. -/
def modAnd (s t : State) : Bool := decide (t = { s.setChan 0 (t.chan 0) with mod := t.mod, out := t.out, free := t.free })

def wResets : List Bool :=
  let s := modUpS full
  let c := s.chan 0
  let t := nxt (.channelHold 0) s
  let u := nxt (.channelRelease 0) t
  let f := nxt (.functionLevelReset 1) s
  let g := { s.mwr Reg.MOD_ARB 7 with pins := { s.pins with d3 := true } }
  let g1 := (g.mwr (Reg.MOD_DROP 3) 2).mwr Reg.MOD_CHRST 8
  let z := nxt (.functionLevelReset 0) g1
  [s.modUp, bit (s.mfld Reg.MOD_CHRST Fl.MOD_CHRST_HOLD) 0 == false, c.cores != [], c.ctxState 0 == 2, modAnd s t, wasReset c (t.chan 0), (t.chan 0).way == { c.way with held := true },
   bit (t.mfld Reg.MOD_CHRST Fl.MOD_CHRST_HOLD) 0, bit (t.mfld Reg.MOD_STATUS Fl.MOD_STATUS_CH_RUN) 0 == false, t.modUp, same 0 (.channelHold 0) t,
   modAnd t u, u.chan 0 == { t.chan 0 with way := c.way }, u.out == t.out, bit (u.mfld Reg.MOD_CHRST Fl.MOD_CHRST_HOLD) 0 == false, same 0 (.channelRelease 0) s,
   State.reset.modUp == false, same 0 (.channelHold 3) State.reset, same 0 (.channelRelease 3) State.reset,
   modAnd s f, wasReset c (f.chan 0), (f.chan 0).way == c.way, bit (f.mfld Reg.MOD_CHRST Fl.MOD_CHRST_HOLD) 0 == false,
   z == { g1 with mod := z.mod, pins := s.pins }, z.mrd Reg.MOD_ARB == (modDefault Reg.MOD_ARB).toNat, z.mrd (Reg.MOD_DROP 3) == 0, g1.mrd (Reg.MOD_DROP 3) == 2, z.mrd Reg.MOD_CHRST == 8]

theorem witness_ChannelResets : wResets.all id = true := by decide +kernel

def wModule : List Bool :=
  let s := modUpS full
  let c := s.chan 0
  let st := Reg.MOD_STATUS
  let off (b : Bool) (f : State → State) : State := { f s with pins := { (f s).pins with conv := b } }
  let cut := s.onChan 0 (fun c => { c with way := { c.way with link := false } })
  let held := s.onChan 0 (fun c => { c with way := { c.way with held := true } })
  let d := nxt (.bridgeLinkDown 0) s
  let dh := nxt (.bridgeLinkDown 0) held
  let u := nxt (.bridgeLinkUp 0) cut
  let l := nxt (.bridgeLost 0) cut
  let aux := { s with pins := { s.pins with aux := true } }
  let aux0 := { aux with pins := { aux.pins with conv := false } }
  let noAux := { s with pins := { s.pins with aux := false } }
  let smb (i : Bool → Instr) (code : Nat) (block : Bool) (x : State) (b : List Byte) : Bool :=
    decide (nxt (i false) x = { x with out := .smbus 0x5A b :: x.out }) &&
      (match (nxt (i true) x).out with
       | .smbus 0x5A l :: o => o == x.out && l.length == b.length + 1 && l.take b.length == b &&
           ([0xB4, code, 0xB5] ++ (if block then [b.length] else []) ++ l.map (·.toNat)).foldl pecByte 0 == 0
       | _ => false)
  let hot := aux.onChan 0 (fun c => (c.setHf 0 Fl.PWR_HALF_TEMP 0xFF0).setHf 1 Fl.PWR_HALF_TEMP 0x7FF)
  let cold := aux.onChan 0 (fun c => (c.setHf 0 Fl.PWR_HALF_TEMP 0xFF0).setHf 1 Fl.PWR_HALF_TEMP 0x800)
  [c.way.link, c.pst == 0, modAnd s d, d.chan 0 == { c with way := { c.way with link := false } }, d.free == s.free, d.mrd st == setBits (setBits (s.mrd st) 4 1 0) 8 1 1,
   dh.mrd st == setBits (s.mrd st) 4 1 0, modAnd held dh, (let x := s.mrd st; let y := setBits x 4 1 0; let z := setBits y 8 1 1; let v (a b : Nat) : List Out := if a != b && s.pf0Up then [.msix 4 0] else []; d.out == v y z ++ (v x y ++ s.out)), same 0 (.bridgeLinkDown 0) cut, same 0 (.bridgeLinkDown 0) (off false id), same 0 (.bridgeLinkDown 0) (s.onChan 0 (fun c => c.setPst 4)),
   modAnd cut u, u.chan 0 == c, u.mrd st == setBits (s.mrd st) 4 1 1, u.out == .msix 4 0 :: s.out || u.mrd st == s.mrd st || u.out == s.out, same 0 (.bridgeLinkUp 0) (off false id),
   modAnd cut l, (newFault (cut.chan 0) (l.chan 0)).map (fun m => (m.code.toNat, m.node.val)) == some (fcBridgeLost, 105), l.mrd st == setBits (s.mrd st) 8 1 1,
   same 0 (.bridgeLost 0) s, same 0 (.bridgeLost 0) (held.onChan 0 (fun c => { c with way := { c.way with link := false } })),
   smb (.moduleId ·) 0 true aux (leBytes 4 (setBits (s.mrd Reg.MOD_ID) 8 2 1)), smb (.moduleStatus ·) 1 true aux (leBytes 4 (s.mrd st)), smb (.serial ·) 2 true aux (List.replicate 16 0),
   smb (.dieTemp 0 ·) 0x10 false hot [0xFF, 0x07], smb (.dieTemp 0 ·) 0x10 false cold [0xF0, 0xFF], smb (.dieTemp 0 ·) 0x10 false aux0 [0x00, 0x80], smb (.iin 258 ·) 0x21 false aux [2, 1], smb (.iin 258 ·) 0x21 false aux0 [0, 0],
   smb (.pin 258 ·) 0x22 false aux [2, 1], smb (.pin 258 ·) 0x22 false aux0 [0, 0], smb (.vin 48000 ·) 0x20 false aux0 [0x80, 0xBB], nxt .smbusNack aux == { aux with out := .nack :: aux.out },
   same 0 (.moduleId true) noAux, same 0 (.vin 5 false) noAux, same 0 .smbusNack noAux, same 0 (.dieTemp 0 true) noAux]

noncomputable def wPins : List Bool :=
  let s := modUpS full
  let c := s.chan 0
  let p := s.pins
  let st := Reg.MOD_STATUS
  let off := { s with pins := { p with conv := false } }
  let low := { s with pins := { p with mrst := true } }
  let per := { s with pins := { p with perst := true } }
  let on := nxt .vin48Valid off
  let dead (i : Instr) (b : Bool) : Bool :=
    let t := nxt i s
    let d := t.chan 0
    t.pins == { p with conv := false, prsnt := b } && t.mod == [] && t.out == s.out && d.way == .reset && d.ts == 0 && d.cores == [] && d.bflash == c.bflash &&
      mget memDefault d.mem lpBase == 0 && mget memDefault d.mem (sliceBase 0) == 0 && d.ctxState 0 == ctxEmpty
  let v := nxt (.vinOkChange true) s
  let m := nxt .mrstAssert v
  let r := nxt .mrstDeassert m
  let work := s.onChan 0 (fun c => { (queues c).wr (Reg.HIF_SQ_CFG 63) 1 with host := { c.host with cmds := [⟨7, 0, 0x1234, 0, 6, 0⟩], compl := [⟨0, 1, 0, 0, 0, 64⟩] } })
  let q := nxt .perstAssert work
  let k := work.chan 0
  let e := q.chan 0
  [on == { off with mod := on.mod, out := on.out, pins := { p with conv := true } }, on.mfld st Fl.MOD_STATUS_VIN_OK == 1, same 0 .vin48Valid s, same 0 .vin48Valid low,
   same 0 .vin48Valid { off with pins := { off.pins with prsnt := false } }, p.conv, dead .vin48Loss true, dead .prsntOpen false, same 0 .vin48Loss off,
   nxt .prsntOpen off == { off with pins := { off.pins with prsnt := false } }, nxt .prsntClose off == { off with pins := { off.pins with prsnt := true } },
   nxt (.auxSupplyChange false) s == { s with pins := { p with aux := false } }, v == { s with mod := v.mod, out := v.out }, v.mrd st == setBits (s.mrd st) 12 1 1,
   v.mrd st != s.mrd st, v.out == .msix 4 0 :: s.out || v.out == s.out, same 0 (.vinOkChange true) off,
   m.pins == { p with mrst := true }, (m.chan 0).way == ⟨true, false, false, false⟩, wasReset c (m.chan 0), m.mrd st == 2 ^ 12, m.mrd Reg.MOD_ARB == (modDefault Reg.MOD_ARB).toNat,
   nxt .mrstAssert off == { off with pins := { off.pins with mrst := true } }, r.pins == p, r.mod == m.mod, r.chan 0 == { m.chan 0 with way := { (m.chan 0).way with held := false } },
   same 0 .mrstDeassert s, q.pins == { p with perst := true }, k.sqOn 0, k.sqOn 63, e == { k with regs := e.regs, way := { k.way with pcie := false }, host := { k.host with cmds := e.host.cmds, compl := [] } },
   e.host.cmds.map (·.id) == [7], e.sqOn 0 == false, e.sqOn 63 == false, e.cqOn 0 == false, nxt .perstDeassert per == s,
   (nxt .pcieLinkUp (s.onChan 0 (fun c => { c with way := { c.way with pcie := false } }))).chan 0 == c, same 0 .pcieLinkUp per, same 0 .pcieLinkUp low,
   nxt (.d3hot 0 true) s == { s with pins := { p with d3 := true } }, nxt (.d3hot 1 true) s == s.setChan 0 { c with way := { c.way with d3 := true } }]

theorem witness_ModuleLines : wModule.all id = true := by decide +kernel

theorem witness_ModuleLines_pins : wPins.all id = true := by decide +kernel

/-! ### Power states -/

/-- A refusal counted at a and recorded. -/
def refusedBy (a refuser who reason target kind : Nat) (c d : Channel) : Bool :=
  let r := Reg.PWR_REFREC
  d.rd a == c.rd a + 1 && (c.fld r Fl.PWR_REFREC_VALID == 1 && d.rd r == c.rd r ||
    d.fld r Fl.PWR_REFREC_VALID == 1 && d.fld r Fl.PWR_REFREC_REFUSER == refuser && d.fld r Fl.PWR_REFREC_REQUESTER == who &&
    d.fld r Fl.PWR_REFREC_REASON == reason && d.fld r Fl.PWR_REFREC_TARGET == target && d.fld r Fl.PWR_REFREC_KIND == kind)

def wPower : List Bool :=
  let s (f : Channel → Channel) : State := one (fun c => f (hosted c))
  let r := s id
  let c := r.chan 0
  let st := Reg.PWR_STATUS
  let go (t v : Nat) : Instr := pwrRow 0 .pf (BitVec.ofNat 32 v) t
  let no (t : Nat) (f : Channel → Channel) (x : Nat × Nat) : Bool :=
    let k := s f
    let d := aft (go t t) k
    lands k .pf Reg.PWR_REQ && (k.chan 0).entryCheck t == some x && leaves 128 (go t t) k && refusedBy Reg.PWR_REFUSED x.1 0x11 x.2 t 0 (k.chan 0) d &&
      regsBut [Reg.PWR_REFREC, Reg.PWR_REFUSED, Reg.HIF_EVPEND] (k.chan 0) d && bit (d.rd Reg.HIF_EVPEND) 6
  let yes (t : Nat) : Bool :=
    let d := aft (go t t) r
    c.entryCheck t == none && leaves 128 (go t t) r && d.fld st Fl.PWR_STATUS_BUSY == 1 && d.pst == 0 && rdsBut [st] c d
  let d2 := aft (go 2 2) r
  let on := (halfSites 3).filter c.usable
  let gw := s (fun c => (c.setGated 2).setPst 1)
  let g := aft (go 1 (1 + 8)) gw
  let x1 := aft (.pwrExit 0 .pf 0) gw
  let c3 := s (fun c => c.setPst 3)
  let x3 := aft (.pwrExit 0 .pf 0) c3
  let under := s (fun c => { c with pwr := { c.pwr with entry := some ⟨3, 0x11, 1, none⟩ } })
  [no 1 (fun c => { c with pwr := { c.pwr with exit := true } }) (0x22, 1), no 2 (fun c => c.setPst 2) (0x22, 0), no 3 (fun c => { c with pwr := { c.pwr with entry := some ⟨2, 0x11, 3, none⟩ } }) (0x22, 1),
   no 2 busy (0x20, 2), no 4 (fun c => c.setFld Reg.FLT_STATUS Fl.FLT_STATUS_PHASE 1) (0x20, 2), no 3 (fun c => c.setFld Reg.DWG_STATUS Fl.DWG_STATUS_OP 1) (0x24, 3),
   no 4 (fun c => c.setFld (Reg.YLP_CTRL 5) Fl.YLP_CTRL_EN 1) (0x45, 4), no 4 (fun c => (busy c).setFld Reg.PWR_REFREC Fl.PWR_REFREC_VALID 1) (0x20, 2),
   yes 2, yes 3, yes 4, on.length == 96, d2.pwr.entry == some ⟨2, 0x11, 3, none⟩, d2.cmsgs == on.map (fun i => pwrMsg i 4 0), d2.pwr.acks == on.map (fun i => (i, 4)),
   (aft (go 3 3) r).pwr.entry == some ⟨3, 0x11, 1, none⟩, (aft (go 4 4) r).pwr.entry == some ⟨4, 0x11, 1, none⟩,
   leaves 128 (go 1 9) gw, g.cmsgs == [pwrMsg 127 0 1, pwrMsg 127 1 2], g.regs == (gw.chan 0).regs, (aft (go 1 (1 + 16)) gw).cmsgs == [],
   leaves 128 (.pwrExit 0 .pf 0) gw, x1.cmsgs == [pwrMsg 127 1 2], x1.pwr.exit, x1.pst == 1, x1.fld st Fl.PWR_STATUS_BUSY == 1,
   x3.cmsgs == pwrMsg 127 3 3 :: on.map (fun i => pwrMsg i 5 0), x3.pwr.exit, leaves 128 (.pwrExit 0 .pf 0) c3,
   leaves 128 (.pwrExit 0 .pf 0) under, (aft (.pwrExit 0 .pf 0) under).pwr.entry == some ⟨3, 0x11, 1, some (2, 0)⟩, same 128 (.pwrExit 0 .pf 0) r]

theorem witness_PowerRequests : wPower.all id = true := by decide +kernel

def wEntry : List Bool :=
  let s (e : PwrEntry) (f : Channel → Channel) : State := one (fun c => f { c with pwr := { c.pwr with entry := some e } })
  let dn := Instr.entryDrainDone 0
  let late := Instr.entryDrainTimeout 0
  let qu := Instr.entryQuiesced 0
  let done := Instr.powerEntryDone 0
  let ex := Instr.powerExitDone 0
  let st := Reg.PWR_STATUS
  let on := (halfSites 3).filter (one id |>.chan 0).usable
  let cmd (c : Channel) : Channel := { c with host := { c.host with cmds := [⟨7, 0, 0x1234, 0, 6, 0⟩] } }
  let dirty (c : Channel) : Channel := { c with flash := { c.flash with buf := [⟨1, [], false, false⟩] } }
  let acks (c : Channel) : Channel := { c with pwr := { c.pwr with acks := [(99, 4), (99, 2)] } }
  let gone (c d : Channel) (tgt ap src port : Nat) : Bool :=
    let r := Reg.PWR_ABREC
    d.pwr.entry == none && d.fld st Fl.PWR_STATUS_BUSY == 0 && d.rd Reg.PWR_ABORTED == c.rd Reg.PWR_ABORTED + 1 && d.pst == c.pst &&
      d.fld r Fl.PWR_ABREC_VALID == 1 && d.fld r Fl.PWR_ABREC_SOURCE == src && d.fld r Fl.PWR_ABREC_TARGET == tgt && d.fld r Fl.PWR_ABREC_AP == ap &&
      d.fld r Fl.PWR_ABREC_PORT == port && bit (d.rd Reg.HIF_EVPEND) 6
  let e1 : PwrEntry := ⟨3, 0x11, 1, none⟩
  let e1w : PwrEntry := ⟨3, 0x11, 1, some (1, 5)⟩
  let e3 : PwrEntry := ⟨2, 0x11, 3, none⟩
  let e3w : PwrEntry := ⟨4, 0x11, 3, some (3, 0)⟩
  let a := aft dn (s e1 id)
  let b := aft dn (s e1 dirty)
  let l := s e1 (fun c => (cmd c).setBusy true)
  let q2 := aft qu (s e3 id)
  let win (c : Channel) : Channel := (c.setFld (Reg.YLW_CTRL 63) Fl.YLW_CTRL_OPEN 1)
  let w3 := s { e3 with target := 3 } win
  let q3 := aft qu w3
  let e4 (t : Nat) : PwrEntry := ⟨t, 0x11, 4, none⟩
  let f (c : Channel) : Channel := ((full c).setBusy true).setGated 1
  let t2 := aft done (s (e4 2) f)
  let t3 := aft done (s (e4 3) f)
  let t4 := aft done (s (e4 4) f)
  let keep (d : Channel) (lp tier : Byte) : Bool := mget memDefault d.mem lpBase == lp && mget memDefault d.mem (sliceBase 0) == tier
  let at0 (d : Channel) : Bool := d.fld st Fl.PWR_STATUS_BUSY == 0 && d.pwr.entry == none && d.gated == 0 && d.rd Reg.PWR_ENTRIES == 1
  let stopped (f : Channel → Channel) := one (fun c => f { c with pwr := { c.pwr with stop := true } })
  let out (p : Nat) (f : Channel → Channel) := one (fun c => f { (c.setPst p).setGated 3 with pwr := { c.pwr with exit := true } })
  let c1 := out 1 (fun c => c.setQuiet 0 true)
  let x1 := aft ex c1
  [leaves 0 dn (s e1 id), a.pwr.entry == some ⟨3, 0x11, 3, none⟩, a.cmsgs == on.map (fun i => pwrMsg i 4 0), a.pwr.acks == on.map (fun i => (i, 4)), a.regs == ((s e1 id).chan 0).regs,
   leaves 0 dn (s e1 dirty), b.pwr.entry == some ⟨3, 0x11, 2, none⟩, b.cmsgs == [], leaves 0 dn (s e1w id), gone ((s e1w id).chan 0) (aft dn (s e1w id)) 3 2 1 5,
   same 0 dn (s e1 cmd), same 0 dn (s e3 id), leaves 0 late l, refusedBy Reg.PWR_REFUSED 0x20 0x11 1 3 0 (l.chan 0) (aft late l), (aft late l).pwr.entry == none,
   (aft late l).fld st Fl.PWR_STATUS_BUSY == 0, same 0 late (s e1 id), same 0 late (s e3 cmd),
   same 0 qu (s e3 acks), leaves 0 qu (s e3 id), q2.cmsgs == [pwrMsg 127 2 3], q2.pwr.entry == some ⟨2, 0x11, 4, none⟩,
   (w3.chan 0).winOpen 63, leaves 0 qu w3, q3.pwr.entry == some ⟨3, 0x11, 4, none⟩, q3.cmsgs.getLast? == some (pwrMsg 127 2 3), q3.winOpen 63 == false, q3.mem == (w3.chan 0).mem,
   leaves 0 qu (s e3w id), gone ((s e3w id).chan 0) (aft qu (s e3w id)) 4 4 3 0, same 0 qu (s e1 id),
   leaves 128 done (s (e4 2) f), at0 t2, t2.pst == 2, keep t2 5 6, leaves 128 done (s (e4 3) f), at0 t3, t3.pst == 3, t3.cores == [], keep t3 5 0,
   leaves 128 done (s (e4 4) f), at0 t4, t4.pst == 4, t4.cores == [], keep t4 0 0, same 128 done (s e3 f), same 128 done (one f), same 0 dn (one f), same 0 late (one f), same 0 qu (one f),
   leaves 128 done (stopped id), (aft done (stopped id)).pst == 4, same 128 done (stopped (fun c => c.setPst 4)), same 128 done (stopped (fun c => c.setFld Reg.FLT_STATUS Fl.FLT_STATUS_PHASE 1)),
   leaves 0 ex c1 || leaves 128 ex c1, x1.pst == 0, x1.gated == 0, x1.pwr.exit == false, (x1.core 0).quiet == false, ((c1.chan 0).core 0).quiet,
   nxt ex (out 4 full) == (out 4 full).chanReset 0, same 0 ex (one full)]

theorem witness_PowerEntrySteps : wEntry.all id = true := by decide +kernel

/-! ### POWER messages, frequency, heat -/

def wMessages : List Bool :=
  let on (l : List CMsg) (f : Channel → Channel) : State := one (fun c => f { c with cmsgs := l })
  let g := on [pwrMsg 127 0 2] id
  let a := aft (.gate 0 2 .clean) g
  let u := on [pwrMsg 127 1 3] (fun c => (c.setGated 3).setPst 1)
  let b := aft (.ungate 0 3 .clean) u
  let u2 := on [pwrMsg 127 1 1] (fun c => (c.setGated 3).setPst 1)
  let deep := on [pwrMsg 127 0 1] (fun c => c.setPst 2)
  let mem (c : Channel) : Channel := (((c.st (bobBase 0) false [1]).st (bobBase 9) false [2]).st (spadBase 0) false [3]).st (spadBase 0 + 0x2_0000) false [4]
  let f (c : Channel) : Channel := ((mem c).setPst 2).setCore 0 { Core.reset with arr := { Arr.reset with pos := 3 } }
  let off := on [pwrMsg 127 2 1] f
  let o := aft (.islandOff 0 1 .clean) off
  let rest := on [pwrMsg 127 3 1] (fun c => (f c).setFld (Reg.CORE_SPRET 0) Fl.CORE_SPRET_MASK 2)
  let i := aft (.islandOn 0 1 .clean) rest
  let rest0 := on [pwrMsg 127 3 1] (fun c => (f c).setPst 0)
  let q := on [pwrMsg 5 4 0] id
  let r := on [pwrMsg 5 5 0] (fun c => c.setQuiet 5 true)
  let ack (l : List CMsg) (f : Channel → Channel) : State := on l (fun c => f { c with pwr := { c.pwr with acks := [(5, 4), (99, 0)] } })
  let at5 (c : Channel) : Channel := c.setCore 5 { Core.reset with f := { Stream.reset with flights := Stream.reset.flights } }
  let k := Instr.ack 0 5 4 .clean
  let ecc (mk : Ecc → Instr) (s : State) (node : Nat) : Bool :=
    nxt (mk .single) s == nxt (mk .clean) (s.onChan 0 (fun c => c.addFld Reg.CNET_CORR Fl.CNET_CORR_CORR 1)) && (aft (mk .double) s).cmsgs == [] && leaves 0 (mk .double) s &&
      (aft (mk .double) s).faultq.map (fun m => (m.code.toNat, m.node.val, m.arg0.toNat)) == [(fcCnetUncorr, node, node)]
  let gone := one (fun c => { c.wr (Reg.MESH_FENCE 0) 32 with cmsgs := [pwrMsg 5 4 0] })
  let two := on [pwrMsg 127 0 1, pwrMsg 127 0 2] id
  [leaves 0 (.gate 0 2 .clean) g, a.gated == 2, a.pst == 1, a.cmsgs == [], bit (a.rd Reg.HIF_EVPEND) 6, same 0 (.gate 0 1 .clean) g, leaves 0 (.ungate 0 3 .clean) u, b.gated == 0, b.pst == 0, bit (b.rd Reg.HIF_EVPEND) 6,
   (aft (.ungate 0 1 .clean) u2).gated == 2, (aft (.ungate 0 1 .clean) u2).pst == 1, (aft (.ungate 0 1 .clean) u2).rd Reg.HIF_EVPEND == 0, same 0 (.ungate 0 3 .clean) g, (aft (.gate 0 1 .clean) deep).pst == 2, (aft (.gate 0 1 .clean) deep).gated == 1,
   leaves 0 (.islandOff 0 1 .clean) off, (o.core 0).arr == .reset, mget memDefault o.mem (bobBase 0) == 0, mget memDefault o.mem (bobBase 9) == 2, mget memDefault o.mem (spadBase 0) == 3, o.cmsgs == [], same 0 (.islandOff 0 1 .clean) g,
   leaves 0 (.islandOn 0 1 .clean) rest, mget memDefault i.mem (spadBase 0) == 0, mget memDefault i.mem (spadBase 0 + 0x2_0000) == 4, mget memDefault i.mem (bobBase 9) == 2,
   (rest.chan 0).spretEff 0 == 0xC002, (aft (.islandOn 0 1 .clean) rest0).mem == (rest0.chan 0).mem, same 0 (.islandOn 0 1 .clean) g, leaves 0 (.quiesce 0 5 .clean) q, ((aft (.quiesce 0 5 .clean) q).core 5).quiet, (aft (.quiesce 0 5 .clean) q).cmsgs == [],
   same 0 (.quiesce 0 6 .clean) q, ((aft (.resume 0 5 .clean) r).core 5).quiet == false, leaves 0 (.resume 0 5 .clean) r, same 0 (.resume 0 6 .clean) r,
   leaves 0 k (ack [] at5), (aft k (ack [] at5)).pwr.acks == [(99, 0)], (aft (.ack 0 99 0 .clean) (ack [] at5)).pwr.acks == [(5, 4)], same 0 (.ack 0 5 5 .clean) (ack [] at5),
   same 0 k (ack [pwrMsg 5 4 0] at5), gives 0 k (ack [pwrMsg 6 4 0] at5) { (ack [pwrMsg 6 4 0] at5).chan 0 with pwr := { ((ack [pwrMsg 6 4 0] at5).chan 0).pwr with acks := [(99, 0)] } },
   ecc (.gate 0 2 ·) g 127, ecc (.ungate 0 3 ·) u 127, ecc (.islandOff 0 1 ·) off 127, ecc (.islandOn 0 1 ·) rest 127, ecc (.quiesce 0 5 ·) q 5, ecc (.resume 0 5 ·) r 5, (q.chan 0).usable 5,
   (gone.chan 0).usable 5 == false, leaves 0 (.quiesce 0 5 .clean) gone, (aft (.quiesce 0 5 .clean) gone).fld Reg.CNET_CORR Fl.CNET_CORR_LOST == 1, (aft (.quiesce 0 5 .clean) gone).cmsgs == [],
   same 0 (.gate 0 2 .single) two, (aft (.gate 0 1 .clean) two).cmsgs == [pwrMsg 127 0 2],
   (aft (.ack 0 5 4 .single) (ack [] at5)).pwr.acks == [(99, 0)], (aft (.ack 0 5 4 .double) (ack [] at5)).pwr.acks == [(5, 4), (99, 0)],
   (aft (.ack 0 5 4 .double) (ack [] at5)).faultq.map (fun m => (m.code.toNat, m.node.val)) == [(fcCnetUncorr, 102)], same 0 (.ack 0 6 4 .double) (ack [] at5)]

noncomputable def wWakes : List Bool :=
  let st := Reg.PWR_STATUS
  let pin := Instr.wakePin 0
  let pe := one (fun c => (c.setFld Reg.PWR_WAKECFG Fl.PWR_WAKECFG_PINEN 1).setPst 3)
  let p0 := one (fun c => (c.setFld Reg.PWR_WAKECFG Fl.PWR_WAKECFG_PINEN 0).setPst 3)
  let un := one (fun c => { c with pwr := { c.pwr with armed := false } })
  let a := aft pin pe
  let up := (pe.chan 0).setFld st Fl.PWR_STATUS_PIN 1
  let de := Instr.wakePinDeassert 0
  let on := nxt pin un
  let c2 := one (fun c => c.setPst 2)
  let dw := Instr.demandWake 0 500
  let d := aft dw c2
  let auto := one (fun c => c.setFld Reg.PWR_CTRL Fl.PWR_CTRL_AUTOC1 1)
  let gw := one (fun c => (c.setFld Reg.PWR_CTRL Fl.PWR_CTRL_AUTOC1 1).setGated 2)
  let sp (f : Channel → Channel) := one (fun c => f { (full c).setGated 3 with pwr := { c.pwr with stop := true } })
  let rm := Instr.aonRailRemove 0
  let x := aft rm (sp id)
  let tells (i : Instr) (code arg : Nat) : Bool :=
    leaves 0 i State.reset && (newFault (State.reset.chan 0) (aft i State.reset)).map (fun m => (m.code.toNat, m.node.val, m.ctxv, m.arg0.toNat)) == some (code, 102, false, arg)
  [leaves 0 pin pe, a == Channel.wakeEvent { up with pwr := { up.pwr with armed := false } } 0 0, a.pwr.exit, leaves 0 pin p0, (aft pin p0).pwr.exit == false, (aft pin p0).pwr.armed == false,
   (aft pin p0).fld st Fl.PWR_STATUS_PIN == 1, leaves 0 pin un, on.chan 0 == (un.chan 0).setFld st Fl.PWR_STATUS_PIN 1, leaves 0 de on, (aft de on).pwr.armed, (aft de on).fld st Fl.PWR_STATUS_PIN == 0,
   leaves 0 dw c2, d.rd Reg.PWR_DEMAND == 1, d.fld Reg.PWR_DEMMAX Fl.PWR_DEMMAX_US == 500, d.pwr.exit, same 0 dw (one id), same 0 dw (one (fun c => c.setPst 4)),
   leaves 0 (.autoGate 0 true) auto, (aft (.autoGate 0 true) auto).cmsgs == [pwrMsg 127 0 2], (aft (.autoGate 0 false) auto).cmsgs == [pwrMsg 127 0 1], same 0 (.autoGate 0 true) (one (fun c => c.setFld Reg.PWR_CTRL Fl.PWR_CTRL_AUTOC1 0)),
   same 0 (.autoGate 0 true) gw, (aft (.autoGate 0 false) gw).cmsgs == [pwrMsg 127 0 1],
   leaves 128 rm (sp id), x.pst == 4, x.pwr.removed, x.cores == [], x.gated == 0, x.rd Reg.FLT_LOGLOST == 3, mget memDefault x.mem lpBase == 0, mget memDefault x.mem (sliceBase 0) == 0,
   same 128 rm (one id), same 128 rm (sp (fun c => c.setPst 4)), tells (.railFault 0 7) fcRailFault 7, tells (.pllUnlock 0 5) fcPllUnlock 5]

theorem witness_PowerMessagesAndWakes : wMessages.all id = true := by decide +kernel

theorem witness_PowerMessagesAndWakes_wakes : wWakes.all id = true := by decide +kernel

def wDvfs : List Bool :=
  let r := one hosted
  let row (v : Nat) : Instr := .pwrDvfs 0 .pf true (BitVec.ofNat 32 v)
  let both (d v : Nat) : Nat := d + v * 16 + 3 * 2 ^ 12
  let c := r.chan 0
  let d := aft (row (both 8 16)) r
  let e := aft (row (both 3 40)) r
  let no (v why : Nat) (f : Channel → Channel) : Bool :=
    let k := r.onChan 0 f
    leaves 128 (row v) k && refusedBy Reg.PWR_ORDERREF 0x22 0x11 why 1 1 (k.chan 0) (aft (row v) k) && (aft (row v) k).half 1 == (k.chan 0).half 1
  let tr (t : Dvfs) (div : Nat) : State := one (fun c => (c.setHf 1 Fl.PWR_HALF_DIV div).setHalf 1 { c.half 1 with tr := some t })
  let dd := Instr.dvfsDone 0 true
  let slow := tr ⟨some 8, some 16, 9⟩ 2
  let fast := tr ⟨some 2, some 50, 9⟩ 8
  let only := tr ⟨some 15, none, 9⟩ 4
  let x := aft dd slow
  let y := aft dd fast
  [lands r .pf (Reg.PWR_DVFS 1), c.dvfsCheck 1 8 16 true true == none, leaves 128 (row (both 8 16)) r, (d.half 1).tr == some ⟨some 8, some 16, 0x11⟩, (d.half 1).vselT == 16, d.hf 1 Fl.PWR_HALF_TGT == 8,
   d.hf 1 Fl.PWR_HALF_DIV == 2, d.half 0 == c.half 0, (e.half 1).tr == some ⟨some 3, some 40, 0x11⟩, (aft (row (3 + 2 ^ 12)) r).hf 1 Fl.PWR_HALF_TGT == 3, ((aft (row (55 * 16 + 2 ^ 13)) r).half 1).vselT == 55,
   no (both 2 49) 5 id, no (both 5 50) 6 id, no (both 8 15) 5 id, no (both 8 57) 6 id, no (both 2 50) 7 (fun c => c.setHf 1 Fl.PWR_HALF_CAP 4), no (both 2 50) 0 (fun c => c.setPst 2),
   no (both 2 50) 1 (fun c => c.setHalf 1 { c.half 1 with tr := some ⟨none, none, 0⟩ }), same 128 (row 0xFFF) r,
   leaves 0 dd slow, x.hf 1 Fl.PWR_HALF_DIV == 8, (x.half 1).tr == some ⟨none, some 16, 9⟩, x.hf 1 Fl.PWR_HALF_VSEL == 50, leaves 0 dd fast, y.hf 1 Fl.PWR_HALF_VSEL == 50, y.hf 1 Fl.PWR_HALF_DIV == 8,
   (y.half 1).tr == some ⟨some 2, none, 9⟩, leaves 0 dd only, (aft dd only).hf 1 Fl.PWR_HALF_DIV == 15, ((aft dd only).half 1).tr == none, same 0 dd r]

def wHeat : List Bool :=
  let r := one id
  let c := r.chan 0
  let t (w e : Nat) : Instr := .thermalSample 0 (BitVec.ofNat 12 w) (BitVec.ofNat 12 e)
  let a := aft (t 700 0xFFF) r
  let w := aft (t 760 0) r
  let h := aft (t 840 0) r
  let trip := aft (t 0 920) r
  let ro := Instr.railOvercurrent 0 true
  let o := aft ro r
  let al := nxt .inputAlarm r
  let ec := aft (.emergencyClear 0 true) (al.onChan 0 (fun c => c.setHalf 1 { c.half 1 with rail := true }))
  let cap (n : Nat) (temp : Int) (f : Channel → Channel) : State := one (fun c => f ((c.setHf 1 Fl.PWR_HALF_CAP n).setHalf 1 { c.half 1 with temp := temp }))
  let th (b : Bool) : Instr := .throttleStep 0 true b
  let up := aft (th true) (cap 4 840 id)
  let dn := aft (th false) (cap 8 799 id)
  let end1 := aft (th false) (cap 3 0 (fun c => c.setHf 1 Fl.PWR_HALF_TGT 4))
  [c.warnAt == 760, c.throtAt == 840, c.tripAt == 920, c.coolAt == 800, leaves 0 (t 700 0xFFF) r, (a.half 0).temp == 700, (a.half 1).temp == -1, a.hf 1 Fl.PWR_HALF_TEMP == 0xFFF,
   rdsBut [Reg.PWR_HALF 0, Reg.PWR_HALF 1] c a, leaves 0 (t 760 0) r, bit (w.rd Reg.HIF_EVPEND) 7, (w.half 0).hot == false, leaves 0 (t 840 0) r, h.hf 0 Fl.PWR_HALF_CAP == 4, (h.half 0).hot,
   h.hf 0 Fl.PWR_HALF_DIV == 4, h.fld Reg.PWR_STATUS Fl.PWR_STATUS_EMERG == 1, h.rd Reg.PWR_THROTTLES == 1, h.hf 1 Fl.PWR_HALF_CAP == 2,
   (newFault c trip).map (fun m => (m.code.toNat, m.arg0.toNat)) == some (fcThermalTrip, 1 + 920 * 16),
   leaves 0 ro r, o.hf 1 Fl.PWR_HALF_CAP == 4, (o.half 1).rail, o.hf 1 Fl.PWR_HALF_DIV == 4, o.rd Reg.PWR_EMERGS == 1, o.hf 0 Fl.PWR_HALF_CAP == 2, (r.onChan 0 (fun c => c.railOver 1)).onChan 0 (fun c => c.railOver 1) == r.onChan 0 (fun c => c.railOver 1),
   al.mod == r.mod, al.pins == r.pins, (al.chan 0).pwr.alarm, (al.chan 0).hf 0 Fl.PWR_HALF_CAP == 4, (al.chan 0).hf 1 Fl.PWR_HALF_CAP == 4, (al.chan 0).rd Reg.PWR_EMERGS == 1, (al.chan 3).pwr.alarm,
   ec.pwr.alarm == false, (ec.half 1).rail == false, ec.half 0 == (al.chan 0).half 0, ec.hf 1 Fl.PWR_HALF_CAP == 4,
   leaves 0 (th true) (cap 4 840 id), up.hf 1 Fl.PWR_HALF_CAP == 6, up.hf 1 Fl.PWR_HALF_DIV == 6, (aft (th true) (cap 8 840 id)).hf 1 Fl.PWR_HALF_CAP == 8, same 0 (th true) (cap 4 839 id),
   leaves 0 (th false) (cap 8 799 id), dn.hf 1 Fl.PWR_HALF_CAP == 6, (dn.half 1).tr.bind (·.div) == some 6, same 0 (th false) (cap 8 800 id), end1.hf 1 Fl.PWR_HALF_CAP == 2, (end1.half 1).tr.bind (·.div) == some 4,
   same 0 (th true) r, same 0 (th false) r]

theorem witness_FrequencyAndHeat : wDvfs.all id = true := by decide +kernel

theorem witness_FrequencyAndHeat_heat : wHeat.all id = true := by decide +kernel

/-! ### Faults -/

def msg (code node : Nat) (x : Option Nat) (a0 a1 : Nat) : FaultMsg := mkFault node code x a0 a1

noncomputable def wLog : List Bool :=
  let k (seq ack : Nat) (f : Channel → Channel) : Channel := f (({ (one id).chan 0 with ts := 2 ^ 32 * 7 + 9 }.wr Reg.FLT_LOGSEQ seq).wr Reg.FLT_LOGACK ack)
  let m := msg 0x10 99 (some 15) 5 (2 ^ 40 + 3)
  let w (d : Channel) (n j : Nat) : Nat := d.rd (Reg.FLT_LOG n j)
  let c := k 4097 1 id
  let d := c.logEntry m 3
  let e := (k 0 0 (fun c => { c.setRphase 1 with rinse := { c.rinse with first := ⟨0x123, 4, 0x10⟩ } })).logEntry m 0
  let th := (k 6 4 (fun c => c.setFld Reg.FLT_LOGCTRL Fl.FLT_LOGCTRL_THRESH 3)).logEntry m 0
  let wrap := (k 0xFFFF_FFFF 0xFFFF_FFF0 id).logEntry m 5
  let s (seq : Nat) : State := one (fun c => (hosted c).wr Reg.FLT_LOGSEQ seq)
  let row (v : Nat) : Instr := .logAckWrite 0 .pf (BitVec.ofNat 32 v)
  [c.unread == 4096, d.rd Reg.FLT_LOGSEQ == 4098, d.rd Reg.FLT_LOGACK == 2, d.rd Reg.FLT_LOGLOST == 1, w d 1 0 == 9, w d 1 1 == 7, w d 1 2 == 4097, w d 1 3 == 0x10 + 3 * 2 ^ 8 + 99 * 2 ^ 16 + 31 * 2 ^ 24,
   w d 1 4 == 5, w d 1 5 == 0, w d 1 6 == 3, w d 1 7 == 2 ^ 8, w e 0 3 == 0x10 + 8 * 2 ^ 8 + 99 * 2 ^ 16 + 31 * 2 ^ 24, w e 0 5 == 0x123 + 4 * 2 ^ 16, e.rd Reg.FLT_LOGACK == 0, e.rd Reg.FLT_LOGLOST == 0,
   bit (th.rd Reg.HIF_EVPEND) 10, bit (e.rd Reg.HIF_EVPEND) 10 == false, wrap.rd Reg.FLT_LOGSEQ == 0, w wrap 4095 2 == 0xFFFF_FFFF,
   lands (s 5) .pf Reg.FLT_LOGACK, (aft (row 5) (s 5)).rd Reg.FLT_LOGACK == 5, leaves 128 (row 5) (s 5), (aft (row (2 ^ 32 - 1)) (s 4095)).rd Reg.FLT_LOGACK == 2 ^ 32 - 1, same 128 (row (2 ^ 32 - 2)) (s 4095), same 128 (row 6) (s 5)]

theorem witness_TroubleLog : wLog.all id = true := by decide +kernel

noncomputable def wReports : List Bool :=
  let on (m : FaultMsg) (f : Channel → Channel) : State := one (fun c => f { full c with faultq := [m] })
  let row (m : FaultMsg) : Instr := .faultReport 0 m true .clean
  let ph (n : Nat) (c : Channel) : Channel := c.setRphase n
  let first (d : Channel) (m : FaultMsg) : Bool :=
    d.rd Reg.FLT_FIRST == 1 + m.code.toNat * 2 + m.node.val * 2 ^ 9 + m.ctx.val * 2 ^ 16 + b2n m.ctxv * 2 ^ 20
  let taken (s : State) : Channel := { s.chan 0 with faultq := [] }
  let a0 := msg 0x1F 99 (some 3) 7 9
  let a5 := msg 0x51 100 none 0 0
  let a1 := msg 1 0 (some 0) 0 0
  let a2 := msg 0x24 2 none 0 0
  let a3 := msg 0x10 0 (some 0) 0 0
  let a4 := msg 0x41 102 none 0 0
  let lost := msg fcBridgeLost 105 none 0 0
  let run := on a1 (ph 1)
  let wait := on a1 (ph 3)
  let idle := on a1 id
  let d := aft (row a1) idle
  let w := aft (row a1) wait
  let fen := on a2 (ph 2)
  let z := aft (row a2) fen
  let kept := on a1 (fun c => (ph 1 c).setFld Reg.FLT_FIRST Fl.FLT_FIRST_VALID 1)
  let st := on a4 (ph 2)
  let x := aft (row a4) st
  let k := aft (row lost) (on lost (ph 1))
  let two := one (fun c => { full c with faultq := [a1, msg 0x1F 0 none 0 0] })
  let b := aft (.faultReport 0 a0 true .double) (on a0 (ph 1))
  [same 0 (row (msg 0x1F 0 none 0 0)) two, leaves 0 (row a1) two, same 0 (.faultReport 0 a0 true .single) two,
   nxt (.faultReport 0 a1 true .single) run == nxt (row a1) (run.onChan 0 (fun c => c.addFld Reg.CNET_CORR Fl.CNET_CORR_CORR 1)), leaves 0 (.faultReport 0 a0 true .double) (on a0 (ph 1)),
   b.faultq == [], b.fld Reg.FLT_FIRST Fl.FLT_FIRST_CODE == fcCnetUncorr, b.fld Reg.FLT_FIRST Fl.FLT_FIRST_NODE == 100, b.rd (Reg.FLT_LOG 0 4) == 100,
   (let w := b.rd (Reg.FLT_LOG 0 6); bits w 0 8 == 0x1F && bits w 8 4 == 3 && bits w 12 1 == 1 && bits w 15 7 == 99),
   same 0 (row a1) (on a0 id), (taken (on a0 id)).faultAction a0 == 0, nxt (row a0) (on a0 id) == (on a0 id).setChan 0 (((taken (on a0 id)).logEntry a0 0).event 0),
   (taken (on a5 id)).faultAction a5 == 5, nxt (row a5) (on a5 id) == (on a5 id).setChan 0 ((taken (on a5 id)).logEntry a5 5),
   (run.chan 0).faultAction a1 == 1, leaves 0 (row a1) run, first (aft (row a1) run) a1, (aft (row a1) run).rphase == 1, rdsBut [Reg.FLT_FIRST] (((taken run).logEntry a1 1).event 0) (aft (row a1) run),
   (aft (row a1) kept).rd Reg.FLT_FIRST == 1, leaves 0 (row a1) wait, first w a1, w.fld Reg.FLT_STATUS Fl.FLT_STATUS_PENDING == 1, w.rphase == 3, w.rinse.cause == some 1,
   leaves 0 (row a1) idle, first d a1, d.rphase == 1, d.rd Reg.FLT_RINSES == 1, d.rd Reg.FLT_ORIG == 1, d.ctxState 0 == ctxRinse, d.ctxState 1 == ctxEmpty, d.faultq == [], mget memDefault d.mem lpBase == 5,
   (d.core 0).f == Stream.reset, bit (d.rd Reg.HIF_EVPEND) 1, (fen.chan 0).faultAction a2 == 2, (fen.chan 0).enabled 2, leaves 0 (row a2) fen, first z a2, z.fenced 2, z.rphase == 2, z.core 0 == (fen.chan 0).core 0,
   ((on a3 id).chan 0).faultAction a3 == 3, leaves 0 (row a3) (on a3 (ph 2)), first (aft (row a3) (on a3 (ph 2))) a3, (st.chan 0).faultAction a4 == 4, leaves 0 (row a4) st, first x a4, x.dark, x.pwr.stop,
   x.rinse == { (st.chan 0).rinse with alone := true }, x.mem == (st.chan 0).mem, (st.chan 0).faultAction lost == 4, k.dark, k.pwr.stop == false]

theorem witness_FaultReports : wReports.all id = true := by decide +kernel

/-- R456: an uncorrectable word of the parameter map itself puts each context with an entry in loss, with the code of the map's memory. -/
theorem test_map_read_uncorrectable :
    (let m := msg 0x10 0 (some 0) 0 0
     let s : State := one (fun c => { ((full c).setRphase 1).wr Reg.FLT_PMAPH 0x100 with faultq := [m] }.wr Reg.FLT_PMAPN 4)
     let d := aft (.faultReport 0 m true .clean [(lpBase, 8 + 2 ^ 300 + 2 ^ 500)]) s
     [d.rd Reg.FLT_LOSS, d.rd (Reg.FLT_LOG 1 3) % 2 ^ 8, d.rd (Reg.FLT_LOG 1 4), d.rd (Reg.FLT_LOG 1 7), d.rd Reg.FLT_LOGSEQ]) = [1, 0x17, 0x13, 0x100, 2] := by
  decide +kernel

/-- R463: a port that is lost while the rinse stops or agrees joins the channel's view. -/
theorem test_lost_port_joins_view :
    (let s : State := one (fun c => (c.setPstate 1 psActive).setRphase 1)
     let d := aft (.ylLost 0 1) s
     d.rinse.view.lost = [d.partner 1]) := by
  decide +kernel

noncomputable def wRinse : List Bool :=
  let r (n : Nat) (f : Channel → Channel) : State := one (fun c => f ((full c).setRphase n))
  let st := Reg.FLT_STATUS
  let stop := Instr.rinseStopDone 0
  let ae := Instr.agreeEnd 0
  let rd := Instr.restoreDone 0
  let back := r 2 id
  let com := r 2 (fun c => c.setFld (Reg.UPD_PRESS 0) Fl.UPD_PRESS_PHASE 2)
  let b := aft ae back
  let c := aft ae com
  let res := r 3 (fun c => (Channel.setCtxState { c with otp := { c.otp with sites := 1 } } 0 ctxRinse).setCore 0 { c.core 0 with pos := some 2, descCopy := some [] })
  let d := aft rd res
  let job (n k : Nat) (f : Channel → Channel) : State := r 2 (fun c => f
    { (c.setFld (Reg.UPD_PRESS 0) Fl.UPD_PRESS_MULTI 1).setFld (Reg.UPD_PRESS 0) Fl.UPD_PRESS_PHASE k with
        rinse := { c.rinse with view := { c.rinse.view with jobs := [(c.fld (Reg.TAT_JOB 0) Fl.TAT_JOB_JOB, c.press 0 + n)] } } })
  let far := job 2 2 id
  let moved (x : State) : Bool := (aft ae x).press 0 == (x.chan 0).press 0 + 1 && (aft ae x).phase 0 == phIdle
  let lossy (x : State) : Bool := bit ((aft ae x).fld Reg.FLT_LOSS Fl.FLT_LOSS_CTX) 0
  let alone := far.onChan 0 (fun c => { c with rinse := { c.rinse with alone := true } })
  let cut := (job 1 2 id).onChan 0 (fun c => { c with rinse := { c.rinse with view := { c.rinse.view with lost := [c.coord] } } })
  let pend := res.onChan 0 (fun c => c.setFld st Fl.FLT_STATUS_PENDING 1)
  let p := aft rd pend
  let seq := (res.chan 0).rd Reg.FLT_LOGSEQ
  [moved (job 1 2 id), lossy (job 1 2 id) == false, moved (job 0 2 id) == false, (aft ae (job 0 2 id)).phase 0 == phIdle, lossy (job 0 2 id) == false, moved (job 1 1 id) == false, lossy (job 1 1 id),
   moved far == false, lossy far, lossy alone == false, (aft ae cut).fld st Fl.FLT_STATUS_NLOST == 1, moved cut == false, lossy cut, leaves 0 ae far,
   leaves 0 rd pend, p.rphase == 1, p.rd Reg.FLT_RINSES == (pend.chan 0).rd Reg.FLT_RINSES + 1, p.fld st Fl.FLT_STATUS_PENDING == 0, p.ctxState 0 == ctxReady, bit (p.rd Reg.HIF_EVPEND) 2,
   d.rd Reg.FLT_LOGSEQ == seq + 1, bits (d.rd (Reg.FLT_LOG (seq % 4096) 3)) 0 8 == fcRinseEnd,
   leaves 0 stop (r 1 id), (aft stop (r 1 id)).rphase == 2, rdsBut [st] ((r 1 id).chan 0) (aft stop (r 1 id)), same 0 stop (r 2 id), leaves 0 ae back, b.rphase == 3, b.fld st Fl.FLT_STATUS_NLOST == 0,
   b.press 0 == (back.chan 0).press 0, (com.chan 0).phase 0 == phVoted, leaves 0 ae com, c.press 0 == ((com.chan 0).press 0 + 1) % 2 ^ 32, c.phase 0 == phIdle, same 0 ae (r 1 id),
   leaves 0 rd res, d.rphase == 0, d.ctxState 0 == ctxReady, (d.core 0).pos == none, (d.core 0).descCopy == none, bit (d.rd Reg.HIF_EVPEND) 2, d.mem == (res.chan 0).mem, same 0 rd (r 2 id)]

noncomputable def wDeadlock : List Bool :=
  let dl (f : Channel → Channel) : State := one (fun c => f ((full c).setFld Reg.SPAT_DLCFG Fl.SPAT_DLCFG_FATAL 1))
  let dk := Instr.deadlock 0 0
  let x := aft dk (dl id)
  let v := dl (fun c => c.wr Reg.SPAT_DLSTAT 0x35)
  let wt := dl (fStr (fun x => { x with wait := .tack (sword 0x40 1) }))
  [((dl id).chan 0).suspended 0 == false, leaves 0 dk (dl id), x.rd Reg.SPAT_DLFAULT == 1, x.fld Reg.SPAT_DLSTAT Fl.SPAT_DLSTAT_VALID == 1, x.fld Reg.SPAT_DLSTAT Fl.SPAT_DLSTAT_CTX == 0,
   x.rphase == 1, x.ctxState 0 == ctxRinse, same 0 dk (dl (fun c => c.setFld Reg.SPAT_DLCFG Fl.SPAT_DLCFG_FATAL 0)), same 0 dk (dl (fun c => c.setFld (Reg.UPD_PRESS 0) Fl.UPD_PRESS_PHASE 2)),
   same 0 (.deadlock 0 1) (dl id),
   (v.chan 0).fld Reg.SPAT_DLSTAT Fl.SPAT_DLSTAT_VALID == 1, leaves 0 dk v, (aft dk v).rd Reg.SPAT_DLSTAT == (v.chan 0).rd Reg.SPAT_DLSTAT, (aft dk v).rphase == 1,
   (wt.chan 0).firstWait 0 == some (0, 2, 0), (aft dk wt).fld Reg.SPAT_DLSTAT Fl.SPAT_DLSTAT_WAIT == 2, (aft dk wt).fld Reg.SPAT_DLSTAT Fl.SPAT_DLSTAT_SITE == 0]

def wFences : List Bool :=
  let s (f : Channel → Channel) : State := one (fun c => f (hosted (full c)))
  let row (i : Site) : Instr := .fence 0 .pf i
  let free := s (fun c => ((c.st (spadBase 99) false [7]).st (bobBase 99) false [8]).st (spadBase 8) false [9])
  let d := aft (row 99) free
  [lands free .pf (Reg.MESH_FENCE 3), (free.chan 0).enabled 99, (free.chan 0).loaded 99 == false, d.fenced 99, d.usable 99 == false, d.usable 98, d.core 0 == (free.chan 0).core 0,
   mget memDefault d.mem (spadBase 99) == 0, mget memDefault d.mem (bobBase 99) == 0, mget memDefault d.mem (spadBase 8) == 9, mget memDefault d.mem lpBase == 5,
   ((s id).chan 0).enabled 7 == false, same 128 (row 7) (s id), same 128 (row 99) (s (fun c => c.wr (Reg.MESH_FENCE 3) 8))]

def wFenceRinse : List Bool :=
  let s := one (fun c => hosted (full c))
  let row : Instr := .fence 0 .pf 0
  let free := one hosted
  let x := aft row s
  [(s.chan 0).loaded 0, leaves 128 row s, x.fenced 0, x.usable 0 == false, x.rphase == 1, x.ctxState 0 == ctxRinse, leaves 128 (.fence 0 .pf 99) free, (free.chan 0).loaded 99 == false]

theorem witness_RinsesAndFences : wRinse.all id = true := by decide +kernel

theorem witness_RinsesAndFences_fences : wFences.all id = true := by decide +kernel

theorem witness_RinsesAndFences_loaded : wFenceRinse.all id = true := by decide +kernel

theorem witness_RinsesAndFences_deadlock : wDeadlock.all id = true := by decide +kernel

/-! ### Register writes -/

noncomputable def wRegs : List Bool :=
  let s := one (fun c => (hosted c).setFld Reg.HIF_STATUS Fl.HIF_STATUS_WIN_UP 1)
  let c := s.chan 0
  let row (m : Master) (a v : Nat) : Instr := .registerWrite (some 0) m (BitVec.ofNat 48 a) (BitVec.ofNat 32 v) none
  let row64 (a v : Nat) : Instr := .registerWrite (some 0) .pf (BitVec.ofNat 48 a) (BitVec.ofNat 32 v) (some 6)
  let dw := Reg.CORE_DESC 0 0 1
  let plain (a : Nat) : Bool := lands s .pf a && gives 128 (row .pf a 0xFFFF_FFFF) s (c.plainWrite a 0xFFFF_FFFF)
  let off := Reg.CORE_TACK 7 0
  let fen := s.onChan 0 (fun c => c.wr (Reg.MESH_FENCE 3) 8)
  let t99 := Reg.CORE_TACK 99 63
  let md := { one hosted with pins := { (one hosted).pins with conv := true, prsnt := true, mrst := false, perst := false, d3 := false } }
  let mrow (m : Master) (a v : Nat) : Instr := .registerWrite none m (BitVec.ofNat 48 a) (BitVec.ofNat 32 v) none
  let flt := md.mwr Reg.MOD_STATUS 0xFF0
  let z := nxt (mrow .pf0 Reg.MOD_STATUS 0x500) flt
  let id1 := nxt (mrow .pf0 Reg.MOD_ID 0xFFFF_FFFF) md
  let w := Reg.NUM_WCTRL
  let wm (v : Nat) : Instr := .watchModeWrite 0 .pf (BitVec.ofNat 32 v)
  let on := s.onChan 0 (fun c => (c.setFld w Fl.NUM_WCTRL_MODE 2).setCore 0 { Core.reset with hist := [] })
  let hc := Reg.CORE_HALF_CFG 0 15
  let hv (v : Nat) : Instr := .halfValidate 0 .pf 0 15 (BitVec.ofNat 32 v)
  let sp := s.onChan 0 (fun c => c.wr (Reg.CORE_HALF_SPAN 0 15) 4)
  let h := aft (hv 0x80) sp
  let run := s.onChan 0 (fun c => { (busy c) with way := c.way })
  [lands s .pf dw, dw % 8 == 0, inCoreBlock dw, Sys2Proof.Machine.coreOff dw == 0x8008, c.usable 0, c.hostMayWrite 0, gives 128 (row64 dw 5) s ((c.plainWrite dw 5).plainWrite (dw + 4) 6),
   (aft (row64 dw 5) s).rd dw == 5, (aft (row64 dw 5) s).rd (dw + 4) == 6, same 128 (row64 (dw + 4) 5) s, same 128 (row64 Reg.HIF_APBASE 1) s, same 128 (row64 (Reg.CORE_TACK 0 0) 5) s,
   c.fencedWindow (dw + 4) == false, inMsix (dw + 4) == false, same 0 (.registerWrite none .pf0 (BitVec.ofNat 48 Reg.MOD_ARB) 5 (some 0)) md,
   plainRegs.all plain, lands s .pf off, inCoreBlock off, (regRow off).isSome, c.enabled 7 == false, same 128 (row .pf off 5) s, lands fen .pf t99, (fen.chan 0).fenced 99, (aft (row .pf t99 5) fen).rd Reg.MESH_FENCEDROP == 1,
   leaves 128 (row .pf t99 5) fen, same 128 (row .pf 0x6001 5) s, (regRow 0x0FFC).isNone, same 128 (row .pf 0x0FFC 5) s, same 128 (row .tseq Reg.FLT_CTRL 1) s, same 128 (row .pf0 Reg.FLT_CTRL 1) s,
   c.regRead .pf 0x0FFC == 0, c.regRead .pf (Reg.FLT_CTRL + 1) == 0,
   md.modUp, nxt (mrow .pf0 Reg.MOD_ARB 0x1_2345) md == { md with mod := (md.mwr Reg.MOD_ARB (setBits (md.mrd Reg.MOD_ARB) 0 16 0x2345)).mod }, z.mrd Reg.MOD_STATUS == 0xAF0, id1.mrd Reg.MOD_ID == md.mrd Reg.MOD_ID,
   same 0 (mrow .pf Reg.MOD_ARB 5) md, same 0 (mrow .pf0 (Reg.MOD_ARB + 1) 5) md, same 0 (mrow .pf0 Reg.MOD_ARB 5) (one id),
   lands s .pf w, gives 128 (wm 2) s (c.plainWrite w 2), (aft (wm 2) s).fld w Fl.NUM_WCTRL_MODE == 2, same 128 (wm 3) s, (aft (wm 0) on).fld w Fl.NUM_WCTRL_MODE == 0, same 128 (wm 1) on,
   lands sp .pf hc, (sp.chan 0).usable 0, (sp.chan 0).hostMayWrite 0, h.fld hc Fl.CORE_HALF_CFG_VALID == 1, leaves 128 (hv 0x80) sp, leaves 128 (hv 0x81) s, (aft (hv 0x81) s).fld hc Fl.CORE_HALF_CFG_VALID == 0,
   (run.chan 0).hostMayWrite 0 == false, same 128 (hv 0) run]

theorem witness_RegisterWrites : wRegs.all id = true := by decide +kernel

noncomputable def wSeeds : List Bool :=
  let s := one hosted
  let row (a v : Nat) : Instr := .registerWrite (some 0) .pf (BitVec.ofNat 48 a) (BitVec.ofNat 32 v) none
  let st (n : Nat) : State := s.onChan 0 (fun c => c.setCtxState 15 n)
  let l := Reg.NUM_SRSEEDL
  let h := Reg.NUM_SRSEEDH
  [lands s .pf l, lands s .pf h, (s.chan 0).rd l == 0, (s.chan 0).rd h == 0, (aft (row l 0x1234_5678) s).rd l == 0x1234_5678, leaves 128 (row l 5) s, (aft (row h 0xFFFF_FFFF) (st ctxReady)).rd h == 0xFFFF_FFFF,
   regsBut [h] ((st ctxReady).chan 0) (aft (row h 5) (st ctxReady)), same 128 (row l 5) (st ctxStep), same 128 (row h 5) (st ctxRinse)]

theorem witness_SeedRegisters : wSeeds.all id = true := by decide +kernel

/-- A step of a queue of two commands runs the first and leaves the second waiting. -/
theorem witness_StepRunsFrontCommand :
    (match step { one id with pending := [.channelHold 0, .prsntClose] } with
     | .next t => t.pending == [.prsntClose]
     | _ => false) = true := by decide +kernel

end Sys2Proof.Tests
end

section
/-! The resets of a channel and of PF0 (R28, R29, R31): what each leaves of its channel, of the MOD block and of the rest of the module. -/

namespace Sys2Proof.Machine

open Sys2Proof Sys2Proof.Says

/-! ### What the flash controller leaves alone -/

/-- From c to d only the register block of flash and the memory from `flashBase` on may differ, of all registers and memory. -/
structure FlashOnly (c d : Channel) : Prop where
  rd : ∀ a, a < 0x2800 ∨ 0x2900 ≤ a → d.rd a = c.rd a
  mem : ∀ a, a < flashBase → mget memDefault d.mem a = mget memDefault c.mem a

theorem FlashOnly.trans {c d e : Channel} (h : FlashOnly c d) (k : FlashOnly d e) : FlashOnly c e :=
  ⟨fun a ha => (k.rd a ha).trans (h.rd a ha), fun a ha => (k.mem a ha).trans (h.mem a ha)⟩

theorem flashOnly_of_eq {c d : Channel} (hr : d.regs = c.regs) (hm : d.mem = c.mem) : FlashOnly c d :=
  ⟨fun a _ => by simp only [Channel.rd, hr], fun a _ => by rw [hm]⟩

theorem flashOnly_foldl {α : Type} {f : Channel → α → Channel} (hf : ∀ c x, FlashOnly c (f c x)) (l : List α) (c : Channel) :
    FlashOnly c (l.foldl f c) := by
  induction l generalizing c with
  | nil => exact flashOnly_of_eq rfl rfl
  | cons x xs ih => exact (hf c x).trans (ih (f c x))

theorem flashOnly_wr (c : Channel) {a : Nat} (ha : 0x2800 ≤ a ∧ a < 0x2900) (v : Nat) : FlashOnly c (c.wr a v) :=
  ⟨fun b hb => c.rd_wr_other v (by omega), fun _ _ => rfl⟩

theorem flashOnly_poke (c : Channel) {a : Nat} (ha : flashBase ≤ a) (b : Byte) : FlashOnly c (c.poke a b) :=
  ⟨fun _ _ => rfl, fun k hk => c.mem_poke_other b (by omega)⟩

theorem flashOnly_putUnit (c : Channel) (u : Nat) (l : List Byte) : FlashOnly c (c.putUnit u l) := by
  have put (d : Channel) (e : Byte × Nat) : FlashOnly d (d.poke (flashUnit u + e.2) e.1) :=
    flashOnly_poke d (by simp only [flashUnit]; omega) e.1
  exact flashOnly_foldl put _ c

theorem flashOnly_setFmap (c : Channel) (g : Bool) (u v : Nat) : FlashOnly c (c.setFmap g u v) := by
  cases g <;> exact flashOnly_of_eq rfl rfl

theorem flashOnly_nandW (c : Channel) (n : Nat) : FlashOnly c (c.nandW n) :=
  (flashOnly_wr c (by decide) _).trans (flashOnly_wr _ (by decide) _)

theorem flashOnly_hostW (c : Channel) (n : Nat) : FlashOnly c (c.hostW n) :=
  (flashOnly_wr c (by decide) _).trans (flashOnly_wr _ (by decide) _)

theorem flashOnly_pageIn (c : Channel) (b : Nat) (off : Bool) : FlashOnly c (c.pageIn b off) := by
  have set : FlashOnly c (c.setBlk b { c.blk b with pages := (c.blk b).pages + 1, off := off }) := flashOnly_of_eq rfl rfl
  exact set.trans (flashOnly_nandW _ 1)

theorem flashOnly_unitDone (c : Channel) (b : BufUnit) (blk : Nat) : FlashOnly c (c.unitDone b blk) := by
  have mapped (v : Nat) := ((flashOnly_putUnit c b.unit (c.unitBytes b.unit b)).trans (flashOnly_setFmap _ false b.unit v)).trans
    (flashOnly_setFmap _ true b.unit v)
  simp only [Channel.unitDone]
  split
  · exact mapped 0
  · exact ((mapped (blk + 1)).trans (flashOnly_pageIn _ _ _)).trans (flashOnly_hostW _ 1)

theorem flashOnly_bufferLoss (c : Channel) (fr : Nat) : FlashOnly c (c.bufferLoss fr) := by
  simp only [Channel.bufferLoss, Channel.setFstat, Channel.setFld]
  have kept (d : Channel) (e : BufUnit × Nat) : FlashOnly d (d.unitDone e.1 (d.pickBlk e.1.off)) := flashOnly_unitDone d e.1 _
  have emptied (d : Channel) : FlashOnly d { d with flash := { d.flash with buf := [], waiting := [], cache := [] } } := flashOnly_of_eq rfl rfl
  exact ((flashOnly_foldl kept _ c).trans (emptied _)).trans (flashOnly_wr _ (by decide) _)

theorem flashOnly_flashDurable (c : Channel) (fr : Nat) : FlashOnly c (c.flashDurable fr) :=
  (flashOnly_bufferLoss c fr).trans (flashOnly_of_eq rfl rfl)

/-- The trouble log lies outside the register block of flash. -/
theorem logReg_outside_flash {a : Nat} (h : logReg a = true) : a < 0x2800 ∨ 0x2900 ≤ a := by
  simp only [logReg, Reg.FLT_LOGSEQ, Reg.FLT_LOGACK, Reg.FLT_LOGLOST, Bool.or_eq_true, Bool.and_eq_true, decide_eq_true_eq, beq_iff_eq] at h
  omega

/-! ### A channel that starts again -/

theorem Channel.rd_wipe (c : Channel) (fr : Nat) (kr km : Nat → Bool) {a : Nat} (ha : a ≠ Reg.PWR_STATUS) :
    (c.wipe fr kr km).rd a = if kr a || lifeReg a then (c.flashDurable fr).rd a else (regDefault a).toNat := by
  rw [Channel.wipe, Channel.rd_setFld_other _ _ _ ha]
  simp only [Channel.rd, mget_filter regDefault (fun a => kr a || lifeReg a)]
  split <;> rfl

/-- A channel that starts again without its PWR_STATUS is in power state C0. -/
theorem Channel.pst_wipe (c : Channel) (fr : Nat) (kr km : Nat → Bool) (hk : kr Reg.PWR_STATUS = false) : (c.wipe fr kr km).pst = 0 := by
  have hl : lifeReg Reg.PWR_STATUS = false := by decide
  simp only [Channel.pst, Channel.wipe]
  rw [Channel.fld_setFld_field _ _ _ _ _ (by decide) (by decide)]
  simp only [Channel.fld, Channel.rd, mget_filter regDefault (fun a => kr a || lifeReg a), hk, hl, Bool.or_self, Bool.false_eq_true, if_false]
  decide

theorem Channel.mem_wipe (c : Channel) (fr : Nat) (kr km : Nat → Bool) (a : Nat) :
    mget memDefault (c.wipe fr kr km).mem a = if km a then mget memDefault (c.flashDurable fr).mem a else 0 :=
  mget_filter memDefault km _ a

/-- A record whose programming is cut short changes OTP alone. -/
theorem Channel.otpTorn_frame (c : Channel) (fr : Nat) : c.otpTorn fr = { c with otp := (c.otpTorn fr).otp } := by
  simp only [Channel.otpTorn]
  split <;> rfl

/-- A register that a reset of its channel does not keep is as at reset; PWR_STATUS keeps its pin and is left out. -/
theorem Channel.rd_restart_lost (c : Channel) (fr : Nat) {a : Nat} (ha : a ≠ Reg.PWR_STATUS) (hl : (logReg a || pwrCounter a || lifeReg a) = false) :
    (c.restart fr).rd a = (regDefault a).toNat := by
  simp only [Channel.restart, Channel.rd_wipe _ _ _ _ ha, hl, Bool.false_eq_true, if_false]

theorem Channel.rd_restart_log (c : Channel) (fr : Nat) {a : Nat} (h : logReg a = true) : (c.restart fr).rd a = c.rd a := by
  have ha : a ≠ Reg.PWR_STATUS := by rintro rfl; exact absurd h (by decide)
  simp only [Channel.restart, Channel.rd_wipe _ _ _ _ ha, h, Bool.true_or, if_true]
  rw [(flashOnly_flashDurable _ fr).rd a (logReg_outside_flash h), c.otpTorn_frame fr]
  rfl

/-- The reset values of CTX_STATE: every context is EMPTY. -/
theorem ctxState_default : ∀ x : Fin 16, bits (regDefault (Reg.CTX_STATE x.val)).toNat 0 2 = ctxEmpty := by decide

theorem Channel.ctxState_restart (c : Channel) (fr : Nat) (x : Fin 16) : (c.restart fr).ctxState x.val = ctxEmpty := by
  have lost : ∀ x : Fin 16, Reg.CTX_STATE x.val ≠ Reg.PWR_STATUS ∧
      (logReg (Reg.CTX_STATE x.val) || pwrCounter (Reg.CTX_STATE x.val) || lifeReg (Reg.CTX_STATE x.val)) = false := by decide
  obtain ⟨ha, hl⟩ := lost x
  simp only [Channel.ctxState, Channel.fld, c.rd_restart_lost fr ha hl]
  exact ctxState_default x

theorem Channel.phase_restart (c : Channel) (fr : Nat) : (c.restart fr).dwg Fl.DWG_STATUS_PHASE = 0 := by
  simp only [Channel.dwg, Channel.fld, c.rd_restart_lost fr (a := Reg.DWG_STATUS) (by decide) (by decide)]
  decide

/-- Of memory a reset keeps LPDDR5X as it is. -/
theorem Channel.mem_restart (c : Channel) (fr : Nat) {a : Nat} (ha : a < flashBase) :
    mget memDefault (c.restart fr).mem a = if lpBase ≤ a then mget memDefault c.mem a else 0 := by
  simp only [Channel.restart, Channel.mem_wipe, decide_eq_true_eq, (flashOnly_flashDurable _ fr).mem a ha]
  rw [c.otpTorn_frame fr]

/-- A channel reset does what R29 says of it. -/
theorem wasReset_restart (c : Channel) (fr : Nat) : WasReset c (c.restart fr) := by
  refine ⟨?num, ?way, ?vecs, ?ts, ?bflash, rfl, rfl, rfl, rfl, rfl, rfl, rfl, rfl, rfl, c.phase_restart fr, Channel.pst_wipe _ _ _ _ (by decide),
    fun a ha => ?low, fun a hl ha => ?lp, c.ctxState_restart fr, fun a ha => c.rd_restart_log fr ha⟩
  case num => exact (congrArg Channel.num (c.otpTorn_frame fr) :)
  case way => exact (congrArg Channel.way (c.otpTorn_frame fr) :)
  case vecs => exact (congrArg Channel.vecs (c.otpTorn_frame fr) :)
  case ts => exact (congrArg Channel.ts (c.otpTorn_frame fr) :)
  case bflash => exact (congrArg Channel.bflash (c.otpTorn_frame fr) :)
  case low =>
    have hf : a < flashBase := Nat.lt_trans ha (by decide)
    rw [c.mem_restart fr hf, if_neg (by omega)]
  case lp => rw [c.mem_restart fr ha, if_pos hl]

/-- A channel with its link to the host replaced. -/
def Channel.withWay (c : Channel) (w : HostLink) : Channel := { c with way := w }

theorem way_of_wasReset {c d : Channel} (h : WasReset c d) : d.way = c.way := by
  obtain ⟨-, hway, -⟩ := h
  exact hway

theorem wasReset_withWay {c d : Channel} (h : WasReset c d) : WasReset c (d.withWay c.way) := by
  rw [← way_of_wasReset h]
  exact h

/-- A second reset, with the link to the host replaced in between, leaves what one leaves. -/
theorem wasReset_again {c d e : Channel} {w : HostLink} (h : WasReset c d) (k : WasReset (d.withWay w) e) : WasReset c (e.withWay c.way) := by
  obtain ⟨hnum, -, hvecs, hts, hbflash, -, -, -, -, -, -, -, -, -, -, -, -, hlp, -, hlog⟩ := h
  obtain ⟨knum, -, kvecs, kts, kbflash, cores, faultq, cmsgs, host, tat, yl, bkts, steps, dark, phase, pst, low, klp, ctx, klog⟩ := k
  exact ⟨knum.trans hnum, rfl, kvecs.trans hvecs, kts.trans hts, kbflash.trans hbflash, cores, faultq, cmsgs, host, tat, yl, bkts, steps, dark, phase, pst,
    low, fun a hl ha => (klp a hl ha).trans (hlp a hl ha), ctx, fun a ha => (klog a ha).trans (hlog a ha)⟩

/-! ### The bits of the MOD block -/

theorem State.mrd_lt (s : State) (a : Nat) : s.mrd a < 2 ^ 32 := BitVec.isLt _

theorem State.mrd_of_mod {s t : State} (h : t.mod = s.mod) (a : Nat) : t.mrd a = s.mrd a := by simp only [State.mrd, h]

/-- A bit that is written into a register of four channels reads back at its channel. -/
theorem bit_setBits_chan (x v : Nat) (ch : Chan) : bit (bits (setBits x ch.val 1 v) 0 4) ch.val = v.testBit 0 := by
  have hc : ch.val < 4 := ch.isLt
  simp [bit, bits_testBit, setBits_testBit, hc]

theorem setBits_chan_lt (s : State) (a v : Nat) (ch : Chan) : setBits (s.mrd a) ch.val 1 v < 2 ^ 32 := setBits_lt (s.mrd_lt a) (by omega)

theorem State.bit_hold_mwr (s : State) (ch : Chan) (v : Nat) :
    bit ((s.mwr Reg.MOD_CHRST (setBits (s.mrd Reg.MOD_CHRST) ch.val 1 v)).mfld Reg.MOD_CHRST Fl.MOD_CHRST_HOLD) ch.val = v.testBit 0 := by
  rw [State.mfld, State.mrd_mwr_same, Nat.mod_eq_of_lt (setBits_chan_lt s _ v ch)]
  exact bit_setBits_chan _ v ch

theorem State.bit_run_setModBit (s : State) (ch : Chan) (b : Bool) :
    bit ((s.setModBit Fl.MOD_STATUS_CH_RUN ch.val b).mfld Reg.MOD_STATUS Fl.MOD_STATUS_CH_RUN) ch.val = b := by
  have hlo : Fl.MOD_STATUS_CH_RUN.lo + ch.val = ch.val := Nat.zero_add _
  rw [State.mfld, State.setModBit, State.mrd_setModStatus, if_pos rfl, hlo, Nat.mod_eq_of_lt (setBits_chan_lt s _ _ ch)]
  exact (bit_setBits_chan _ _ ch).trans (by cases b <;> rfl)

theorem State.mrd_setModBit_other (s : State) (f : Fld) (n : Nat) (b : Bool) {a : Nat} (h : a ≠ Reg.MOD_STATUS) :
    (s.setModBit f n b).mrd a = s.mrd a := by rw [State.setModBit, State.mrd_setModStatus, if_neg h]

/-! ### What an operation on one channel leaves of the module -/

theorem State.eq_of_parts {s t : State} (hm : s.mod = t.mod) (hp : s.pins = t.pins) (ho : s.out = t.out) (hf : s.free = t.free)
    (hq : s.pending = t.pending) (hc : ∀ k, s.chan k = t.chan k) : s = t := by
  have h0 : s.ch0 = t.ch0 := hc 0
  have h1 : s.ch1 = t.ch1 := hc 1
  have h2 : s.ch2 = t.ch2 := hc 2
  have h3 : s.ch3 = t.ch3 := hc 3
  cases s
  cases t
  simp_all only

/-- The channels do not depend on the MOD block, on what has left the module and on the count of free values. -/
theorem State.chan_of_rest (s : State) (m : List (Nat × Word)) (o : List Out) (n : Nat) (k : Chan) :
    State.chan { s with mod := m, out := o, free := n } k = s.chan k := by match k with | 0 | 1 | 2 | 3 => rfl

/-- `ModAnd`, part by part. -/
theorem modAnd_iff {s t : State} {ch : Chan} {d : Channel} :
    ModAnd s t ch d ↔ t.pins = s.pins ∧ t.pending = s.pending ∧ t.chan ch = d ∧ ∀ k, k ≠ ch → t.chan k = s.chan k := by
  constructor
  · intro h
    have hchan (k : Chan) : t.chan k = (s.setChan ch d).chan k := by rw [h, State.chan_of_rest]
    refine ⟨?pins, ?pending, (hchan ch).trans (s.chan_setChan_same ch d), fun k hk => (hchan k).trans (s.chan_setChan_other d hk)⟩
    case pins => rw [h]; exact s.setChan_pins ch d
    case pending => rw [h]; exact s.setChan_pending ch d
  · rintro ⟨hpins, hpending, hsame, hother⟩
    refine State.eq_of_parts rfl (hpins.trans (s.setChan_pins ch d).symm) rfl rfl (hpending.trans (s.setChan_pending ch d).symm) fun k => ?_
    refine Eq.trans ?_ (State.chan_of_rest (s.setChan ch d) _ _ _ k).symm
    by_cases hk : k = ch
    · rw [hk, hsame, s.chan_setChan_same]
    · rw [hother k hk, s.chan_setChan_other d hk]

theorem modAnd_refl (s : State) (ch : Chan) : ModAnd s s ch (s.chan ch) := modAnd_iff.mpr ⟨rfl, rfl, rfl, fun _ _ => rfl⟩

section
variable {s t : State} {ch : Chan} {d : Channel}

theorem chan_of_modAnd (h : ModAnd s t ch d) : t.chan ch = d := by
  obtain ⟨-, -, hsame, -⟩ := modAnd_iff.mp h
  exact hsame

theorem pins_of_modAnd (h : ModAnd s t ch d) : t.pins = s.pins := by
  obtain ⟨hpins, -⟩ := modAnd_iff.mp h
  exact hpins

theorem modAnd_trans {u : State} {e : Channel} (h : ModAnd s t ch d) (k : ModAnd t u ch e) : ModAnd s u ch e := by
  obtain ⟨hpins, hpending, -, hother⟩ := modAnd_iff.mp h
  obtain ⟨kpins, kpending, ksame, kother⟩ := modAnd_iff.mp k
  exact modAnd_iff.mpr ⟨kpins.trans hpins, kpending.trans hpending, ksame, fun j hj => (kother j hj).trans (hother j hj)⟩

/-- What leaves channel ch as it is keeps `ModAnd`. -/
theorem modAnd_mwr (h : ModAnd s t ch d) (a v : Nat) : ModAnd s (t.mwr a v) ch d := by
  have write : ModAnd t (t.mwr a v) ch (t.chan ch) := modAnd_iff.mpr ⟨rfl, rfl, t.chan_mwr a v ch, fun k _ => t.chan_mwr a v k⟩
  exact modAnd_trans h (chan_of_modAnd h ▸ write)

theorem modAnd_setModBit (h : ModAnd s t ch d) (f : Fld) (n : Nat) (b : Bool) : ModAnd s (t.setModBit f n b) ch d := by
  have set : ModAnd t (t.setModBit f n b) ch (t.chan ch) := by
    rw [modAnd_iff, State.setModBit, State.setModStatus_frame]
    exact ⟨rfl, rfl, t.chan_of_rest _ _ t.free ch, fun k _ => t.chan_of_rest _ _ t.free k⟩
  exact modAnd_trans h (chan_of_modAnd h ▸ set)

theorem modAnd_onChan (h : ModAnd s t ch d) (f : Channel → Channel) : ModAnd s (t.onChan ch f) ch (f d) := by
  have act : ModAnd t (t.onChan ch f) ch (f (t.chan ch)) :=
    modAnd_iff.mpr ⟨t.onChan_pins ch f, t.onChan_pending ch f, t.chan_onChan_same ch f, fun _ hk => t.chan_onChan_other f hk⟩
  exact modAnd_trans h (chan_of_modAnd h ▸ act)

theorem modAnd_onFree (h : ModAnd s t ch d) (f : Nat → Channel → Channel) : ModAnd s (t.onFree ch f) ch (f t.free d) := by
  have act := modAnd_onChan h (f t.free)
  refine modAnd_trans act (modAnd_iff.mpr ⟨rfl, rfl, ?same, fun k _ => State.chan_free _ _ k⟩)
  exact (State.chan_free _ _ ch).trans (chan_of_modAnd act)

end

/-! ### Resets, holds and releases -/

theorem modAnd_chanReset {s t : State} {ch : Chan} {d : Channel} (h : ModAnd s t ch d) : ModAnd s (t.chanReset ch) ch (d.restart t.free) :=
  modAnd_setModBit (modAnd_onFree h fun fr c => c.restart fr) _ _ _

theorem State.bit_run_chanReset (s : State) (ch : Chan) : bit ((s.chanReset ch).mfld Reg.MOD_STATUS Fl.MOD_STATUS_CH_RUN) ch.val = false :=
  State.bit_run_setModBit _ ch false

theorem State.mrd_chanReset_other (s : State) (ch : Chan) {a : Nat} (h : a ≠ Reg.MOD_STATUS) : (s.chanReset ch).mrd a = s.mrd a :=
  (State.mrd_setModBit_other _ _ _ _ h).trans (State.mrd_of_mod (s.setChan_mod ch _) a)

theorem State.mrd_onChan (s : State) (ch : Chan) (f : Channel → Channel) (a : Nat) : (s.onChan ch f).mrd a = s.mrd a :=
  State.mrd_of_mod (s.onChan_mod ch f) a

theorem State.mfld_congr {s t : State} {a : Nat} (h : t.mrd a = s.mrd a) (f : Fld) : t.mfld a f = s.mfld a f := by simp only [State.mfld, h]

/-- Whether channel ch is held by MOD_CHRST. -/
def State.holds (s : State) (ch : Chan) : Bool := bit (s.mfld Reg.MOD_CHRST Fl.MOD_CHRST_HOLD) ch.val

theorem State.holdOn_of_held {s : State} {ch : Chan} (h : s.holds ch = true) : s.holdOn ch = s := if_pos h

theorem State.holdOff_of_free {s : State} {ch : Chan} (h : s.holds ch = false) : s.holdOff ch = s := if_pos (by rw [← State.holds, h]; rfl)

theorem State.holdOn_of_free {s : State} {ch : Chan} (h : s.holds ch = false) :
    s.holdOn ch = ((s.mwr Reg.MOD_CHRST (setBits (s.mrd Reg.MOD_CHRST) ch.val 1 1)).chanReset ch).setHeld ch true :=
  if_neg (by rw [← State.holds, h]; decide)

theorem State.holdOff_of_held {s : State} {ch : Chan} (h : s.holds ch = true) :
    s.holdOff ch = (s.mwr Reg.MOD_CHRST (setBits (s.mrd Reg.MOD_CHRST) ch.val 1 0)).setHeld ch s.pins.mrst :=
  if_neg (by rw [← State.holds, h]; decide)

/-- HOLD goes from 0 to 1: the channel is reset and held, and does not run (R28, R31). -/
theorem State.holdOn_spec {s : State} {ch : Chan} (h : s.holds ch = false) :
    (∃ d, ModAnd s (s.holdOn ch) ch (d.withWay { (s.chan ch).way with held := true }) ∧ WasReset (s.chan ch) d) ∧
      (s.holdOn ch).holds ch = true ∧ bit ((s.holdOn ch).mfld Reg.MOD_STATUS Fl.MOD_STATUS_CH_RUN) ch.val = false := by
  rw [State.holdOn_of_free h]
  set m := s.mwr Reg.MOD_CHRST (setBits (s.mrd Reg.MOD_CHRST) ch.val 1 1)
  have reset : WasReset (s.chan ch) ((s.chan ch).restart m.free) := wasReset_restart _ _
  have held := modAnd_onChan (modAnd_chanReset (modAnd_mwr (modAnd_refl s ch) Reg.MOD_CHRST (setBits (s.mrd Reg.MOD_CHRST) ch.val 1 1)))
    fun c => c.withWay { c.way with held := true }
  rw [way_of_wasReset reset] at held
  refine ⟨⟨_, held, reset⟩, ?hold, ?run⟩
  case hold =>
    have hm : ((m.chanReset ch).setHeld ch true).mrd Reg.MOD_CHRST = m.mrd Reg.MOD_CHRST :=
      (State.mrd_onChan _ ch _ _).trans (m.mrd_chanReset_other ch (by decide))
    rw [State.holds, State.mfld_congr hm]
    exact s.bit_hold_mwr ch 1
  case run =>
    rw [State.setHeld, State.mfld_congr (State.mrd_onChan _ ch _ _)]
    exact m.bit_run_chanReset ch

/-- HOLD goes from 1 to 0: the channel may boot, unless MRST_N holds it (R28, R501). -/
theorem State.holdOff_spec {s : State} {ch : Chan} (h : s.holds ch = true) :
    ModAnd s (s.holdOff ch) ch ((s.chan ch).withWay { (s.chan ch).way with held := s.pins.mrst }) ∧ (s.holdOff ch).out = s.out ∧
      (s.holdOff ch).free = s.free ∧ (s.holdOff ch).holds ch = false ∧ ∀ a, a ≠ Reg.MOD_CHRST → (s.holdOff ch).mrd a = s.mrd a := by
  rw [State.holdOff_of_held h]
  refine ⟨modAnd_onChan (modAnd_mwr (modAnd_refl s ch) _ _) _, State.onChan_out _ _ _, State.onChan_free _ _ _, ?hold,
    fun a ha => (State.mrd_onChan _ ch _ a).trans (s.mrd_mwr_other _ ha)⟩
  rw [State.holds, State.setHeld, State.mfld_congr (State.mrd_onChan _ ch _ _)]
  exact s.bit_hold_mwr ch 0

/-- HOLD set and then a reset: whatever HOLD was, the channel is as a reset leaves it but for `held` (R28). -/
theorem State.holdOn_chanReset_spec (s : State) (ch : Chan) :
    ∃ e b, ModAnd s ((s.holdOn ch).chanReset ch) ch e ∧ WasReset (s.chan ch) (e.withWay (s.chan ch).way) ∧
      e.way = { (s.chan ch).way with held := b } ∧ ((s.holdOn ch).chanReset ch).holds ch = true := by
  have kept : ((s.holdOn ch).chanReset ch).holds ch = (s.holdOn ch).holds ch := by
    rw [State.holds, State.mfld_congr (State.mrd_chanReset_other _ ch (by decide)), ← State.holds]
  cases h : s.holds ch with
  | true =>
    rw [State.holdOn_of_held h] at kept ⊢
    have reset := wasReset_restart (s.chan ch) s.free
    exact ⟨_, (s.chan ch).way.held, modAnd_chanReset (modAnd_refl s ch), wasReset_withWay reset, way_of_wasReset reset, kept.trans h⟩
  | false =>
    obtain ⟨⟨d, held, first⟩, hold, -⟩ := State.holdOn_spec h
    have second := wasReset_restart (d.withWay { (s.chan ch).way with held := true }) (s.holdOn ch).free
    exact ⟨_, true, modAnd_chanReset held, wasReset_again first second, way_of_wasReset second, kept.trans hold⟩

theorem exec_functionLevelReset_chan (ch : Chan) (s : State) :
    exec (.functionLevelReset ⟨ch.val + 1, by omega⟩) s =
      .next ((((s.holdOn ch).chanReset ch).holdOff ch).onChan ch fun c => { c with way := { c.way with d3 := false }, vecs := .reset }) := by
  have index : (⟨ch.val + 1, by omega⟩ : Fin 5) ≠ 0 := Fin.ne_of_val_ne (Nat.succ_ne_zero _)
  have chan : Fin.ofNat 4 (ch.val + 1 - 1) = ch := Fin.ext (Nat.mod_eq_of_lt ch.isLt)
  simp only [exec, execFunctionLevelReset, if_neg index, chan]

/-- A function-level reset of channel ch's function (R28). -/
theorem functionLevelReset_chan_spec (ch : Chan) (s : State) (h : s.pins.mrst = false) :
    ∃ t d, exec (.functionLevelReset ⟨ch.val + 1, by omega⟩) s = .next t ∧
      ModAnd s t ch { d with way := { (s.chan ch).way with held := false, d3 := false }, vecs := VecSt.reset } ∧ WasReset (s.chan ch) d ∧
      t.holds ch = false ∧ bit (t.mfld Reg.MOD_STATUS Fl.MOD_STATUS_CH_RUN) ch.val = false := by
  obtain ⟨e, b, frame, reset, hway, hold⟩ := s.holdOn_chanReset_spec ch
  have stopped := (s.holdOn ch).bit_run_chanReset ch
  set u := (s.holdOn ch).chanReset ch
  obtain ⟨off, -, -, free, same⟩ := State.holdOff_spec hold
  rw [chan_of_modAnd frame, pins_of_modAnd frame, h, hway] at off
  refine ⟨_, e.withWay (s.chan ch).way, exec_functionLevelReset_chan ch s, modAnd_onChan (modAnd_trans frame off) _, reset, ?hold, ?run⟩
  case hold => rw [State.holds, State.mfld_congr (State.mrd_onChan _ ch _ _)]; exact free
  case run =>
    rw [State.mfld_congr ((State.mrd_onChan _ ch _ _).trans (same _ (by decide)))]
    exact stopped

/-! ### Function-level reset of PF0 -/

/-- Whether `modFlr` leaves the register at a. -/
def modFlrKeeps (a : Nat) : Bool := a != Reg.MOD_ARB && !(decide (Reg.MOD_DROP 0 ≤ a) && decide (a ≤ Reg.MOD_DROP 3))

theorem State.mrd_modFlr (s : State) (a : Nat) : s.modFlr.mrd a = if modFlrKeeps a then s.mrd a else (modDefault a).toNat := by
  have kept : mget modDefault s.modFlr.mod a = if modFlrKeeps a then mget modDefault s.mod a else modDefault a :=
    mget_filter modDefault modFlrKeeps s.mod a
  rw [State.mrd, kept]
  exact apply_ite BitVec.toNat _ _ _

/-- A function-level reset of PF0 (R31). -/
theorem functionLevelReset_pf0_spec (s : State) :
    ∃ t, exec (.functionLevelReset 0) s = .next t ∧ t = { s with mod := t.mod, pins := { s.pins with d3 := false } } ∧
      t.mrd Reg.MOD_ARB = (modDefault Reg.MOD_ARB).toNat ∧ (∀ k, k < 4 → t.mrd (Reg.MOD_DROP k) = 0) ∧
      ∀ a, a ≠ Reg.MOD_ARB → (∀ k, k < 4 → a ≠ Reg.MOD_DROP k) → (a < Reg.MOD_DROP 0 ∨ Reg.MOD_DROP 3 < a) → t.mrd a = s.mrd a := by
  refine ⟨_, rfl, rfl, State.mrd_modFlr _ _, fun k hk => ?drop, fun a harb _ hout => ?other⟩
  case drop =>
    have cleared : ∀ k < 4, modFlrKeeps (Reg.MOD_DROP k) = false ∧ (modDefault (Reg.MOD_DROP k)).toNat = 0 := by decide
    obtain ⟨lost, zero⟩ := cleared k hk
    exact (State.mrd_modFlr _ _).trans (by rw [lost, zero]; rfl)
  case other =>
    have keeps : modFlrKeeps a = true := by
      simp only [modFlrKeeps, Bool.and_eq_true, bne_iff_ne, Bool.not_eq_true', Bool.and_eq_false_iff, decide_eq_false_iff_not]
      exact ⟨harb, by omega⟩
    exact (State.mrd_modFlr _ _).trans (if_pos keeps)

/-- Settles O50: each row by the lemma that says what it leaves; a function-level reset sets HOLD, resets and clears HOLD again. -/
theorem channelResets : Obligations.ChannelResets := by
  intro ch s
  have hold_up (up : s.modUp = true) : exec (.channelHold ch) s = .next (s.holdOn ch) := congrArg Host.Outcome.next (if_pos up)
  have release_up (up : s.modUp = true) : exec (.channelRelease ch) s = .next (s.holdOff ch) := congrArg Host.Outcome.next (if_pos up)
  refine ⟨?hold, ?held, ?release, ?released, ?down, functionLevelReset_chan_spec ch s, functionLevelReset_pf0_spec s⟩
  case hold =>
    intro up free
    obtain ⟨⟨d, frame, reset⟩, bits⟩ := State.holdOn_spec free
    exact ⟨_, d, hold_up up, frame, reset, bits⟩
  case held =>
    intro up held
    rw [hold_up up, State.holdOn_of_held held]
  case release =>
    intro up held
    exact ⟨_, release_up up, State.holdOff_spec held⟩
  case released =>
    intro up free
    rw [release_up up, State.holdOff_of_free free]
  case down =>
    intro down
    have closed : ¬ s.modUp = true := by rw [down]; decide
    exact ⟨congrArg Host.Outcome.next (if_neg closed), congrArg Host.Outcome.next (if_neg closed)⟩

end Sys2Proof.Machine
end

section
/-! Flits and the swap of the routing tables (R47 to R51): what a router, an injecting sub-port and each row of the swap do, case by case. -/

namespace Sys2Proof.Machine

open Sys2Proof Sys2Proof.Says

/-! ### Fields that a counter or a write leaves as they are -/

/-- A field written with its own value is unchanged. -/
theorem setBits_bits_self (x lo w : Nat) : setBits x lo w (bits x lo w) = x := by
  refine Nat.eq_of_testBit_eq fun i => ?_
  rw [setBits_testBit]
  split
  · rfl
  · split
    · rw [bits_testBit, Nat.sub_add_cancel (by omega)]
      simp only [show i - lo < w by omega, decide_true, Bool.true_and]
    · rfl

theorem bits_mod_two_pow {lo w n : Nat} (x : Nat) (h : lo + w ≤ n) : bits (x % 2 ^ n) lo w = bits x lo w := by
  refine Nat.eq_of_testBit_eq fun i => ?_
  rw [bits_testBit, bits_testBit, Nat.testBit_mod_two_pow]
  by_cases hi : i < w
  · simp only [show i + lo < n by omega, decide_true, Bool.true_and]
  · simp only [hi, decide_false, Bool.false_and]


theorem Channel.rd_addFld_other (c : Channel) {a b : Nat} (g : Fld) (n : Nat) (h : b ≠ a) : (c.addFld a g n).rd b = c.rd b :=
  c.rd_setFld_other g _ h

/-- A counter field that counts nothing keeps its register. -/
theorem Channel.rd_addFld_zero (c : Channel) (a : Nat) {g : Fld} (h : g.lo + g.w ≤ 32) : (c.addFld a g 0).rd a = c.rd a := by
  have held : satAdd g.w (c.fld a g) 0 = c.fld a g := by
    have := bits_lt (c.rd a) g.lo g.w
    simp only [satAdd, Channel.fld]
    omega
  rw [Channel.addFld, held, Channel.rd_setFld_same _ _ _ _ h]
  exact setBits_bits_self _ _ _

theorem Channel.fld_addFld_same (c : Channel) (a : Nat) {g : Fld} (n : Nat) (h : g.lo + g.w ≤ 32) :
    (c.addFld a g n).fld a g = min (c.fld a g + n) (2 ^ g.w - 1) := by
  rw [Channel.addFld, Channel.fld_setFld_same _ _ _ _ h]
  exact Nat.mod_eq_of_lt (satAdd_lt _ _ _)

/-- Whether writes by the access codes leave a field f of a row alone: each writable field of the row lies apart from it. -/
abbrev RegRow.shuts (r : RegRow) (f : Fld) : Prop :=
  ∀ g ∈ r.fields, g.acc = .ro ∨ g.acc = .wo ∨ f.lo + f.w ≤ g.lo ∨ g.lo + g.w ≤ f.lo

theorem bits_fieldWrite_shut (x v : Nat) {f : Fld} {g : RField} (h : g.acc = .ro ∨ g.acc = .wo ∨ f.lo + f.w ≤ g.lo ∨ g.lo + g.w ≤ f.lo) :
    bits (fieldWrite x v g) f.lo f.w = bits x f.lo f.w := by
  rcases h with ro | wo | apart
  · rw [fieldWrite, ro]
  · rw [fieldWrite, wo]
  · cases acc : g.acc <;> simp only [fieldWrite, acc, bits_setBits_other _ _ _ _ _ _ apart]

theorem bits_rowWrite_shut {r : RegRow} {f : Fld} (h : RegRow.shuts r f) (x v : Nat) : bits (rowWrite r x v) f.lo f.w = bits x f.lo f.w := by
  have fold : ∀ (l : List RField) (y : Nat), l ⊆ r.fields → bits (l.foldl (fun x g => fieldWrite x v g) y) f.lo f.w = bits y f.lo f.w := by
    intro l
    induction l with
    | nil => intro y _; rfl
    | cons g t ih =>
      intro y hl
      exact (ih _ (List.subset_of_cons_subset hl)).trans (bits_fieldWrite_shut y v (h g (hl List.mem_cons_self)))
  exact fold r.fields x (List.Subset.refl _)

theorem Channel.fld_plainWrite_shut (c : Channel) {a : Nat} {r : RegRow} {f : Fld} (row : regRow a = some r) (h : RegRow.shuts r f)
    (hf : f.lo + f.w ≤ 32) (v : Nat) : (c.plainWrite a v).fld a f = c.fld a f := by
  simp only [Channel.plainWrite, row, Channel.fld, Channel.rd_wr_same]
  rw [bits_mod_two_pow _ hf, bits_rowWrite_shut h]

theorem Channel.plainWrite_frame (c : Channel) (a v : Nat) : c.plainWrite a v = { c with regs := (c.plainWrite a v).regs } := by
  simp only [Channel.plainWrite]
  split <;> rfl

theorem Channel.rd_plainWrite_other (c : Channel) {a b : Nat} (v : Nat) (h : b ≠ a) : (c.plainWrite a v).rd b = c.rd b := by
  simp only [Channel.plainWrite]
  split
  · exact c.rd_wr_other _ h
  · rfl

theorem leaves_congr {i : Instr} {s : State} {ch : Chan} {x y : Channel} (h : Leaves i s ch x) (e : x = y) : Leaves i s ch y := e ▸ h

theorem leavesF_congr {n : Nat} {i : Instr} {s : State} {ch : Chan} {x y : Channel} (h : LeavesF n i s ch x) (e : x = y) : LeavesF n i s ch y := e ▸ h

/-- A register write that lands is a write at its block. -/
theorem State.regTo_of_lands {s : State} {ch : Chan} {m : Master} {a : Nat} (h : Lands s ch m a) (hx : inMsix a = false) (v : Nat) :
    s.regTo ch m a v = { s.setChan ch ((s.chan ch).regWrite s.free m a v) with free := s.free + 128 } := by
  obtain ⟨master, way, on, awake, served, -⟩ := h
  rw [State.regTo_lands master way]
  simp [Channel.regAccess, on, hx, awake, served, Channel.regWriteAs]

/-! ### Routes of a flit with one destination (R44, R47) -/

theorem Channel.meshPlan_one (c : Channel) (g : Bool) (r d : Nat) :
    c.meshPlan g r [d] = [(mportOf (c.meshEntry g r d), [d])] := by
  rcases h : mportOf (c.meshEntry g r d) with _ | p
  · simp [Channel.meshPlan, h]
  · cases p <;> simp [Channel.meshPlan, h]

theorem mportOf_le {e : Nat} {p : MPort} (h : mportOf e = some p) : e ≤ 4 := by
  by_contra far
  match e, far with
  | n + 5, _ => cases h

theorem flitDests_one {f : Flit} (h : f.kind.val < 4) : flitDests f = [f.dst.val] := if_neg (by omega)

theorem flitPart_one {f : Flit} (h : f.kind.val < 4) (ds : List Nat) : flitPart f ds = f := by
  rw [flitPart, if_neg (by omega), if_neg (by omega)]

/-- Flits enter the mesh, the youngest of their inputs. -/
def Channel.addFlits (c : Channel) (l : List FlitAt) : Channel := { c with mesh := { c.mesh with flits := c.mesh.flits ++ l } }

section
variable {c : Channel} {f : Flit} {fr r n : Nat} {inp p q : MPort}

/-- Onto a port that has credit. -/
theorem Channel.meshRoute_onto (kind : f.kind.val < 4) (port : mportOf (c.meshEntry f.gen r f.dst.val) = some p)
    (link : meshNext r p = some (n, q)) (room : (c.meshHeld n q f.vc).length < meshRoom n q) :
    c.meshRoute fr r inp f = some (c.addFlits [⟨n, q, f⟩]) := by
  simp [Channel.addFlits, Channel.meshRoute, flitDests_one kind, Channel.meshPlan_one, port, Channel.meshFree, link, room, Channel.meshDrive, flitPart_one kind]

theorem Channel.meshRoute_noCredit (kind : f.kind.val < 4) (port : mportOf (c.meshEntry f.gen r f.dst.val) = some p)
    (link : meshNext r p = some (n, q)) (full : meshRoom n q ≤ (c.meshHeld n q f.vc).length) : c.meshRoute fr r inp f = none := by
  simp [Channel.meshRoute, flitDests_one kind, Channel.meshPlan_one, port, Channel.meshFree, link, full]

theorem Channel.meshRoute_unreach (kind : f.kind.val < 4) (port : mportOf (c.meshEntry f.gen r f.dst.val) = none) :
    c.meshRoute fr r inp f = some (c.meshFault fr fcMeshUnreach r inp f) := by
  simp [Channel.meshRoute, flitDests_one kind, Channel.meshPlan_one, port]

/-- A router's fault: its message alone is added. -/
theorem Channel.meshFault_spec (c : Channel) (fr code : Nat) (r : Site) (inp : MPort) (f : Flit) (h : code < 256) :
    ∃ m, (c.meshFault fr code r.val inp f).faultq = c.faultq ++ [m] ∧ m.code.toNat = code ∧ m.node.val = r.val := by
  refine ⟨_, rfl, Nat.mod_eq_of_lt h, Nat.mod_eq_of_lt ?_⟩
  have := r.isLt
  omega

end

/-! ### A router's input (R47) -/

/-- The flit has left its input, and no correction is counted. -/
def Channel.captured (c : Channel) (r : Nat) (inp : MPort) (f : Flit) : Channel :=
  (c.dropFlit ⟨r, inp, f⟩).addFld Reg.MESH_CORR Fl.MESH_CORR_CORR 0

section
variable {c : Channel} {f : Flit} {fr r : Nat} {inp : MPort} (oldest : (c.meshHeld r inp f.vc).head? = some ⟨r, inp, f⟩)
include oldest

theorem Channel.meshCapture_routed (dst : f.dst.val ≤ 99) (kind : f.kind.val ≤ 5) :
    c.meshCapture fr r inp f .clean none = ((c.captured r inp f).meshRoute fr r inp f).getD c := by
  have ok : ¬ (99 < f.dst.val ∨ 5 < f.kind.val) := by omega
  simp [Channel.meshCapture, oldest, meshCheck, ok, b2n, Channel.captured]

theorem Channel.meshCapture_malformed (bad : 99 < f.dst.val ∨ 5 < f.kind.val) :
    c.meshCapture fr r inp f .clean none = (c.captured r inp f).addFld Reg.MESH_CORR Fl.MESH_CORR_BAD 1 := by
  simp [Channel.meshCapture, oldest, meshCheck, bad, b2n, Channel.captured]

theorem Channel.meshCapture_double : c.meshCapture fr r inp f .double none = (c.captured r inp f).meshFault fr fcMeshUncorr r inp f := by
  simp [Channel.meshCapture, oldest, meshCheck, b2n, Channel.captured]

end

/-- From its input as the flit leaves it no register changes its value. -/
theorem Channel.rd_captured (c : Channel) (r : Nat) (inp : MPort) (f : Flit) (a : Nat) : (c.captured r inp f).rd a = c.rd a := by
  by_cases h : a = Reg.MESH_CORR
  · exact h ▸ Channel.rd_addFld_zero _ _ (by decide)
  · exact Channel.rd_addFld_other _ _ _ h

/-! ### A sub-port that injects (R48, R50, R51) -/

/-- The flit with the virtual channel of its kind. -/
def onKindVc (f : Flit) : Flit := { f with vc := kindVc f }

/-- The flit as it leaves its sub-port under generation g. -/
def injected (g : Bool) (f : Flit) : Flit := { f with vc := kindVc f, gen := g }

section
variable {c : Channel} {f : Flit} {fr r : Nat}

theorem Channel.meshInject_silent (port : f.srcsub.val = 0) (request : kindVc f = false) (out : c.usable r = false) :
    c.meshInject fr r f = c := by
  simp [Channel.meshInject, port, request, out]

theorem Channel.meshWait_eq (c : Channel) (a : FlitAt) :
    c.meshWait a = if a ∈ c.mesh.flits then c else c.addFlits [a] := by
  simp [Channel.meshWait, Channel.addFlits]

section
variable (speaks : f.srcsub.val ≠ 0 ∨ kindVc f = true ∨ c.usable r = true)
include speaks

/-- Past the check for a request of a core out of service. -/
theorem Channel.meshInject_of_speaks :
    c.meshInject fr r f =
      let a : FlitAt := ⟨r, .loc, onKindVc f⟩
      if c.fld Reg.MESH_CTRL Fl.MESH_CTRL_SWAP_BUSY = 1 ∨ (c.meshQueue r f.srcsub (kindVc f)).head?.getD a ≠ a then c.meshWait a
      else if 99 < f.dst.val ∨ 5 < f.kind.val then (c.dropFlit a).addFld Reg.MESH_CORR Fl.MESH_CORR_BAD 1
      else if (flitDests (onKindVc f)).any (fun d => !entryOpen (c.meshEntry c.meshGen r d) && entryOpen (c.meshEntry (!c.meshGen) r d)) then
        c.meshWait a
      else ((c.dropFlit a).meshRoute fr r .loc (injected c.meshGen f)).getD (c.meshWait a) := by
  refine if_neg ?_
  rintro ⟨port, request, out⟩
  rcases speaks with h | h | h
  · exact h port
  · exact Bool.noConfusion (h.symm.trans request)
  · rw [h] at out
    exact Bool.noConfusion out

theorem Channel.meshInject_waits_swap (busy : c.fld Reg.MESH_CTRL Fl.MESH_CTRL_SWAP_BUSY = 1) :
    c.meshInject fr r f = c.meshWait ⟨r, .loc, onKindVc f⟩ :=
  (Channel.meshInject_of_speaks speaks).trans (if_pos (.inl busy))

theorem Channel.meshInject_waits_behind {x : FlitAt} (front : (c.meshQueue r f.srcsub (kindVc f)).head? = some x)
    (other : x ≠ ⟨r, .loc, onKindVc f⟩) : c.meshInject fr r f = c.meshWait ⟨r, .loc, onKindVc f⟩ := by
  refine (Channel.meshInject_of_speaks speaks).trans (if_pos (.inr ?_))
  rw [front]
  exact other

variable (dst : f.dst.val ≤ 99) (kind : f.kind.val < 4)
include dst kind

/-- The active table does not route the flit, the other one does. -/
theorem Channel.meshInject_waits_route (shut : 4 < c.meshEntry c.meshGen r f.dst.val) (opens : c.meshEntry (!c.meshGen) r f.dst.val ≤ 4) :
    c.meshInject fr r f = c.meshWait ⟨r, .loc, onKindVc f⟩ := by
  have one : flitDests (onKindVc f) = [f.dst.val] := flitDests_one kind
  have formed : ¬ (99 < f.dst.val ∨ 5 < f.kind.val) := by omega
  refine (Channel.meshInject_of_speaks speaks).trans (ite_eq_left_iff.mpr fun _ => (if_neg formed).trans (if_pos ?_))
  simp [one, entryOpen, shut, opens]

/-- Onto the port that the active table names, which has credit. -/
theorem Channel.meshInject_onto {p q : MPort} {n : Nat} (idle : c.fld Reg.MESH_CTRL Fl.MESH_CTRL_SWAP_BUSY = 0)
    (front : c.meshQueue r f.srcsub (kindVc f) = [] ∨ (c.meshQueue r f.srcsub (kindVc f)).head? = some ⟨r, .loc, onKindVc f⟩)
    (port : mportOf (c.meshEntry c.meshGen r f.dst.val) = some p) (link : meshNext r p = some (n, q))
    (room : ((c.dropFlit ⟨r, .loc, onKindVc f⟩).meshHeld n q (kindVc f)).length < meshRoom n q) :
    c.meshInject fr r f =
      (c.dropFlit ⟨r, .loc, onKindVc f⟩).addFlits [⟨n, q, injected c.meshGen f⟩] := by
  have one : flitDests (onKindVc f) = [f.dst.val] := flitDests_one kind
  have opens := mportOf_le port
  have formed : ¬ (99 < f.dst.val ∨ 5 < f.kind.val) := by omega
  have first : (c.meshQueue r f.srcsub (kindVc f)).head?.getD ⟨r, .loc, onKindVc f⟩ = ⟨r, .loc, onKindVc f⟩ := by
    rcases front with empty | head
    · rw [empty]; rfl
    · rw [head]; rfl
  rw [Channel.meshInject_of_speaks speaks]
  dsimp only
  rw [if_neg (by simp [idle, first]), if_neg formed, if_neg (by simp [one, entryOpen, opens]),
    Channel.meshRoute_onto (c := c.dropFlit ⟨r, .loc, onKindVc f⟩) (f := injected c.meshGen f) kind port link room, Option.getD_some]

end
end

/-! ### The row -/

theorem leavesF_hop_loc (ch : Chan) (r : Site) (f : Flit) (e : Ecc) (s : State) :
    LeavesF 128 (.meshFlitHop ch r .loc f e none) s ch ((s.chan ch).meshInject s.free r.val f) := rfl

theorem leavesF_hop_input (ch : Chan) (r : Site) {inp : MPort} (h : inp ≠ .loc) (f : Flit) (e : Ecc) (s : State) :
    LeavesF 128 (.meshFlitHop ch r inp f e none) s ch ((s.chan ch).meshCapture s.free r.val inp f e none) := by
  cases inp with
  | loc => exact absurd rfl h
  | north | south | east | west => rfl

/-- A flit hops: at its sub-port by what it waits for there, at a router's input by what its check and its route find. -/
theorem flitHops : FlitHops := by
  intro ch r inp f s c a c1 e g b busy fi ai ci queue hop waits
  have wait (loc : inp = .loc) (h : c.meshInject s.free r.val f = c.meshWait ai) : waits := by
    subst loc
    exact leavesF_congr (leavesF_hop_loc ch r f .clean s) (h.trans (Channel.meshWait_eq _ _))
  refine ⟨?silent, ?injects, ?captures⟩
  case silent =>
    intro loc port request out
    subst loc
    exact leavesF_congr (leavesF_hop_loc ch r f .clean s) (Channel.meshInject_silent port request out)
  case injects =>
    intro loc speaks
    refine ⟨?leaves, fun swap => wait loc (Channel.meshInject_waits_swap speaks swap),
      fun x front other => wait loc (Channel.meshInject_waits_behind speaks front other),
      fun dst kind shut opens => wait loc (Channel.meshInject_waits_route speaks dst kind shut opens)⟩
    intro idle front dst kind p n q port link room
    subst loc
    exact leavesF_congr (leavesF_hop_loc ch r f .clean s) (Channel.meshInject_onto speaks dst kind idle front port link room)
  case captures =>
    intro port oldest
    have row (x : Ecc) := leavesF_hop_input ch r port f x s
    have clean (dst : f.dst.val ≤ 99) (kind : f.kind.val ≤ 5) :
        LeavesF 128 hop s ch (((c.captured r.val inp f).meshRoute s.free r.val inp f).getD c) :=
      leavesF_congr (row .clean) (Channel.meshCapture_routed oldest dst kind)
    refine ⟨?onto, ?noCredit, ?unreach, ?malformed, ?double, clean⟩
    case onto =>
      intro dst kind p n q entry link room
      have leaves := clean dst (by omega)
      rw [Channel.meshRoute_onto (c := c.captured r.val inp f) kind entry link room] at leaves
      exact ⟨_, leaves, ⟨rfl, fun x _ => c.rd_captured r.val inp f x⟩, c.rd_captured r.val inp f _⟩
    case noCredit =>
      intro dst kind p n q entry link full
      have leaves := clean dst (by omega)
      rwa [Channel.meshRoute_noCredit (c := c.captured r.val inp f) kind entry link full] at leaves
    case unreach =>
      intro dst kind entry
      have leaves := clean dst (by omega)
      rw [Channel.meshRoute_unreach (c := c.captured r.val inp f) kind entry] at leaves
      obtain ⟨m, queued, code, node⟩ := (c.captured r.val inp f).meshFault_spec s.free fcMeshUnreach r inp f (by decide)
      exact ⟨_, m, leaves, rfl, queued, code, node, rfl⟩
    case malformed =>
      intro bad
      refine ⟨_, leavesF_congr (row .clean) (Channel.meshCapture_malformed oldest bad), rfl, ?_, rfl⟩
      rw [Channel.fld_addFld_same _ _ _ (by decide)]
      simp only [Channel.fld, Channel.rd_captured]
      rfl
    case double =>
      obtain ⟨m, queued, code, node⟩ := (c.captured r.val inp f).meshFault_spec s.free fcMeshUncorr r inp f (by decide)
      exact ⟨_, m, leavesF_congr (row .double) (Channel.meshCapture_double oldest), rfl, queued, code, node, rfl⟩

/-! ### The swap (R50) -/

/-- MESH_CTRL as the register table has it. -/
def meshCtrlRow : RegRow :=
  ⟨"MESH_CTRL", 0x2000, [], [⟨0, 8, .rw, 0x40⟩, ⟨8, 1, .wo, 0x0⟩, ⟨9, 1, .ro, 0x0⟩, ⟨10, 1, .ro, 0x0⟩, ⟨11, 1, .w1c, 0x0⟩]⟩

theorem regRow_meshCtrl : regRow Reg.MESH_CTRL = some meshCtrlRow := by decide +kernel

/-- A write of MESH_CTRL leaves the swap's state and the active generation alone (R50). -/
theorem Channel.fld_plainWrite_meshCtrl (c : Channel) (v : Nat) {f : Fld} (h : f = Fl.MESH_CTRL_SWAP_BUSY ∨ f = Fl.MESH_CTRL_RT_GEN) :
    (c.plainWrite Reg.MESH_CTRL v).fld Reg.MESH_CTRL f = c.fld Reg.MESH_CTRL f := by
  have shut : RegRow.shuts meshCtrlRow Fl.MESH_CTRL_SWAP_BUSY ∧ RegRow.shuts meshCtrlRow Fl.MESH_CTRL_RT_GEN := by
    constructor <;> decide
  rcases h with rfl | rfl
  · exact c.fld_plainWrite_shut regRow_meshCtrl shut.1 (by decide) v
  · exact c.fld_plainWrite_shut regRow_meshCtrl shut.2 (by decide) v

theorem bit_bitOn (v : Word) (n : Nat) : bit (bitOn v n) n = true := by
  simp [bit, bitOn, setBits_testBit]

/-- RT_SWAP: what MESH_CTRL takes, and the start of a swap. -/
theorem leavesF_meshRtSwap {s : State} {ch : Chan} {m : Master} (lands : Lands s ch m Reg.MESH_CTRL) (v : Word) :
    LeavesF 128 (.meshRtSwap ch m v) s ch ((s.chan ch).plainWrite Reg.MESH_CTRL (bitOn v 8)).meshSwap := by
  have ⟨_, _, _, _, _, may⟩ := lands
  have write : (s.chan ch).regWrite s.free m Reg.MESH_CTRL (bitOn v 8) = ((s.chan ch).plainWrite Reg.MESH_CTRL (bitOn v 8)).meshSwap := by
    have aligned : Reg.MESH_CTRL % 4 = 0 := by decide
    have core : inCoreBlock Reg.MESH_CTRL = false := by decide
    simp [Channel.regWrite, regRow_meshCtrl, may, aligned, core, Channel.blockWrite, Channel.meshCtrl, bit_bitOn]
  exact congrArg Host.Outcome.next ((State.regTo_of_lands lands (by decide) _).trans (by rw [write]))

theorem Channel.meshSwap_busy {c : Channel} (h : c.fld Reg.MESH_CTRL Fl.MESH_CTRL_SWAP_BUSY = 1) : c.meshSwap = c := if_pos h

/-- A swap begins: BUSY, its TABLE message, and the time. -/
def Channel.swapStarted (c : Channel) : Channel :=
  { c with regs := (c.setFld Reg.MESH_CTRL Fl.MESH_CTRL_SWAP_BUSY 1).regs, cmsgs := c.cmsgs ++ [.table 0],
           mesh := { c.mesh with swapAt := c.ts } }

theorem Channel.meshSwap_idle {c : Channel} (h : c.fld Reg.MESH_CTRL Fl.MESH_CTRL_SWAP_BUSY = 0) : c.meshSwap = c.swapStarted :=
  if_neg (by omega)

theorem Channel.fld_swapStarted_busy (c : Channel) : c.swapStarted.fld Reg.MESH_CTRL Fl.MESH_CTRL_SWAP_BUSY = 1 :=
  c.fld_setFld_same Reg.MESH_CTRL Fl.MESH_CTRL_SWAP_BUSY 1 (by decide)

theorem Channel.fld_swapStarted_gen (c : Channel) :
    c.swapStarted.fld Reg.MESH_CTRL Fl.MESH_CTRL_RT_GEN = c.fld Reg.MESH_CTRL Fl.MESH_CTRL_RT_GEN :=
  c.fld_setFld_field Reg.MESH_CTRL Fl.MESH_CTRL_SWAP_BUSY Fl.MESH_CTRL_RT_GEN 1 (by decide) (by decide)

theorem Channel.rd_swapStarted_other (c : Channel) {r : Nat} (h : r ≠ Reg.MESH_CTRL) : c.swapStarted.rd r = c.rd r :=
  c.rd_setFld_other Fl.MESH_CTRL_SWAP_BUSY 1 h

/-- A swap ends: BUSY is clear, and its TABLE message is gone (R50). -/
theorem Channel.fld_meshIdle_busy (c : Channel) : c.meshIdle.fld Reg.MESH_CTRL Fl.MESH_CTRL_SWAP_BUSY = 0 :=
  Channel.fld_setFld_same _ _ _ _ (by decide)

theorem Channel.fld_meshIdle_field (c : Channel) {f : Fld} (h : f.lo + f.w ≤ 10 ∨ 11 ≤ f.lo) :
    c.meshIdle.fld Reg.MESH_CTRL f = c.fld Reg.MESH_CTRL f := Channel.fld_setFld_field _ _ _ _ _ (by decide) h

theorem Channel.rd_meshIdle_other (c : Channel) {r : Nat} (h : r ≠ Reg.MESH_CTRL) : c.meshIdle.rd r = c.rd r :=
  Channel.rd_setFld_other _ _ _ h

/-- The active generation as a number: exchanged, it is what is left of 1. -/
theorem Channel.b2n_other_gen (c : Channel) : b2n (!c.meshGen) = 1 - c.fld Reg.MESH_CTRL Fl.MESH_CTRL_RT_GEN := by
  have lt := bits_lt (c.rd Reg.MESH_CTRL) 9 1
  have cases : c.fld Reg.MESH_CTRL Fl.MESH_CTRL_RT_GEN = 0 ∨ c.fld Reg.MESH_CTRL Fl.MESH_CTRL_RT_GEN = 1 := by
    simp only [Channel.fld, Fl.MESH_CTRL_RT_GEN]
    omega
  rcases cases with gen | gen <;> simp [Channel.meshGen, gen, b2n]

/-- The swap's rows: MESH_CTRL's fields as the write and the swap leave them. -/
theorem meshSwap : MeshSwap := by
  intro ch m v s c a
  refine ⟨fun lands idle => ?start, fun lands busy => ?again, fun busy drained => ?complete, fun waits => ?notYet, fun busy => ?timeout⟩
  case start =>
    have still := (c.fld_plainWrite_meshCtrl (bitOn v 8) (.inl rfl)).trans idle
    refine ⟨_, leavesF_congr (leavesF_meshRtSwap lands v) (Channel.meshSwap_idle still), ?frame,
      Channel.fld_swapStarted_busy _, (Channel.fld_swapStarted_gen _).trans (c.fld_plainWrite_meshCtrl _ (.inr rfl)),
      fun r other => (Channel.rd_swapStarted_other _ other).trans (c.rd_plainWrite_other _ other)⟩
    rw [Channel.plainWrite_frame]
    rfl
  case again =>
    have still := (c.fld_plainWrite_meshCtrl (bitOn v 8) (.inl rfl)).trans busy
    exact ⟨_, leavesF_congr (leavesF_meshRtSwap lands v) (Channel.meshSwap_busy still),
      ⟨c.plainWrite_frame _ _, fun r other => c.rd_plainWrite_other _ (by simpa using other)⟩, still⟩
  case complete =>
    have row : Leaves (.meshSwapComplete ch) s ch ((c.meshIdle.setFld a Fl.MESH_CTRL_RT_GEN (b2n (!c.meshGen))).count Reg.MESH_SWAPS 1) :=
      leaves_congr rfl (if_pos ⟨busy, drained⟩)
    have apart : a ≠ Reg.MESH_SWAPS := by decide
    refine ⟨_, row, by rw [Channel.count_frame]; rfl, ?busy, ?gen, ?swaps, fun r other uncounted => ?rest⟩
    case busy =>
      have turned := Channel.fld_setFld_field c.meshIdle a Fl.MESH_CTRL_RT_GEN Fl.MESH_CTRL_SWAP_BUSY (b2n (!c.meshGen)) (by decide) (by decide)
      exact (Channel.fld_count_other _ _ _ apart).trans (turned.trans c.fld_meshIdle_busy)
    case gen =>
      have turned := Channel.fld_setFld_same c.meshIdle a Fl.MESH_CTRL_RT_GEN (b2n (!c.meshGen)) (by decide)
      refine ((Channel.fld_count_other _ _ _ apart).trans turned).trans ?_
      rw [← Channel.b2n_other_gen]
      exact Nat.mod_eq_of_lt (b2n_lt _)
    case swaps =>
      have kept := (Channel.rd_setFld_other c.meshIdle Fl.MESH_CTRL_RT_GEN (b2n (!c.meshGen)) apart.symm).trans (c.rd_meshIdle_other apart.symm)
      rw [Counted, Channel.rd_count, if_pos rfl, kept]
    case rest =>
      exact (Channel.rd_count_other _ _ uncounted).trans ((Channel.rd_setFld_other _ _ _ other).trans (c.rd_meshIdle_other other))
  case notYet =>
    have closed : ¬ (c.fld a Fl.MESH_CTRL_SWAP_BUSY = 1 ∧ c.meshDrained = true) := by
      rintro ⟨busy, drained⟩
      rcases waits with idle | left
      · omega
      · exact Bool.noConfusion (drained.symm.trans left)
    exact leaves_congr rfl (if_neg closed)
  case timeout =>
    have row : Leaves (.meshSwapTimeout ch) s ch ((c.meshIdle.setFld a Fl.MESH_CTRL_SWAP_FAIL 1).report (mkFault 100 fcMeshStall none 100 0) false) :=
      leaves_congr rfl (if_pos busy)
    have failed (f : Fld) (h : f.lo + f.w ≤ 11) := Channel.fld_setFld_field c.meshIdle a Fl.MESH_CTRL_SWAP_FAIL f 1 (by decide) (.inl h)
    exact ⟨_, row, rfl, (failed _ (by decide)).trans c.fld_meshIdle_busy, Channel.fld_setFld_same _ _ _ _ (by decide),
      (failed _ (by decide)).trans (c.fld_meshIdle_field (by decide)),
      fun r other => (Channel.rd_setFld_other _ _ _ other).trans (c.rd_meshIdle_other other)⟩

/-- Settles O22: each row by the lemma that says what it does. -/
theorem meshRouting : Obligations.MeshRouting := ⟨flitHops, meshSwap⟩

end Sys2Proof.Machine
end

section
/-! Tier slices (R57, R58): reads through the merge table, writes of a byte, and the end of a merge entry. -/

namespace Sys2Proof.Machine

open Sys2Proof Sys2Proof.Says

/-! ### Bytes of a slice -/

/-- The addresses of a slice lie in the tier's row. -/
theorem Channel.row_slice (c : Channel) {i o : Nat} (hi : i < 100) (ho : o < 0x280_0000) : c.row (sliceBase i + o) = .tier (i * 0x280_0000 + o) := by
  have offset : sliceBase i + o - 0x1_0000_0000 = i * 0x280_0000 + o := by simp only [sliceBase]; omega
  have low : 0x1_0000_0000 ≤ sliceBase i + o := by simp only [sliceBase]; omega
  have high : sliceBase i + o < 0x1_FA00_0000 := by simp only [sliceBase]; omega
  rw [Channel.row, offset, if_neg (by omega), if_neg (by omega), if_neg (by omega), if_neg (by omega), if_neg (by omega), if_neg (by omega),
    if_pos high]

theorem Channel.ldByte_slice (c : Channel) {i o : Nat} (hi : i < 100) (ho : o < 0x280_0000) :
    c.ldByte (sliceBase i + o) = mget memDefault c.mem (sliceBase i + o) := by
  rw [Channel.ldByte, c.row_slice hi ho]

theorem Channel.ld_eq_map (c : Channel) (a n : Nat) : c.ld a n = (List.range n).map (fun b => c.ldByte (a + b)) := by
  induction n generalizing a with
  | zero => rfl
  | succ n ih =>
    rw [Channel.ld, ih, List.range_succ_eq_map, List.map_cons, List.map_map]
    congr 2
    funext b
    simp only [Function.comp_apply]
    congr 1
    omega

/-- A line of a slice, read as bytes of memory. -/
theorem Channel.ldN_line (c : Channel) {i line : Nat} (hi : i < 100) (hl : line < 327680) :
    c.ldN (lineAddr i line) 128 = leNat ((List.range 128).map fun b => mget memDefault c.mem (sliceBase i + line * 128 + b)) := by
  rw [Channel.ldN, Channel.ld_eq_map, lineAddr]
  congr 1
  refine List.map_congr_left fun b hb => ?_
  have inLine := List.mem_range.mp hb
  rw [Nat.add_assoc]
  exact c.ldByte_slice hi (by omega)

theorem Channel.row_flash {c : Channel} {a o : Nat} (h : c.row a = .flash o) : a = flashBase + o := by
  have past {P : Prop} [Decidable P] {x y : Row} (h : (if P then x else y) = .flash o) (hx : x ≠ .flash o) : y = .flash o := by
    by_cases p : P
    · exact absurd ((if_pos p).symm.trans h) hx
    · exact (if_neg p).symm.trans h
  unfold Channel.row at h
  iterate 9 replace h := past h nofun
  by_cases below : a < flashBase
  · rw [if_pos below] at h
    cases h
  · by_cases inside : a < 0x1400_0000_0000
    · rw [if_neg below, if_pos inside] at h
      have offset := Row.flash.inj h
      omega
    · rw [if_neg below, if_neg inside] at h
      cases past (past h nofun) nofun

/-- A read depends on the registers, memory, the enabled sites and the flash and KT5 units alone. -/
theorem Channel.ldByte_congr {c d : Channel} (regs : d.regs = c.regs) (mem : d.mem = c.mem) (otp : d.otp = c.otp) (flash : d.flash = c.flash)
    (kt5 : d.kt5 = c.kt5) (a : Nat) : d.ldByte a = c.ldByte a := by
  cases c
  cases d
  subst regs mem otp flash kt5
  rfl

/-- A stored byte is read at its own address alone, but for pages of the KT5 range. -/
theorem Channel.ldByte_poke_other (c : Channel) {a k : Nat} (b : Byte) (h : k ≠ a) (flat : ∀ o, c.row k ≠ .flat o) :
    (c.poke a b).ldByte k = c.ldByte k := by
  have mem := c.mem_poke_other b h
  have usable (i : Nat) : (c.poke a b).usable i = c.usable i := rfl
  simp only [Channel.ldByte, Channel.row_poke]
  split
  case h_5 o row =>
    rw [Channel.row_flash row] at mem
    have buf (u : Nat) : (c.poke a b).flashBuf u = c.flashBuf u := rfl
    simp only [Channel.flashByte, Channel.fld_poke, mem, buf]
  case h_6 o row => exact absurd row (flat o)
  all_goals simp only [mem, usable]

/-! ### The end of a merge entry -/

theorem Channel.addFlits_nil (c : Channel) : c.addFlits [] = c := by simp only [Channel.addFlits, List.append_nil]

theorem Channel.addFlits_addFlits (c : Channel) (l m : List FlitAt) : (c.addFlits l).addFlits m = c.addFlits (l ++ m) := by
  simp only [Channel.addFlits, List.append_assoc]

theorem Channel.meshOffer_eq (c : Channel) (r : Nat) (f : Flit) : c.meshOffer r f = c.addFlits [⟨r, .loc, f⟩] := rfl

theorem Channel.castOne_adds (c : Channel) (slice data : Nat) (l : List (Nat × Nat)) : ∃ fs, c.castOne slice data l = c.addFlits fs := by
  simp only [Channel.castOne, Channel.meshOffer_eq, Channel.addFlits_addFlits]
  split
  · exact ⟨[], c.addFlits_nil.symm⟩
  · exact ⟨_, rfl⟩

theorem Channel.castAll_adds (c : Channel) (slice data : Nat) (l : List (Nat × Nat)) (n : Nat) :
    ∃ fs, c.castAll slice data l n = c.addFlits fs := by
  induction n generalizing c l with
  | zero => exact ⟨[], c.addFlits_nil.symm⟩
  | succ n ih =>
    rw [Channel.castAll]
    split
    · exact ⟨[], c.addFlits_nil.symm⟩
    · obtain ⟨first, one⟩ := c.castOne_adds slice data (castNext l)
      obtain ⟨rest, all⟩ := ih (c.castOne slice data (castNext l)) ((castNext l).foldl (fun l e => eraseFirst e l) l)
      refine ⟨first ++ rest, ?_⟩
      rw [← Channel.addFlits_addFlits, ← one, ← all]

/-- A merge entry's answer is flits. -/
theorem Channel.mergeAnswer_adds (c : Channel) (e : MergeEnt) : ∃ fs, c.mergeAnswer e = c.addFlits fs := by
  simp only [Channel.mergeAnswer]
  split
  · split
    · exact ⟨[], c.addFlits_nil.symm⟩
    · exact ⟨_, rfl⟩
  · exact c.castAll_adds _ _ _ _

/-- A requester that waits alone, away from the slice, gets a reply (R58). -/
theorem Channel.mergeAnswer_alone (c : Channel) {e : MergeEnt} {site tag : Nat} (alone : e.waiting = [(site, tag)]) (away : site ≠ e.slice)
    (hi : e.slice < 100) (hl : e.line < 327680) :
    c.mergeAnswer e =
      c.addFlits [⟨e.slice, .loc, sliceFlit e.slice site 0 1 (BitVec.ofNat 16 tag) (c.ldN (lineAddr e.slice e.line) 128) 0⟩] := by
  rw [Channel.mergeAnswer, alone, c.ldN_line hi hl]
  exact if_neg away

/-- The merge entries but those of a line. -/
def Channel.mergesBut (c : Channel) (slice line : Nat) : List MergeEnt := c.merges.filter fun m => !(m.slice == slice && m.line == line)

section
variable {c : Channel} {slice line : Nat}

theorem Channel.mergeShut_none (h : c.merges.find? (fun m => m.slice == slice && m.line == line) = none) : c.mergeShut slice line = c := by
  rw [Channel.mergeShut, h]

theorem Channel.mergeShut_some {e : MergeEnt} (h : c.merges.find? (fun m => m.slice == slice && m.line == line) = some e) :
    c.mergeShut slice line = { c.mergeAnswer e with merges := c.mergesBut slice line } := by
  rw [Channel.mergeShut, h]
  rfl

end

/-- The end of a merge entry: the entry goes, and flits enter the mesh. -/
theorem Channel.mergeShut_adds (c : Channel) (slice line : Nat) :
    ∃ fs, c.mergeShut slice line = { c.addFlits fs with merges := c.mergesBut slice line } := by
  cases h : c.merges.find? (fun m => m.slice == slice && m.line == line) with
  | none =>
    have all : c.mergesBut slice line = c.merges := by
      refine List.filter_eq_self.mpr fun m hm => ?_
      exact (Bool.not_eq_true' _).mpr (Bool.eq_false_iff.mpr (List.find?_eq_none.mp h m hm))
    exact ⟨[], by rw [Channel.mergeShut_none h, all, Channel.addFlits_nil]⟩
  | some e =>
    obtain ⟨fs, answer⟩ := c.mergeAnswer_adds e
    exact ⟨fs, by rw [Channel.mergeShut_some h, answer]⟩

/-- A line without an entry has none to end. -/
theorem Channel.mergeShut_again (c : Channel) (slice line : Nat) : (c.mergeShut slice line).mergeShut slice line = c.mergeShut slice line := by
  obtain ⟨fs, shut⟩ := c.mergeShut_adds slice line
  refine Channel.mergeShut_none (List.find?_eq_none.mpr fun m hm => ?_)
  rw [shut] at hm
  exact Bool.eq_false_iff.mp ((Bool.not_eq_true' _).mp (List.mem_filter.mp hm).2)

/-! ### Reads over the stream port (R57) -/

section
variable {c : Channel} {slice line : Nat} {src : Site} {sub : Fin 8}

theorem Channel.sliceRead_opens (on : c.fld Reg.MESH_CTRL Fl.MESH_CTRL_MERGE_WIN ≠ 0)
    (new : c.merges.any (fun m => m.slice == slice && m.line == line) = false) (room : c.mergeUsed slice < 16) :
    c.sliceRead slice line src sub true true [] = { c with merges := c.merges ++ [⟨slice, line, [(slice, 0)]⟩] } := by
  simp [Channel.sliceRead, Channel.sliceTake, Channel.tierRead, rawsIn, on, new, room]

theorem Channel.sliceRead_joins (on : c.fld Reg.MESH_CTRL Fl.MESH_CTRL_MERGE_WIN ≠ 0)
    (old : c.merges.any (fun m => m.slice == slice && m.line == line) = true) :
    c.sliceRead slice line src sub true true [] = (c.count Reg.MESH_MERGED 1).mergeJoin slice line (slice, 0) := by
  simp [Channel.sliceRead, Channel.sliceTake, on, old]

theorem Channel.sliceRead_full (on : c.fld Reg.MESH_CTRL Fl.MESH_CTRL_MERGE_WIN ≠ 0)
    (new : c.merges.any (fun m => m.slice == slice && m.line == line) = false) (full : 16 ≤ c.mergeUsed slice) :
    c.sliceRead slice line src sub true true [] = c.count Reg.MESH_MERGEFULL 1 := by
  have shut : ¬ c.mergeUsed slice < 16 := by omega
  simp [Channel.sliceRead, Channel.sliceTake, Channel.sliceReply, Channel.tierRead, rawsIn, on, new, shut]

theorem Channel.sliceRead_plain : c.sliceRead slice line src sub true false [] = c := by
  simp [Channel.sliceRead, Channel.sliceTake, Channel.sliceReply, Channel.tierRead, rawsIn]

end

/-! ### Writes of a byte (R57) -/

theorem touched_one (n a : Nat) : touched n a 1 = [(a / n * n, decide (a ≤ a / n * n ∧ a / n * n + n ≤ a + 1))] := by
  simp [touched, rangeFrom]

/-- The write flit that a write at a slice serves. -/
def Channel.sliceServes (c : Channel) (slice : Nat) (vert : Bool) : Option FlitAt := if vert then none else c.sliceWr slice

/-- A slice acknowledges the write flit that it has served. -/
def Channel.sliceAck (c : Channel) (slice : Nat) (q : Option FlitAt) : Channel := c.addFlits (q.toList.map fun f => ⟨slice, .loc, flitAck f.flit⟩)

/-- The byte b is stored at a slice. -/
theorem Channel.sliceWrite_byte (c : Channel) {slice off : Nat} (hi : slice < 100) (ho : off < 0x280_0000) (b : Byte) (vert : Bool) :
    c.sliceWrite slice off [b] vert [] =
      ((((c.sliceTake (c.sliceServes slice vert)).mergeShut slice (off / 128)).wroteWord ((sliceBase slice + off) / 64 * 64)).poke
        (sliceBase slice + off) b).sliceAck slice (c.sliceServes slice vert) := by
  set q := c.sliceServes slice vert with served
  have whole : min [b].length (0x280_0000 - off) = 1 := by
    simp only [List.length_singleton]
    omega
  have clean (d : Channel) (l : List (Nat × Bool)) : l.foldl (fun d w => d.tierRead slice (b2n (!vert)) w.1 64 []) d = d :=
    List.foldl_fixed' (fun _ => rfl) l
  have line : (slice * 0x280_0000 + off) % 0x280_0000 / 128 = off / 128 := by congr 1; omega
  have home : (slice * 0x280_0000 + off) / 0x280_0000 = slice := by omega
  have stored (d : Channel) : d.stByte (sliceBase slice + off) b false =
      ((d.mergeShut slice (off / 128)).wroteWord ((sliceBase slice + off) / 64 * 64)).poke (sliceBase slice + off) b := by
    rw [Channel.stByte, d.row_slice hi ho]
    simp only [home, line]
  have write : c.sliceWrite slice off [b] vert [] =
      (((c.sliceTake q).mergeShut slice (off / 128)).stByte (sliceBase slice + off) b false).sliceAck slice q := by
    simp only [Channel.sliceWrite, whole, touched_one, clean, List.foldl_cons, List.foldl_nil, List.take_succ_cons, List.take_nil, Channel.st,
      Nat.mul_div_cancel _ (show 0 < 128 by decide)]
    rw [← Channel.sliceServes, ← served]
    cases q <;> simp only [Channel.sliceAck, Option.toList, List.map_nil, List.map_cons, Channel.addFlits_nil, Channel.meshOffer_eq]
  rw [write, stored, Channel.mergeShut_again]

theorem Channel.sliceTake_frame (c : Channel) (q : Option FlitAt) : c.sliceTake q = { c with mesh := (c.sliceTake q).mesh } := by
  cases q <;> rfl

section
variable (c : Channel) {slice off : Nat} (hi : slice < 100) (ho : off < 0x280_0000) (b : Byte) (vert : Bool)
include hi ho

/-- A byte written at a slice: it is stored, its line's merge entry is closed, and no correction of its word waits any more. -/
theorem Channel.sliceWrite_frame :
    c.sliceWrite slice off [b] vert [] =
      { c.poke (sliceBase slice + off) b with
        corr := (c.sliceWrite slice off [b] vert []).corr, merges := c.mergesBut slice (off / 128),
        mesh := (c.sliceWrite slice off [b] vert []).mesh } := by
  obtain ⟨fs, shut⟩ := (c.sliceTake (c.sliceServes slice vert)).mergeShut_adds slice (off / 128)
  rw [c.sliceWrite_byte hi ho, shut, Channel.sliceTake_frame]
  rfl

theorem Channel.sliceWrite_takes {q : FlitAt} (served : c.sliceServes slice vert = some q) :
    (c.sliceWrite slice off [b] vert []).mesh.eject = eraseFirst q c.mesh.eject := by
  obtain ⟨fs, shut⟩ := (c.sliceTake (c.sliceServes slice vert)).mergeShut_adds slice (off / 128)
  rw [c.sliceWrite_byte hi ho, shut, served]
  rfl

theorem Channel.sliceWrite_acknowledges {q : FlitAt} (served : c.sliceServes slice vert = some q) :
    ⟨slice, .loc, flitAck q.flit⟩ ∈ (c.sliceWrite slice off [b] vert []).mesh.flits := by
  rw [c.sliceWrite_byte hi ho, served]
  exact List.mem_append_right _ (List.mem_singleton_self _)

end

/-- Settles O24: each row by the lemma that says what it does. -/
theorem tierAccesses : Obligations.TierAccesses := by
  intro ch slice line src sub s c i on open_ entry
  refine ⟨fun hon new room => leaves_congr rfl (Channel.sliceRead_opens hon new room), ?joins, ?full, leaves_congr rfl Channel.sliceRead_plain,
    ?writes, fun none => leaves_congr rfl (Channel.mergeShut_none none), ?closes⟩
  case joins =>
    intro hon old
    refine ⟨_, leaves_congr rfl (Channel.sliceRead_joins hon old), ⟨?frame, fun a other => ?rest⟩, ?counted⟩
    case frame => rw [Channel.count_frame]; rfl
    case rest => exact c.rd_count_other 1 (by simpa using other)
    case counted => exact (c.rd_count Reg.MESH_MERGED 1 Reg.MESH_MERGED).trans (if_pos rfl)
  case full =>
    intro hon new full
    refine ⟨_, leaves_congr rfl (Channel.sliceRead_full hon new full), ⟨c.count_frame _ _, fun a other => ?rest⟩, ?counted⟩
    case rest => exact c.rd_count_other 1 (by simpa using other)
    case counted => exact (c.rd_count Reg.MESH_MERGEFULL 1 Reg.MESH_MERGEFULL).trans (if_pos rfl)
  case writes =>
    intro b off vert
    have frame := c.sliceWrite_frame slice.isLt off.isLt b vert
    have read (a : Nat) : (c.sliceWrite i off.val [b] vert []).ldByte a = (c.poke (sliceBase i + off.val) b).ldByte a := by
      rw [frame]
      exact Channel.ldByte_congr rfl rfl rfl rfl rfl a
    refine ⟨c.sliceWrite i off.val [b] vert [], rfl, ?stored, fun a other flat => (read a).trans (c.ldByte_poke_other b other flat),
      (congrArg Channel.regs frame :), (congrArg Channel.cores frame :), (congrArg Channel.merges frame :), ?acked⟩
    case stored => rw [read, Channel.ldByte_slice _ slice.isLt off.isLt, Channel.mem_poke_same]
    case acked =>
      intro q router first
      have served : c.sliceServes i vert = some q := by rw [Channel.sliceServes, router]; exact first
      exact ⟨c.sliceWrite_acknowledges slice.isLt off.isLt b vert served, c.sliceWrite_takes slice.isLt off.isLt b vert served⟩
  case closes =>
    intro e found
    have line_of := List.find?_some found
    rw [Bool.and_eq_true, beq_iff_eq, beq_iff_eq] at line_of
    obtain ⟨atSlice, atLine⟩ := line_of
    refine ⟨_, leaves_congr rfl (Channel.mergeShut_some found), ?frame, fun site tag alone away => ?reply⟩
    case frame =>
      obtain ⟨fs, answer⟩ := c.mergeAnswer_adds e
      rw [answer]
      rfl
    case reply =>
      rw [c.mergeAnswer_alone alone (by rwa [atSlice]) (atSlice ▸ slice.isLt) (atLine ▸ line.isLt), atSlice, atLine]
      rfl

end Sys2Proof.Machine
end

section
/-! Runs of the run list and of the U program (R72, R73, R75, R107): what the start of a stream leaves in its core, and when one starts. -/

namespace Sys2Proof.Machine

open Sys2Proof Sys2Proof.Says

/-! ### The start of a stream -/

section
variable (k : Core) (st : Strm) (ip : Nat) (rc : Rc) (info : RunInfo) (last : Bool)

@[simp] theorem Core.str_setRc (x : Option RunInfo) (su : Strm) : (k.setRc rc x).str su = k.str su := by cases rc <;> rfl

@[simp] theorem Core.pos_setRc (x : Option RunInfo) : (k.setRc rc x).pos = k.pos := by cases rc <;> rfl

@[simp] theorem Core.rcOf_setRc_same (x : Option RunInfo) : (k.setRc rc x).rcOf rc = x := by cases rc <;> rfl

@[simp] theorem Core.rcOf_setStr (x : Stream) (r : Rc) : (k.setStr st x).rcOf r = k.rcOf r := by cases st <;> cases r <;> rfl

@[simp] theorem Core.pos_setStr (x : Stream) : (k.setStr st x).pos = k.pos := by cases st <;> rfl

@[simp] theorem Core.rcOf_startStream : (k.startStream st ip rc info last).rcOf rc = some info := by simp [Core.startStream]

@[simp] theorem Core.pos_startStream : (k.startStream st ip rc info last).pos = k.pos := by simp [Core.startStream]

/-- The stream that starts stands at its entry, in its run context, with the flags of its kind; it waits for nothing. -/
theorem Core.str_startStream_same :
    ((k.startStream st ip rc info last).str st).run = some rc ∧ ((k.startStream st ip rc info last).str st).pc = ip ∧
    ((k.startStream st ip rc info last).str st).lc = [0, 0, 0, 0] ∧
    ((k.startStream st ip rc info last).str st).cf = startFlags info.kind last ∧
    ((k.startStream st ip rc info last).str st).wait = .none := by
  simp [Core.startStream, Stream.mark, Stream.reset]

theorem Core.str_startStream_other {su : Strm} (h : su ≠ st) : (k.startStream st ip rc info last).str su = k.str su := by
  rw [Core.startStream, Core.str_setStr_other _ _ h, Core.str_setRc]

end

/-! ### Entries of the run list -/

/-- The kind of run that an entry other than END names. -/
def entryRun (e : Nat) : RunKind := match entryKind e with | 0 => .f | 1 => .b | _ => .e

/-- The stream that an entry's run uses: B runs the B stream, F and E runs the F stream. -/
def entryStrm (e : Nat) : Strm := if entryKind e = 1 then .b else .f

theorem entryRun_eq_b (e : Nat) : entryRun e = .b ↔ entryKind e = 1 := by
  unfold entryRun; split <;> simp_all

theorem entryRun_ne_e {e : Nat} (h : entryKind e ≠ 2) (notEnd : entryKind e ≠ 3) : entryRun e ≠ .e := by
  have small : entryKind e < 4 := bits_lt e 0 2
  have fOrB : entryKind e = 0 ∨ entryKind e = 1 := by omega
  rcases fOrB with h | h <;> simp [entryRun, h]

/-- The first free run context of the two that the run list uses. -/
def Core.freeRc (k : Core) : Option Rc := if k.rc0.isNone then some .r0 else if k.rc1.isNone then some .r1 else none

theorem Core.freeRc_eq {k : Core} {rc : Rc} (h : rc = .r0 ∧ k.rc0 = none ∨ rc = .r1 ∧ k.rc0.isSome ∧ k.rc1 = none) : k.freeRc = some rc := by
  rcases h with ⟨rfl, free⟩ | ⟨rfl, taken, free⟩
  · simp [Core.freeRc, free]
  · simp [Core.freeRc, free, Option.isNone_eq_false_iff.mpr taken]

/-- The number of the entry that follows in the run list. -/
def Core.nextEntry (k : Core) : Nat := match k.pos with | some q => q + 1 | none => 0

/-- Whether the walk of the run list has come to its END entry. -/
def Core.walkEnded (k : Core) : Bool := match k.pos with | some q => entryKind (nth 3 k.runList q) == 3 | none => false

/-- E runs of the list before entry n. -/
def Core.fillersBefore (k : Core) (n : Nat) : Nat := ((k.runList.take n).filter (fun y => entryKind y == 2)).length

/-- What the run context of entry n records of its run. -/
def Channel.entryInfo (c : Channel) (x n : Nat) (k : Core) : RunInfo :=
  let kind := entryRun (nth 3 k.runList n)
  { kind := kind, mb := if kind = .e then k.fillersBefore n else entryMb (nth 3 k.runList n), config := c.config x, press := c.press x,
    unset := kind == .e && k.stage != 0, skip := kind == .e && k.stage == 0 && decide (k.fillers ≤ k.fillersBefore n), pg := 0 }

/-- The core at entry n, before its stream starts: a step keeps a copy of its descriptors from its first run on. -/
def Channel.entryCore (c : Channel) (i n : Nat) (k : Core) : Core :=
  if k.again then { k with pos := some n } else { k with pos := some n, descCopy := some (k.descCopy.getD (c.descCells i)) }

section
variable (c : Channel) (i x n : Nat)

@[simp] theorem Channel.pos_entryCore (k : Core) : (c.entryCore i n k).pos = some n := by unfold Channel.entryCore; split <;> rfl

@[simp] theorem Channel.str_entryCore (k : Core) (st : Strm) : (c.entryCore i n k).str st = k.str st := by
  unfold Channel.entryCore; split <;> cases st <;> rfl

theorem Channel.runEntry_end {k : Core} (isEnd : entryKind (nth 3 k.runList n) = 3) (fresh : k.again = false) :
    c.runEntry i x n k = c.setCore i { k with pos := some n } := by
  simp [Channel.runEntry, isEnd, fresh]

theorem Channel.runEntry_starts {k : Core} {rc : Rc} (notEnd : entryKind (nth 3 k.runList n) ≠ 3) (free : k.freeRc = some rc) :
    c.runEntry i x n k =
      c.setCore i ((c.entryCore i n k).startStream (entryStrm (nth 3 k.runList n)) (if entryKind (nth 3 k.runList n) = 1 then k.bIp else k.fIp)
        rc (c.entryInfo x n k) (decide ((c.entryInfo x n k).mb + 1 = c.mbs x))) := by
  rw [Core.freeRc] at free
  simp only [entryStrm, ← entryRun_eq_b]
  simp only [Channel.runEntry, if_neg notEnd, free]
  rfl

end

/-! ### When a run of the list begins -/

/-- An EMPTY context and one in RINSE begin no runs. -/
theorem Channel.noRun_of_emptyOrRinse {c : Channel} {x : Nat} {p : Prop} (h : c.ctxState x = ctxEmpty ∨ c.ctxState x = ctxRinse) :
    ¬(c.ctxState x = ctxStep ∨ c.ctxState x = ctxReady ∧ p) := by
  rcases h with h | h <;> simp [h, ctxEmpty, ctxReady, ctxStep, ctxRinse]

/-- R72 and R80: a step lets the walk of the run list go on; so does READY, while entries of the last step are left. -/
theorem Channel.runBegin_entry {c : Channel} {i x : Nat} (owner : (c.core i).owner = some x)
    (may : c.ctxState x = ctxStep ∨ c.ctxState x = ctxReady ∧ (c.core i).pos.isSome) (going : (c.core i).walkEnded = false)
    (room : (c.core i).nextEntry < (c.core i).runList.length) (idleF : (c.core i).f.run = none) (idleB : (c.core i).b.run = none) :
    c.runBegin i = c.runEntry i x (c.core i).nextEntry (c.core i) := by
  unfold Channel.runBegin
  simp only [owner]
  apply if_neg
  rintro (no | ended | past | busyF | busyB)
  · exact no may
  · exact absurd (going.symm.trans ended) (by decide)
  · exact absurd room (Nat.not_lt.mpr past)
  · simp [idleF] at busyF
  · simp [idleB] at busyB

theorem Channel.runBegin_nothing {c : Channel} {i x : Nat} (owner : (c.core i).owner = some x)
    (shut : ¬(c.ctxState x = ctxStep ∨ c.ctxState x = ctxReady ∧ (c.core i).pos.isSome) ∨ (c.core i).walkEnded = true ∨
      (c.core i).runList.length ≤ (c.core i).nextEntry ∨ (c.core i).f.run.isSome ∨ (c.core i).b.run.isSome) :
    c.runBegin i = c := by
  unfold Channel.runBegin
  simp only [owner]
  exact if_pos shut

theorem leaves_runBegin {ch : Chan} {site : Site} {s : State} (usable : (s.chan ch).usable site.val = true) :
    Leaves (.runBegin ch site) s ch ((s.chan ch).runBegin site.val) :=
  congrArg (fun d => Host.Outcome.next (s.setChan ch d)) (if_pos usable)

theorem leaves_uStreamStart {ch : Chan} {site : Site} {s : State} (usable : (s.chan ch).usable site.val = true) :
    Leaves (.uStreamStart ch site) s ch ((s.chan ch).uBegin site.val) :=
  congrArg (fun d => Host.Outcome.next (s.setChan ch d)) (if_pos usable)

/-- RUN_BEGIN: each case by the equation of `runBegin` there. -/
theorem runBegins : RunBegins := by
  intro ch site s c i k n e ended b st usable x owner
  refine ⟨fun may going room idleF idleB => ⟨fun notEnd rc free => ?starts, fun isEnd fresh => ?ends⟩, fun shut => ?nothing⟩
  case starts =>
    have begin_eq : c.runBegin i = _ :=
      (Channel.runBegin_entry owner may going room idleF idleB).trans (c.runEntry_starts i x n notEnd (Core.freeRc_eq free))
    have st_eq : st = entryStrm e := by simp [st, b, entryStrm]
    have other : (if b then Strm.f else Strm.b) ≠ entryStrm e := by
      rw [← st_eq]; cases hb : b <;> simp [st, hb]
    obtain ⟨run, pc, lc, cf, wait⟩ := (c.entryCore i n k).str_startStream_same (entryStrm e) (if entryKind e = 1 then k.bIp else k.fIp) rc
      (c.entryInfo x n k) (decide ((c.entryInfo x n k).mb + 1 = c.mbs x))
    refine ⟨_, c.entryInfo x n k, leaves_congr (leaves_runBegin usable) begin_eq, rfl, fun j away => c.core_setCore_other _ away, ?_⟩
    simp only [Channel.strm, Channel.core_setCore_same, st_eq]
    refine ⟨(Core.pos_startStream ..).trans (Channel.pos_entryCore ..), Core.rcOf_startStream .., rfl, rfl, rfl, fun real => if_neg (entryRun_ne_e real notEnd), run, ?pc, lc, cf, wait, ?others⟩
    case pc => rw [pc]; simp only [b, decide_eq_true_eq]
    case others => rw [Core.str_startStream_other _ _ _ _ _ _ other, Channel.str_entryCore]
  case ends =>
    have begin_eq := (Channel.runBegin_entry owner may going room idleF idleB).trans (c.runEntry_end i x n isEnd fresh)
    exact ⟨_, leaves_congr (leaves_runBegin usable) begin_eq, rfl, fun j away => c.core_setCore_other _ away, c.core_setCore_same i _⟩
  case nothing =>
    refine leaves_congr (leaves_runBegin usable) (Channel.runBegin_nothing owner ?_)
    rcases shut with empty | rinse | rest
    · exact .inl (Channel.noRun_of_emptyOrRinse (.inl empty))
    · exact .inl (Channel.noRun_of_emptyOrRinse (.inr rinse))
    · exact .inr rest

/-! ### The U stream -/

/-- The channel with the norm accumulator of core i at zero and its clip factor at one (R315, R319). -/
def Channel.normCleared (c : Channel) (i : Nat) : Channel := (c.setNormAcc i czero).wr (Reg.CORE_CLIP i) fone

section
variable (c : Channel) (i : Nat)

theorem Channel.normCleared_frame : c.normCleared i = { c with regs := (c.normCleared i).regs } := rfl

theorem Channel.core_normCleared (j : Nat) : (c.normCleared i).core j = c.core j := rfl

theorem Channel.clip_normCleared : (c.normCleared i).rd (Reg.CORE_CLIP i) = fone := by
  rw [Channel.normCleared, Channel.rd_wr_same]; rfl

theorem Channel.normAcc_normCleared : (c.normCleared i).normAcc i = czero := by
  have high : (c.normCleared i).rd (Reg.CORE_NORMACCL i) = 0 := by
    simp [Channel.normCleared, Channel.setNormAcc, Channel.rd_wr, Reg.CORE_CLIP, Reg.CORE_NORMACCL, Reg.CORE_NORMACCH, czero]
  have low : (c.normCleared i).rd (Reg.CORE_NORMACCH i) = 0 := by
    simp [Channel.normCleared, Channel.setNormAcc, Channel.rd_wr, Reg.CORE_CLIP, Reg.CORE_NORMACCH, czero]
  rw [Channel.normAcc, high, low, czero]

end

/-- The core as the U program finds it: begun, with no norm sent or received (R75). -/
def Core.uReady (k : Core) : Core := { k with uStarted := true, normp := false, normSent := false, normed := false }

/-- The record of a U run. -/
def Channel.uInfo (c : Channel) (x : Nat) : RunInfo := ⟨.u, 0, c.config x, c.press x, false, false, 0⟩

section
variable {c : Channel} {i x q : Nat} (owner : (c.core i).owner = some x) (pos : (c.core i).pos = some q)
include owner pos

/-- R75: within a step, once no B run is left, the U program starts, once. -/
theorem Channel.uBegin_starts (step : c.ctxState x = ctxStep) (fresh : (c.core i).again = false) (first : (c.core i).uStarted = false)
    (noB : ((c.core i).runList.drop (q + 1)).any (fun e => entryKind e == 1) = false) (idleB : (c.core i).b.run = none) :
    c.uBegin i = (c.normCleared i).setCore i ((c.core i).uReady.startStream .u (c.core i).uIp .u (c.uInfo x) true) := by
  have noBar : ¬(c.ctxState x ≠ ctxStep ∨ (c.core i).again ∨ (c.core i).uStarted ∨
      ((c.core i).runList.drop (q + 1)).any (fun e => entryKind e == 1) ∨ (c.core i).b.run.isSome) := by
    simp only [step, fresh, first, noB, idleB, Option.isSome_none, ne_eq, not_true, Bool.false_eq_true, or_self, not_false_eq_true]
  unfold Channel.uBegin
  simp only [owner, pos]
  rw [if_neg noBar, Core.uReady, owner, pos]
  rfl

theorem Channel.uBegin_waits (left : ((c.core i).runList.drop (q + 1)).any (fun e => entryKind e == 1) = true ∨ (c.core i).b.run.isSome) :
    c.uBegin i = c := by
  unfold Channel.uBegin
  simp only [owner, pos]
  exact if_pos (.inr (.inr (.inr left)))

end

/-- U_STREAM_START: each case by the equation of `uBegin` there. -/
theorem uStreamStarts : UStreamStarts := by
  intro ch site x q s c i k usable owner pos
  refine ⟨fun step fresh first noB idleB => ?starts, fun left => leaves_congr (leaves_uStreamStart usable) (Channel.uBegin_waits owner pos left)⟩
  case starts =>
    have begin_eq : c.uBegin i = _ := Channel.uBegin_starts owner pos step fresh first noB idleB
    obtain ⟨run, pc, -, cf, -⟩ := k.uReady.str_startStream_same .u k.uIp .u (c.uInfo x) true
    refine ⟨_, leaves_congr (leaves_uStreamStart usable) begin_eq, rfl, fun j away => Channel.core_setCore_other _ _ away, ?_⟩
    simp only [Channel.strm, Channel.core_setCore_same]
    exact ⟨pc, run, cf, rfl, rfl, c.clip_normCleared i, c.normAcc_normCleared i, rfl, rfl⟩

/-- Settles O18: each row by the lemma that says when, and as, its run begins. -/
theorem runsStart : Obligations.RunsStart := ⟨runBegins, uStreamStarts⟩

end Sys2Proof.Machine
end

section
/-! Completion at the head of a stream (R119, R122, R125, R335): the instruction leaves its stream, does what its opcode does then, and gives
its header signal. -/

namespace Sys2Proof.Machine

open Sys2Proof Sys2Proof.Says

/-! ### Registers and streams: what one update leaves -/

theorem regs_setFld (c : Channel) (a : Nat) (f : Fld) (v : Nat) : Regs [a] c (c.setFld a f v) :=
  ⟨c.setFld_frame a f v, fun _ other => c.rd_setFld_other f v (List.ne_of_not_mem_cons other)⟩

theorem regs_count (c : Channel) (a n : Nat) : Regs [a] c (c.count a n) :=
  ⟨c.count_frame a n, fun _ other => c.rd_count_other n (List.ne_of_not_mem_cons other)⟩

theorem counted_count (c : Channel) (a n : Nat) : Counted a n c (c.count a n) := (c.rd_count a n a).trans (if_pos rfl)

theorem regs_setTack (c : Channel) (i t v : Nat) : Regs [Reg.CORE_TACK i t] c (c.setTack i t v) := regs_setFld c _ _ v

theorem Channel.tack_le (c : Channel) (i t : Nat) : c.tack i t ≤ 0xFFFF := Nat.le_of_lt_succ (bits_lt _ _ _)

theorem Channel.tack_setTack_same (c : Channel) (i t : Nat) {v : Nat} (h : v ≤ 0xFFFF) : (c.setTack i t v).tack i t = v :=
  (c.fld_setFld_same _ Fl.CORE_TACK_COUNT v (by decide)).trans (Nat.mod_eq_of_lt (Nat.lt_succ_of_le h))

/-- R120: below its limit a tack takes the sum, and nothing is raised. -/
theorem Channel.tackAdd_fits (c : Channel) {i t v : Nat} (h : c.tack i t + v ≤ 0xFFFF) (a b : Nat) :
    c.tackAdd i t v a b = c.setTack i t (c.tack i t + v) := if_pos h

theorem oneStream_modStr (c : Channel) (i : Nat) (st : Strm) (g : Stream → Stream) : OneStream i st [] c (c.modStr i st g) :=
  ⟨rfl, fun _ away => c.core_modStr_other st g away, fun _ other => c.strm_modStr_stream i g other, fun _ _ => rfl⟩

section
variable {i : Nat} {st : Strm} {l : List Nat} {c d : Channel}

theorem oneStream_then_modStr (h : OneStream i st l c d) (g : Stream → Stream) : OneStream i st l c (d.modStr i st g) := by
  obtain ⟨frame, cores, streams, regs⟩ := h
  refine ⟨?frame, fun j away => (d.core_modStr_other st g away).trans (cores j away),
    fun su other => (d.strm_modStr_stream i g other).trans (streams su other), regs⟩
  case frame => rw [d.modStr_frame i st g, frame]

theorem oneStream_then_regs {e : Channel} (h : OneStream i st [] c d) (k : Regs l d e) : OneStream i st l c e := by
  obtain ⟨frame, cores, streams, regs⟩ := h
  obtain ⟨write, kept⟩ := k
  have core (j : Nat) : e.core j = d.core j := by rw [write]; rfl
  refine ⟨?frame, fun j away => (core j).trans (cores j away), fun su other => ?stream,
    fun a other => (kept a other).trans (regs a List.not_mem_nil)⟩
  case frame => rw [write, frame]
  case stream => rw [← streams su other, Channel.strm, core, Channel.strm]

end

/-! ### What an instruction does when it completes -/

/-- The header signal of an instruction that completes (R119). -/
def Channel.headerSignal (c : Channel) (i : Nat) (st : Strm) (f : Flight) : Channel :=
  if iSen f.w then (c.tackAdd i (iStack f.w) 1 (strmNum st + iOpc f.w * 4) f.pc).signalled i st f else c

section
variable {c : Channel} {i : Nat} {st : Strm} {f : Flight}

/-- Neither an effective END, TSIG, RSIG nor SNAP: completion is the header signal alone. -/
theorem Channel.finish_plain (plain : iOpc f.w ∉ [0x001, 0x041, 0x043, 0x206] ∨ f.act = false) : c.finish i st f = c.headerSignal i st f := by
  rcases plain with other | idle
  · simp only [List.mem_cons, List.not_mem_nil, or_false, not_or] at other
    obtain ⟨notEnd, notTsig, notRsig, notSnap⟩ := other
    simp [Channel.finish, Channel.headerSignal, notEnd, notTsig, notRsig, notSnap]
  · simp [Channel.finish, Channel.headerSignal, idle]

theorem Channel.finish_tsig (opc : iOpc f.w = 0x041) (act : f.act = true) :
    c.finish i st f = ((c.tackAdd i (iTack f.w) (iValue f.w) (strmNum st + iOpc f.w * 4) f.pc).signalled i st f).headerSignal i st f := by
  simp [Channel.finish, Channel.headerSignal, opc, act]

theorem Channel.finish_snap (opc : iOpc f.w = 0x206) (act : f.act = true) :
    c.finish i st f = (c.count (Reg.CORE_SNAPS i) 1).headerSignal i st f := by
  simp [Channel.finish, Channel.headerSignal, opc, act]

theorem Channel.headerSignal_none (silent : iSen f.w = false) : c.headerSignal i st f = c := if_neg (by simp [silent])

theorem Channel.headerSignal_fits (signal : iSen f.w = true) (room : c.tack i (iStack f.w) < 0xFFFF) :
    c.headerSignal i st f = (c.setTack i (iStack f.w) (c.tack i (iStack f.w) + 1)).signalled i st f := by
  rw [Channel.headerSignal, if_pos signal, Channel.tackAdd_fits _ room]

/-- R256: a signal from within the re-run window ends its being re-runnable. -/
theorem Channel.strm_signalled :
    (c.signalled i st f).strm i st = { c.strm i st with rerun := (c.strm i st).rerun && decide (f.ord < (c.strm i st).reOrd) } := by
  rw [Channel.signalled, Channel.strm_modStr_same]
  by_cases within : (c.strm i st).reOrd ≤ f.ord
  · simp [within]
  · simp [within, Nat.lt_of_not_le within]

/-- A tack of the core takes a value, and the signal is marked in its stream. -/
theorem oneStream_setTack_signalled {d : Channel} (h : OneStream i st [] c d) (t v : Nat) :
    OneStream i st [Reg.CORE_TACK i t] c ((d.setTack i t v).signalled i st f) :=
  oneStream_then_modStr (oneStream_then_regs h (regs_setTack d i t v)) _

end

/-! ### The head of a stream (R125) -/

/-- The stream without the instruction at its head, before what that does when it completes. -/
def Channel.headGone (c : Channel) (i : Nat) (st : Strm) (t : List Flight) : Channel := c.modStr i st (fun x => { x with flights := t })

theorem Channel.headDone_eq {c : Channel} {i : Nat} {st : Strm} {f : Flight} {t : List Flight} (head : (c.strm i st).flights = f :: t)
    (done : f.ph = .done) (arrived : c.qlines.any (fun e => e.src == i && e.ord == f.ord) = false) :
    c.headDone i st = (c.headGone i st t).finish i st f := by
  simp only [Channel.headDone, head]
  exact if_pos ⟨done, by rw [arrived]; rfl⟩

theorem leavesS_instructionComplete {p : Place} {s : State} (usable : (s.chan p.ch).usable p.site.val = true) :
    LeavesS (.instructionComplete p) s p ((s.chan p.ch).headDone p.site.val p.st) :=
  congrArg (fun d => Host.Outcome.next ({ s.setChan p.ch d with free := s.free + 128 } : State)) (if_pos usable)

/-- Settles O16: the head leaves its stream, and what `finish` does then is one of the cases above. -/
theorem headCompletes : Obligations.HeadCompletes := by
  intro p f t s c i usable head done arrived
  have gone : OneStream i p.st [] c (c.headGone i p.st t) := oneStream_modStr c i p.st _
  have strm : (c.headGone i p.st t).strm i p.st = { c.strm i p.st with flights := t } := Channel.strm_modStr_same ..
  have completes {d : Channel} (e : (c.headGone i p.st t).finish i p.st f = d) : LeavesS (.instructionComplete p) s p d := by
    rw [← e, ← Channel.headDone_eq head done arrived]
    exact leavesS_instructionComplete usable
  refine ⟨fun plain silent => ?silent, fun plain signal room => ?signals, fun opc act silent room => ?tsig, fun opc act silent => ?snap⟩
  case silent => exact ⟨_, completes ((Channel.finish_plain plain).trans (Channel.headerSignal_none silent)), gone, strm⟩
  case signals =>
    refine ⟨_, completes ((Channel.finish_plain plain).trans (Channel.headerSignal_fits signal room)), oneStream_setTack_signalled gone _ _, ?tack, ?stream⟩
    case tack => exact Channel.tack_setTack_same _ i _ room
    case stream => exact Channel.strm_signalled.trans (by rw [show ((c.headGone i p.st t).setTack i _ _).strm i p.st = _ from strm])
  case tsig =>
    have adds : (c.headGone i p.st t).finish i p.st f = _ := (Channel.finish_tsig opc act).trans (Channel.headerSignal_none silent)
    rw [Channel.tackAdd_fits (c.headGone i p.st t) room] at adds
    exact ⟨_, completes adds, oneStream_setTack_signalled gone _ _, Channel.tack_setTack_same _ i _ room⟩
  case snap =>
    exact ⟨_, completes ((Channel.finish_snap opc act).trans (Channel.headerSignal_none silent)), oneStream_then_regs gone (regs_count _ _ 1),
      counted_count (c.headGone i p.st t) _ 1⟩

end Sys2Proof.Machine
end

section
/-! What the mesh and the control network deliver (R48, R59, R63, R65, R119): write flits at their agents, remote tack messages at their cores. -/

namespace Sys2Proof.Machine

open Sys2Proof Sys2Proof.Says

/-! ### Stores into scratchpads -/

/-- A row that the first branch does not give comes from the other one. -/
theorem Row.else_of_ite {P : Prop} [Decidable P] {x y z : Row} (h : (if P then x else y) = z) (other : x ≠ z) : ¬P ∧ y = z := by
  obtain ⟨yes, no⟩ := ite_eq_iff'.mp h
  have out : ¬P := fun p => other (yes p)
  exact ⟨out, no out⟩

theorem Channel.row_spad {c : Channel} {a i o : Nat} (h : c.row a = .spad i o) : 0x4000_0000 ≤ a ∧ a < 0x4C80_0000 := by
  unfold Channel.row at h
  obtain ⟨-, h⟩ := Row.else_of_ite h nofun
  obtain ⟨lo, h⟩ := Row.else_of_ite h nofun
  refine ⟨Nat.le_of_not_lt lo, ?_⟩
  by_contra hi
  rw [if_neg hi] at h
  iterate 9 replace h := (Row.else_of_ite h nofun).2
  cases (Row.else_of_ite h nofun).2

theorem Channel.row_below_bobbins (c : Channel) {a : Nat} (lo : 0x4000_0000 ≤ a) (hi : a < 0x6000_0000) :
    c.row a = .spad ((a - 0x4000_0000) / 0x20_0000) ((a - 0x4000_0000) % 0x20_0000) ∨ c.row a = .hole := by
  rw [Channel.row, if_neg (by omega), if_neg (by omega)]
  by_cases spad : a < 0x4C80_0000
  · exact .inl (if_pos spad)
  · exact .inr ((if_neg spad).trans (if_pos hi))

theorem Channel.stByte_frame_below_bobbins (c : Channel) {a : Nat} (lo : 0x4000_0000 ≤ a) (hi : a < 0x6000_0000) (b : Byte) (offl : Bool) :
    c.stByte a b offl = { c with mem := (c.stByte a b offl).mem } := by
  rcases c.row_below_bobbins lo hi with row | row
  · simp only [Channel.stByte, row]
    split <;> rfl
  · simp only [Channel.stByte, row]

/-- A store that stays between the scratchpads' first byte and the bobbins changes memory alone. -/
theorem Channel.st_frame_below_bobbins (c : Channel) {a : Nat} {data : List Byte} (lo : 0x4000_0000 ≤ a) (hi : a + data.length ≤ 0x6000_0000)
    (offl : Bool) : c.st a offl data = { c with mem := (c.st a offl data).mem } := by
  induction data generalizing c a with
  | nil => rfl
  | cons b t ih =>
    rw [List.length_cons] at hi
    have first := c.stByte_frame_below_bobbins lo (by omega) b offl
    have rest := ih (c.stByte a b offl) (a := a + 1) (by omega) (by omega)
    rw [Channel.st, rest, first]

/-! ### Write flits (R48) -/

/-- The write flit has left its sub-port. -/
def Channel.flitTaken (c : Channel) (f : Flit) : Channel :=
  { c with mesh := { c.mesh with eject := eraseFirst ⟨f.dst.val, .loc, f⟩ c.mesh.eject } }

section
variable {c : Channel} {f : Flit} {fr a : Nat} {data : List Byte}

theorem Channel.meshWrite_waits (h : f.kind.val ≠ 2 ∨ c.meshOldest ⟨f.dst.val, .loc, f⟩ = false ∨ c.meshBusy a data = true) :
    c.meshWrite fr f a data = c :=
  if_pos (by simpa using h)

section
variable (kind : f.kind.val = 2) (oldest : c.meshOldest ⟨f.dst.val, .loc, f⟩ = true) (free : c.meshBusy a data = false)
include kind oldest free

theorem Channel.meshWrite_delivered :
    c.meshWrite fr f a data =
      (if (c.meshHome a).getD (f.dst.val, f.sub.val) = (f.dst.val, f.sub.val) then (c.flitTaken f).meshStore fr f a data
        else c.flitTaken f).meshOffer f.dst.val (flitAck f) :=
  if_neg (by simp [kind, oldest, free])

theorem Channel.meshWrite_astray (away : (c.meshHome a).getD (f.dst.val, f.sub.val) ≠ (f.dst.val, f.sub.val)) :
    c.meshWrite fr f a data = (c.flitTaken f).meshOffer f.dst.val (flitAck f) := by
  rw [Channel.meshWrite_delivered kind oldest free, if_neg away]

theorem Channel.meshWrite_home (home : (c.meshHome a).getD (f.dst.val, f.sub.val) = (f.dst.val, f.sub.val)) :
    c.meshWrite fr f a data = ((c.flitTaken f).meshStore fr f a data).meshOffer f.dst.val (flitAck f) := by
  rw [Channel.meshWrite_delivered kind oldest free, if_pos home]

end

theorem Channel.meshStore_fenced (fenced : c.fencedWindow a = true) : c.meshStore fr f a data = c.count Reg.MESH_FENCEDROP 1 := if_pos fenced

section
variable (served : c.fencedWindow a = false)
include served

theorem Channel.meshStore_memory (memory : c.row a ≠ .regs) : c.meshStore fr f a data = c.busWrite a data := by
  rw [Channel.meshStore, if_neg (by simp [served])]
  split
  · exact absurd ‹_› memory
  · rfl

theorem Channel.meshStore_register (register : c.row a = .regs) (word : data.length = 4) :
    c.meshStore fr f a data = c.regWrite fr (flitMaster f) a (leNat data) := by
  rw [Channel.meshStore, if_neg (by simp [served])]
  simp only [register]
  exact if_pos word

theorem Channel.busWrite_spad {i o : Nat} (row : c.row a = .spad i o) : c.busWrite a data = c.st a false data := by
  simp only [Channel.busWrite, row]
  exact if_neg (by simp [served])

end
end

/-- MESH_WRITE: a flit that cannot be taken waits; one that is taken is acknowledged, whatever is stored. -/
theorem meshWriteStores : MeshWriteStores := by
  intro ch f a data s c b c1 ack home
  refine ⟨fun waits => leavesF_congr rfl (Channel.meshWrite_waits waits), fun kind oldest free => ⟨?astray, ?memory, ?register, ?fenced⟩⟩
  case astray => exact fun away => leavesF_congr rfl (Channel.meshWrite_astray kind oldest free away)
  case memory =>
    intro atHome served memory
    have stores : LeavesF 128 (.meshWrite ch f a data) s ch (ack (c1.busWrite a.toNat data)) :=
      leavesF_congr rfl ((Channel.meshWrite_home kind oldest free atHome).trans
        (congrArg ack (Channel.meshStore_memory (c := c1) served memory)))
    refine ⟨stores, fun ⟨i, o, row⟩ short => ?scratchpad⟩
    case scratchpad =>
      obtain ⟨lo, hi⟩ := Channel.row_spad row
      have spad : c1.busWrite a.toNat data = c1.st a.toNat false data := Channel.busWrite_spad (c := c1) served row
      exact ⟨_, leavesF_congr stores (congrArg ack spad), c1.st_frame_below_bobbins lo (by omega) false, rfl⟩
  case register =>
    intro atHome served register word
    exact leavesF_congr rfl ((Channel.meshWrite_home kind oldest free atHome).trans
      (congrArg ack (Channel.meshStore_register (c := c1) served register word)))
  case fenced =>
    intro atHome fenced
    exact ⟨_, leavesF_congr rfl ((Channel.meshWrite_home kind oldest free atHome).trans
      (congrArg ack (Channel.meshStore_fenced (c := c1) fenced))), regs_count c1 _ 1, counted_count c1 _ 1⟩

/-! ### Remote tacks (R63, R65, R119) -/

/-- The BARRIER message has left the control network. -/
def Channel.takeBarrier (c : Channel) (hdr pay : Word) : Channel := { c with cmsgs := eraseFirst (.barrier hdr pay) c.cmsgs }

section
variable {c : Channel} {hdr pay : Word} {ecc : Ecc} {release : Bool}

theorem Channel.barrierMsgRx_next (next : c.msgNext (.barrier hdr pay) = true) (kind : bits hdr.toNat 10 3 = 1 ↔ release) :
    c.barrierMsgRx release hdr pay ecc = (c.takeBarrier hdr pay).barrierRx hdr.toNat pay.toNat ecc := if_pos ⟨next, kind⟩

theorem Channel.barrierMsgRx_otherKind (kind : ¬(bits hdr.toNat 10 3 = 1 ↔ release)) : c.barrierMsgRx release hdr pay ecc = c :=
  if_neg fun h => kind h.2

end

section
variable {c : Channel} {hdr pay : Nat}

theorem Channel.barrierRx_core (site : bits hdr 22 7 < 100) (usable : c.usable (bits hdr 22 7) = true) :
    c.barrierRx hdr pay .clean = c.takeTack (bits hdr 22 7) hdr pay :=
  (if_neg (by omega)).trans ((if_pos site).trans (if_pos usable))

/-- R63: a double error loses the message. -/
theorem Channel.barrierRx_double : c.barrierRx hdr pay .double = c.raise (mkFault (bits hdr 22 7) fcCnetUncorr none (bits hdr 22 7) hdr) := rfl

variable {i : Nat}

theorem Channel.takeTack_dropped (h : (c.core i).owner ≠ some (bits hdr 6 4) ∨ c.fld (Reg.CORE_TACK i (bits hdr 0 6)) Fl.CORE_TACK_REMOTE = 0) :
    c.takeTack i hdr pay = c.count (Reg.CORE_TACKDROP i) 1 := if_pos (or_assoc.mp (.inl h))

section
variable (owner : (c.core i).owner = some (bits hdr 6 4)) (remote : c.fld (Reg.CORE_TACK i (bits hdr 0 6)) Fl.CORE_TACK_REMOTE = 1)
include owner remote

theorem Channel.takeTack_add (kind : bits hdr 10 3 = 0) : c.takeTack i hdr pay = c.tackAdd i (bits hdr 0 6) (bits pay 0 16) 0 0 :=
  (if_neg (by simp [owner, remote, kind])).trans (if_pos kind)

theorem Channel.takeTack_release (kind : bits hdr 10 3 = 1) :
    c.takeTack i hdr pay = c.setTack i (bits hdr 0 6) (max (c.tack i (bits hdr 0 6)) (bits pay 0 16)) :=
  (if_neg (by simp [owner, remote, kind])).trans (if_neg (by simp [kind]))

end
end

/-- Remote tacks: what the core makes of the message that has left the network. -/
theorem remoteTacks : RemoteTacks := by
  intro ch hdr pay e s c i t v c1 accepts next
  have atCore {release : Bool} (site : i < 100) (usable : c.usable i = true) (kind : bits hdr.toNat 10 3 = 1 ↔ release) :
      c.barrierMsgRx release hdr pay .clean = c1.takeTack i hdr.toNat pay.toNat :=
    (Channel.barrierMsgRx_next next kind).trans (Channel.barrierRx_core (c := c1) site usable)
  refine ⟨?add, ?release, ?dropped, ?double, ?otherKind⟩
  case add =>
    intro site usable kind ⟨owner, remote⟩ room
    have adds := (Channel.takeTack_add (c := c1) (pay := pay.toNat) owner remote kind).trans (Channel.tackAdd_fits c1 room 0 0)
    exact ⟨_, leaves_congr rfl ((atCore site usable (by simp [kind])).trans adds), regs_setTack c1 i t _, c1.tack_setTack_same i t room⟩
  case release =>
    intro site usable kind ⟨owner, remote⟩
    have raises := Channel.takeTack_release (c := c1) (pay := pay.toNat) owner remote kind
    have room : max (c.tack i t) v ≤ 0xFFFF := max_le (c.tack_le i t) (Nat.le_of_lt_succ (bits_lt _ _ _))
    exact ⟨_, leaves_congr rfl ((atCore site usable (by simp [kind])).trans raises), regs_setTack c1 i t _, c1.tack_setTack_same i t room⟩
  case dropped =>
    intro site usable kind refused
    have drops := Channel.takeTack_dropped (c := c1) (pay := pay.toNat) refused
    exact ⟨_, leaves_congr rfl ((atCore site usable (by simp [kind])).trans drops), regs_count c1 _ 1, counted_count c1 _ 1⟩
  case double =>
    intro kind
    have lost : c.barrierMsgRx true hdr pay .double = _ := (Channel.barrierMsgRx_next next (by simp [kind])).trans Channel.barrierRx_double
    refine ⟨_, _, leaves_congr rfl lost, rfl, rfl, Nat.mod_eq_of_lt (bits_lt _ 22 7), Nat.mod_eq_of_lt ?word⟩
    case word => exact Nat.lt_trans hdr.isLt (by decide)
  case otherKind => exact fun kind => leaves_congr rfl (Channel.barrierMsgRx_otherKind (by simp [kind]))

/-- Settles O23: what write flits and remote tack messages do where they arrive. -/
theorem meshArrivals : Obligations.MeshArrivals := ⟨meshWriteStores, remoteTacks⟩

end Sys2Proof.Machine
end

section
/-! Instructions that issued go on (R78, R136, R137, R140, R154, R379, R454): the last of a stream held in a named wait, slabs, drains and
waits for bobbins. -/

namespace Sys2Proof.Machine

open Sys2Proof Sys2Proof.Says

/-! ### A command at a stream -/

/-- At a core in service a command at a stream acts on its channel; then what follows of itself happens. -/
theorem leavesS_of_atStream {i : Instr} {s : State} {p : Place} {g : Channel → Nat → Channel} {d : Channel}
    (row : exec i s = .next (s.atStream p g)) (usable : (s.chan p.ch).usable p.site.val = true) (acts : g (s.chan p.ch) s.free = d) :
    LeavesS i s p d := by
  subst acts
  exact row.trans (congrArg (fun d => Host.Outcome.next ({ s.setChan p.ch d with free := s.free + 128 } : State)) (if_pos usable))

/-! ### The last instruction of a stream, held in a named wait (R78, R379) -/

/-- The channel after the last instruction of a stream, held so far, has run again behind the earlier ones. -/
def Channel.ranAgain (c : Channel) (i : Nat) (st : Strm) (early : List Flight) (f : Flight) (fr : Nat) : Channel :=
  let sp := specOf (iOpc f.w)
  let x := c.againXc i st early f fr
  let r := if sp.zero x then sp.zeroRun x { f with ph := .done } else sp.run x { f with ph := .done }
  r.1.launch i st r.2

section
variable {c : Channel} {i : Nat} {st : Strm} {early : List Flight} {f : Flight} (last : (c.strm i st).flights = early ++ [f])
include last

theorem Channel.rerunLast_runs {ph : Phase} (waits : f.ph = ph) (context : ((c.core i).rcOf f.rc).isSome = true) (fr : Nat) :
    c.rerunLast i st ph fr = c.ranAgain i st early f fr := by
  simp only [Channel.rerunLast, last, List.reverse_append, List.reverse_singleton, List.singleton_append, List.reverse_reverse]
  exact if_pos ⟨waits, context⟩

theorem Channel.rerunLast_otherPhase {ph : Phase} (other : f.ph ≠ ph) (fr : Nat) : c.rerunLast i st ph fr = c := by
  simp only [Channel.rerunLast, last, List.reverse_append, List.reverse_singleton, List.singleton_append]
  exact if_neg fun h => other h.1

end

/-- Whether an E run still reads the buffer that an instruction of the U stream writes (R78). -/
def Channel.versionHeldBy (c : Channel) (i : Nat) (f : Flight) (fr : Nat) : Bool :=
  (c.flightXc i .u f fr).versionHeld (iOpc f.w) ((specOf (iOpc f.w)).roles (c.flightXc i .u f fr).desc f.w)

section
variable {c : Channel} {i : Nat} {early : List Flight} {f : Flight} {fr : Nat} (last : (c.strm i .u).flights = early ++ [f])
include last

theorem Channel.versionEnd_held (held : c.versionHeldBy i f fr = true) : c.versionEnd i fr = c := by
  simp only [Channel.versionEnd, last, List.getLast?_concat]
  exact if_pos held

theorem Channel.versionEnd_free (free : c.versionHeldBy i f fr = false) : c.versionEnd i fr = c.rerunLast i .u .version fr := by
  simp only [Channel.versionEnd, last, List.getLast?_concat]
  exact if_neg (Bool.eq_false_iff.mp free)

end

/-- VERSION_WAIT_END and BUCKET_SLOT_FREE: what `rerunLast` does with the last instruction. -/
theorem heldInstructionRuns : HeldInstructionRuns := by
  intro ⟨ch, site, st⟩ early f s c i go usable context held
  have versionRow {d : Channel} (isU : st = .u) (acts : c.versionEnd i s.free = d) : LeavesS (.versionWaitEnd ch site) s ⟨ch, site, st⟩ d := by
    subst isU; exact leavesS_of_atStream rfl usable acts
  have slotRow {d : Channel} (acts : c.rerunLast i st .slot s.free = d) : LeavesS (.bucketSlotFree ⟨ch, site, st⟩) s ⟨ch, site, st⟩ d :=
    leavesS_of_atStream rfl usable acts
  refine ⟨fun isU last waits free => ?version, fun isU last busy => versionRow isU (Channel.versionEnd_held last busy),
    fun last waits => slotRow (Channel.rerunLast_runs last waits context s.free), fun isU last other => ?otherWait,
    fun last other => slotRow (Channel.rerunLast_otherPhase last other s.free)⟩
  case version => exact versionRow isU ((Channel.versionEnd_free last free).trans (Channel.rerunLast_runs last waits context s.free))
  case otherWait =>
    refine versionRow isU ?_
    cases busy : c.versionHeldBy i f s.free
    · exact (Channel.versionEnd_free last busy).trans (Channel.rerunLast_otherPhase last other s.free)
    · exact Channel.versionEnd_held last busy

/-! ### The first instruction of a stream that can move -/

section
variable {c : Channel} {i : Nat} {st : Strm} {g : Nat → Flight → StepRes}

/-- Instructions that cannot move are passed over. -/
theorem Channel.stepFirst_skips {skipped : List Nat} (later : List Nat)
    (still : ∀ n ∈ skipped, ∀ f, (c.strm i st).flights[n]? = some f → g n f = none) (present : ∀ n ∈ skipped, n < (c.strm i st).flights.length) :
    c.stepFirst i st g (skipped ++ later) = c.stepFirst i st g later := by
  induction skipped with
  | nil => rfl
  | cons n t ih =>
    have found := List.getElem?_eq_getElem (present n List.mem_cons_self)
    simp only [List.cons_append, Channel.stepFirst, found, still n List.mem_cons_self _ found]
    exact ih (fun m mem => still m (List.mem_cons_of_mem n mem)) (fun m mem => present m (List.mem_cons_of_mem n mem))

theorem Channel.stepFirst_none (still : ∀ n, ∀ f ∈ (c.strm i st).flights, g n f = none) : c.stepFirst i st g (c.flightNums i st) = c := by
  rw [← List.append_nil (c.flightNums i st)]
  exact Channel.stepFirst_skips [] (fun n _ f found => still n f (List.mem_of_getElem? found)) (fun _ mem => List.mem_range.mp mem)

theorem Channel.stepFirst_moves {pre post : List Flight} {f f1 : Flight} {c1 : Channel} (flights : (c.strm i st).flights = pre ++ f :: post)
    (still : ∀ n, ∀ h ∈ pre, g n h = none) (moves : g pre.length f = some (c1, f1)) :
    c.stepFirst i st g (c.flightNums i st) = c1.putStep i st pre.length f1 := by
  have nums : c.flightNums i st = List.range pre.length ++ pre.length :: (List.range post.length).map (pre.length + 1 + ·) := by
    rw [Channel.flightNums, flights, List.length_append, List.length_cons, Nat.add_comm post.length 1, ← Nat.add_assoc, List.range_add,
      List.range_succ, List.append_assoc, List.singleton_append]
  have front {n : Nat} (mem : n ∈ List.range pre.length) : (c.strm i st).flights[n]? = pre[n]? := by
    rw [flights, List.getElem?_append_left (List.mem_range.mp mem)]
  have here : (c.strm i st).flights[pre.length]? = some f := by simp [flights]
  rw [nums, Channel.stepFirst_skips _ ?passed ?present]
  case passed => exact fun n mem h found => still n h (List.mem_of_getElem? ((front mem).symm.trans found))
  case present =>
    intro n mem
    have := List.mem_range.mp mem
    simp only [flights, List.length_append, List.length_cons]; omega
  simp only [Channel.stepFirst, here, moves]

end

/-! ### Slabs, drains and waits for bobbins -/

section
variable {c : Channel} {i : Nat} {st : Strm} {ecc : List (Nat × Ecc)} {fr : Nat}

/-- R55: a stopped clock keeps every slab out. -/
theorem Channel.slabStep_gated (gated : c.arrayGated i = true) : c.slabStep i st ecc fr = c := if_pos gated

theorem Channel.slabStep_none (still : ∀ g ∈ (c.strm i st).flights, g.ph ≠ .walk) : c.slabStep i st ecc fr = c :=
  ite_eq_left_iff.mpr fun _ => Channel.stepFirst_none fun _ g mem => if_neg (still g mem)

theorem Channel.drainStep_none (still : ∀ g ∈ (c.strm i st).flights, g.ph ≠ .walk ∧ g.ph ≠ .stopped) : c.drainStep i st ecc fr = c :=
  Channel.stepFirst_none fun _ g mem => if_neg (not_or.mpr (still g mem))

theorem Channel.bobbinStart_none (still : ∀ g ∈ (c.strm i st).flights, g.ph ≠ .bobbins) : c.bobbinStart i st fr = c :=
  Channel.stepFirst_none fun _ g mem => if_neg (still g mem)

section
variable {pre post : List Flight} {f f1 : Flight} {c1 : Channel} (flights : (c.strm i st).flights = pre ++ f :: post)
include flights

/-- R136, R145, R173: a slab, or an attention slot, of the first instruction that walks. -/
theorem Channel.slabStep_moves (still : ∀ g ∈ pre, g.ph ≠ .walk) (walks : f.ph = .walk) (runs : c.arrayGated i = false)
    (moves : (if isAttn (iOpc f.w) then (c.flightXc i st f fr).attStep c f ecc else (c.flightXc i st f fr).mmStep c f ecc) = some (c1, f1)) :
    c.slabStep i st ecc fr = c1.putStep i st pre.length f1 :=
  (if_neg (Bool.eq_false_iff.mp runs)).trans
    (Channel.stepFirst_moves flights (fun _ g mem => if_neg (still g mem)) ((if_pos walks).trans moves))

/-- R137, R154: a drain of the first instruction that walks or that a fault has stopped; the one behind it may take what drains (R271). -/
theorem Channel.drainStep_moves (still : ∀ g ∈ pre, g.ph ≠ .walk ∧ g.ph ≠ .stopped) (drains : f.ph = .walk ∨ f.ph = .stopped)
    (moves : (if isAttn (iOpc f.w) then (c.flightXc i st f fr).attDrain c f ecc
      else (c.flightXc i st f fr).mmDrain c f (f.takes post.head?) ecc) = some (c1, f1)) :
    c.drainStep i st ecc fr = c1.putStep i st pre.length f1 := by
  have behind : (c.strm i st).flights[pre.length + 1]? = post.head? := by
    rw [flights, List.getElem?_append_right (Nat.le_succ _), Nat.succ_sub (Nat.le_refl _), Nat.sub_self, List.getElem?_cons_succ, List.head?_eq_getElem?]
  refine Channel.stepFirst_moves flights (fun _ g mem => if_neg (not_or.mpr (still g mem))) ((if_pos drains).trans ?_)
  simp only [behind]
  exact moves

/-- R140: the first instruction that waits for bobbins starts. -/
theorem Channel.bobbinStart_moves (still : ∀ g ∈ pre, g.ph ≠ .bobbins) (waits : f.ph = .bobbins)
    (moves : (if isAttn (iOpc f.w) then (c.flightXc i st f fr).attStart c f
      else if iOpc f.w = 0x180 then specReduce.run (c.flightXc i st f fr) f else (c.flightXc i st f fr).mmStart c f) = (c1, f1)) :
    c.bobbinStart i st fr = c1.putStep i st pre.length f1 := by
  refine Channel.stepFirst_moves flights (fun _ g mem => if_neg (still g mem)) ((if_pos waits).trans ?_)
  rw [← moves]
  simp only [apply_ite some]

end
end

/-- SLAB_ENTER, BOBBIN_DRAIN and BOBBIN_WAIT_END: each case by the equation of its step there. -/
theorem slabsAndDrains : SlabsAndDrains := by
  intro p pre post f f1 c1 ecc s c i x found put usable
  have slabRow {d : Channel} (acts : c.slabStep i p.st found s.free = d) : LeavesS (.slabEnter p .clean ecc) s p d :=
    leavesS_of_atStream rfl usable acts
  have drainRow {d : Channel} (acts : c.drainStep i p.st found s.free = d) : LeavesS (.bobbinDrain p ecc) s p d :=
    leavesS_of_atStream rfl usable acts
  have startRow {d : Channel} (acts : c.bobbinStart i p.st s.free = d) : LeavesS (.bobbinWaitEnd p) s p d :=
    leavesS_of_atStream rfl usable acts
  refine ⟨fun flights => ⟨?slab, ?drain, ?start⟩, fun still => slabRow (Channel.slabStep_none still),
    fun still => drainRow (Channel.drainStep_none still), fun still => startRow (Channel.bobbinStart_none still),
    fun gated => slabRow (Channel.slabStep_gated gated), fun which e => ?double⟩
  case slab => exact fun still walks runs moves => slabRow (Channel.slabStep_moves flights still walks runs moves)
  case drain => exact fun still drains moves => drainRow (Channel.drainStep_moves flights still drains moves)
  case start => exact fun still waits moves => startRow (Channel.bobbinStart_moves flights still waits moves)
  case double => exact ⟨c.raise (mkFault i fcCoreLogic (c.core i).owner which.val e.toNat), leavesS_of_atStream rfl usable rfl, rfl⟩

/-- Settles O19: waits that end, slabs, drains and bobbins. -/
theorem heldAndMovingInstructions : Obligations.HeldAndMovingInstructions := ⟨heldInstructionRuns, slabsAndDrains⟩

end Sys2Proof.Machine
end

section
/-! Queues between cores (R178, R179, R181, R187, R191, R194): a line at its consumer, a credit at its producer, a queue that starts to spill. -/

namespace Sys2Proof.Machine

open Sys2Proof Sys2Proof.Says

/-! ### Queues of a core -/

/-- Of two writes of a key the second stands: also in a map out of its canonical form, if the first leaves an entry. -/
theorem mset_mset {α : Type} [DecidableEq α] (d : Nat → α) {k : Nat} {v : α} (kept : v ≠ d k) (w : α) (m : List (Nat × α)) :
    mset d (mset d m k v) k w = mset d m k w := by
  induction m with
  | nil => simp [mset, kept]
  | cons e t ih =>
    obtain ⟨j, u⟩ := e
    rcases Nat.lt_trichotomy k j with below | here | above
    · rw [show mset d ((j, u) :: t) k v = (k, v) :: (j, u) :: t by simp [mset, kept, below]]
      by_cases gone : w = d k
      · simp [mset, gone]
      · simp [mset, gone, below]
    · subst here; simp [mset, kept]
    · simp [mset, kept, ih, Nat.not_lt_of_gt above, Nat.ne_of_gt above, Nat.ne_of_lt above]

@[simp] theorem Core.queue_setQueue_same (k : Core) (q : Nat) (y : Queue) : (k.setQueue q y).queue q = y := mget_mset_same _ _ _ _

theorem Core.setQueue_setQueue (k : Core) (q : Nat) {y : Queue} (kept : y ≠ Queue.reset) (z : Queue) :
    (k.setQueue q y).setQueue q z = k.setQueue q z :=
  congrArg (fun m => { k with queues := m }) (mset_mset (fun _ => Queue.reset) (k := q) kept z k.queues)

/-! ### A line at its consumer (R178, R181, R187, R194) -/

section
variable {c : Channel} {i q : Nat}

theorem Channel.spillCredits_calm (calm : ((c.core i).queue q).spill = false) : c.spillCredits i q = c := by
  simp only [Channel.spillCredits, calm]
  split <;> rfl

/-- R187: the queue, not spilling, has taken a line behind those that it holds. -/
theorem Channel.storeLine_fifo (l : QLine) (calm : ((c.core i).queue q).spill = false) (room : ((c.core i).queue q).fifo.length < 64) :
    c.storeLine i q l = c.setCore i ((c.core i).setQueue q
      { (c.core i).queue q with h := ((c.core i).queue q).h + 1, fifo := ((c.core i).queue q).fifo ++ [l] }) := by
  simp only [Channel.storeLine, calm, Bool.false_eq_true, false_and, if_false, if_pos room]
  exact Channel.spillCredits_calm (by simp)

/-- R194: whether the header d comes from another epoch than that of the core's owner; a core without owner is in none. -/
def Channel.staleHeader (c : Channel) (i d : Nat) : Bool :=
  match (c.core i).owner with
  | some x => hConfig d != c.config x
  | none => true

theorem Channel.staleHeader_current {x d : Nat} (owner : (c.core i).owner = some x) (epoch : hConfig d = c.config x) :
    c.staleHeader i d = false := by
  simp [Channel.staleHeader, owner, epoch]

variable {src : Nat} {l : QLine} (site : ((c.core i).queue q).psite = none ∨ ((c.core i).queue q).psite = some src) (hdr : l.hdr = true)
include site hdr

/-- R181: the header of a frame from the recorded site, or the first of all. -/
theorem Channel.takeLine_header : c.takeLine i q src l =
    if c.staleHeader i l.data.toNat then
      (c.setCore i ((c.core i).setQueue q { (c.core i).queue q with drop := hLines l.data.toNat })).dropLine i q src (Reg.CORE_EPFLUSH i)
    else (c.setCore i ((c.core i).setQueue q { (c.core i).queue q with drop := 0, psite := some src })).storeLine i q l := by
  have known : (match ((c.core i).queue q).psite with | some p => p != src | none => false) = false := by
    rcases site with first | recorded
    · rw [first]
    · rw [recorded]; exact bne_self_eq_false src
  exact (if_neg (Bool.eq_false_iff.mp known)).trans (if_pos hdr)

/-- R178, R187: a header of the owner's epoch is stored behind the lines of the queue, whose producer is recorded. -/
theorem Channel.takeLine_stored (current : c.staleHeader i l.data.toNat = false) (calm : ((c.core i).queue q).spill = false)
    (room : ((c.core i).queue q).fifo.length < 64) :
    RegsCore [] i ((c.core i).setQueue q { (c.core i).queue q with
      drop := 0, psite := some src, h := ((c.core i).queue q).h + 1, fifo := ((c.core i).queue q).fifo ++ [l] }) c (c.takeLine i q src l) := by
  let y : Queue := { (c.core i).queue q with drop := 0, psite := some src }
  have queue : ((c.setCore i ((c.core i).setQueue q y)).core i).queue q = y := by simp
  have recorded : y ≠ Queue.reset := fun h => nomatch (congrArg Queue.psite h)
  rw [Channel.takeLine_header site hdr, if_neg (Bool.eq_false_iff.mp current),
    Channel.storeLine_fifo l (by rw [queue]; exact calm) (by rw [queue]; exact room), queue, Channel.core_setCore_same,
    Core.setQueue_setQueue _ _ recorded]
  exact ⟨rfl, Channel.core_setCore_same _ _ _, fun j away => (Channel.core_setCore_other _ _ away).trans (c.core_setCore_other _ away), fun _ _ => rfl⟩

/-- R194: a header of another epoch is counted and goes, as will the lines of its frame; its credit goes back. -/
theorem Channel.takeLine_stale (stale : c.staleHeader i l.data.toNat = true) : c.takeLine i q src l =
    (c.setCore i ((c.core i).setQueue q { (c.core i).queue q with drop := hLines l.data.toNat })).dropLine i q src (Reg.CORE_EPFLUSH i) :=
  (Channel.takeLine_header site hdr).trans (if_pos stale)

end

/-- What is left of a discarded line: a count and a credit on its way (R179). -/
theorem Channel.dropLine_effect (c : Channel) (i q src reg : Nat) :
    Counted reg 1 c (c.dropLine i q src reg) ∧ (c.dropLine i q src reg).qcreds = c.qcreds ++ [⟨i, src, q⟩] ∧
    (c.dropLine i q src reg).mem = c.mem ∧ ∀ j, (c.dropLine i q src reg).core j = c.core j :=
  ⟨counted_count c reg 1, rfl, rfl, fun j => c.core_count reg 1 j⟩

/-! ### The rows of lines -/

/-- The channel after line e has come off its way. -/
def Channel.lineTaken (c : Channel) (e : QFlight) : Channel := { c with qlines := eraseFirst e c.qlines }

section
variable {ch : Chan} {site src : Site} {q : Fin 8} {l : QLine} {e : QFlight} {s : State}
  (oldest : (s.chan ch).qlines.find? (fun e => e.src == src.val && e.dst == site.val && e.q == q.val) = some e) (line : e.line = l)
include oldest line

theorem leaves_queueLineArrive : Leaves (.queueLineArrive ch site q src l) s ch
    (if (s.chan ch).enabled site.val && (s.chan ch).fenced site.val then ((s.chan ch).lineTaken e).count Reg.MESH_FENCEDROP 1
      else if !(s.chan ch).usable site.val then (s.chan ch).lineTaken e
      else (((s.chan ch).lineTaken e).takeLine site.val q.val src.val l).pumpRecvs site.val) := by
  refine congrArg (fun d => Host.Outcome.next (s.setChan ch d)) ?_
  simp only [oldest]
  exact if_pos line

theorem leaves_queueLineArrive_fenced (enabled : (s.chan ch).enabled site.val = true) (fenced : (s.chan ch).fenced site.val = true) :
    Leaves (.queueLineArrive ch site q src l) s ch (((s.chan ch).lineTaken e).count Reg.MESH_FENCEDROP 1) :=
  leaves_congr (leaves_queueLineArrive oldest line) (if_pos (by rw [enabled, fenced]; rfl))

theorem leaves_queueLineArrive_disabled (disabled : (s.chan ch).enabled site.val = false) :
    Leaves (.queueLineArrive ch site q src l) s ch ((s.chan ch).lineTaken e) :=
  leaves_congr (leaves_queueLineArrive oldest line) ((if_neg (by simp [disabled])).trans (if_pos (by simp [Channel.usable, disabled])))

theorem leaves_queueLineArrive_usable (usable : (s.chan ch).usable site.val = true) : Leaves (.queueLineArrive ch site q src l) s ch
    ((((s.chan ch).lineTaken e).takeLine site.val q.val src.val l).pumpRecvs site.val) := by
  obtain ⟨-, served⟩ : (s.chan ch).enabled site.val = true ∧ (s.chan ch).fenced site.val = false := by simpa [Channel.usable] using usable
  exact leaves_congr (leaves_queueLineArrive oldest line) ((if_neg (by simp [served])).trans (if_neg (by simp [usable])))

end

/-- QUEUE_LINE_ARRIVE: the line comes off its way; the rest is what `takeLine` does with it at a core in service. -/
theorem queueLineArrives : QueueLineArrives := by
  intro ch site src q l e s c i y c1 oldest line
  refine ⟨fun enabled fenced => ⟨_, leaves_queueLineArrive_fenced oldest line enabled fenced, regs_count c1 _ 1, counted_count c1 _ 1⟩,
    fun disabled => leaves_queueLineArrive_disabled oldest line disabled, fun usable known hdr ⟨x, owner, epoch⟩ calm room => ?stored,
    fun usable known hdr stale => ?stale⟩
  case stored =>
    exact ⟨_, leaves_queueLineArrive_usable oldest line usable,
      Channel.takeLine_stored (c := c1) known hdr (Channel.staleHeader_current owner epoch) calm room⟩
  case stale =>
    have drops := Channel.takeLine_stale (c := c1) known hdr stale
    obtain ⟨counted, creds, mem, core⟩ := Channel.dropLine_effect
      (c1.setCore i ((c1.core i).setQueue q.val { (c1.core i).queue q.val with drop := hLines l.data.toNat })) i q.val src.val (Reg.CORE_EPFLUSH i)
    refine ⟨_, leaves_congr (leaves_queueLineArrive_usable oldest line usable) (congrArg (Channel.pumpRecvs · i) drops), counted, creds, mem, ?_⟩
    rw [core, Channel.core_setCore_same]
    exact Core.queue_setQueue_same _ _ _

/-! ### Credits and starvation (R179, R190, R191) -/

section
variable (c : Channel) (i q : Nat)

theorem Channel.giveCredits_eq (prod n : Nat) :
    (List.range n).foldl (fun c _ => c.giveCredit i q prod) c = { c with qcreds := c.qcreds ++ List.replicate n ⟨i, prod, q⟩ } := by
  induction n with
  | zero => rw [List.replicate_zero, List.append_nil]; rfl
  | succ n ih =>
    rw [List.range_succ, List.foldl_append, ih, List.replicate_succ', ← List.append_assoc]
    rfl

/-- R188: credits are on their way and H is less by their number, or nothing happens. -/
theorem Channel.spillCredits_cases : c.spillCredits i q = c ∨
    ∃ h l, c.spillCredits i q = { c.setCore i ((c.core i).setQueue q { (c.core i).queue q with h := h }) with qcreds := l } := by
  simp only [Channel.spillCredits]
  split
  · split
    · exact .inr ⟨_, _, Channel.giveCredits_eq ..⟩
    · exact .inl rfl
  · exact .inl rfl

/-- The credits that a spilling queue returns leave its lines, the registers and the memory as they are. -/
theorem Channel.spillCredits_keeps :
    (((c.spillCredits i q).core i).queue q).spill = ((c.core i).queue q).spill ∧
    (((c.spillCredits i q).core i).queue q).fifo = ((c.core i).queue q).fifo ∧
    (c.spillCredits i q).mem = c.mem ∧ (c.spillCredits i q).regs = c.regs := by
  rcases c.spillCredits_cases i q with kept | ⟨h, l, returned⟩
  · rw [kept]; exact ⟨rfl, rfl, rfl, rfl⟩
  · have queue : ((c.spillCredits i q).core i).queue q = { (c.core i).queue q with h := h } := by
      rw [returned]
      exact (congrArg (Core.queue · q) (c.core_setCore_same i _)).trans (Core.queue_setQueue_same _ _ _)
    exact ⟨by rw [queue], by rw [queue], by rw [returned]; rfl, by rw [returned]; rfl⟩

/-- R187: the queue spills, with the lines that it held. -/
theorem Channel.startSpill_starts (ring : c.ringLines i ≠ 0) :
    (((c.startSpill i q).core i).queue q).spill = true ∧ (((c.startSpill i q).core i).queue q).fifo = ((c.core i).queue q).fifo ∧
    (c.startSpill i q).mem = c.mem ∧ (c.startSpill i q).regs = c.regs := by
  obtain ⟨spill, fifo, mem, regs⟩ := (c.setCore i ((c.core i).setQueue q { (c.core i).queue q with spill := true })).spillCredits_keeps i q
  rw [Channel.startSpill, if_neg ring]
  exact ⟨spill.trans (by simp), fifo.trans (by simp), mem, regs⟩

end

/-- CREDIT_RETURN and QUEUE_STARVED: a credit that is on its way, and a full queue that the detector finds. -/
theorem creditsAndStarvation : CreditsAndStarvation := by
  intro ch site cons q s c i e y
  have creditRow {d : Channel} (acts : (if e ∈ c.qcreds then _ else c) = d) : Leaves (.creditReturn ch site cons q) s ch d :=
    congrArg (fun d => Host.Outcome.next (s.setChan ch d)) acts
  have starvedRow {d : Channel} (acts : (if (c.core i).owner.isSome && c.fld Reg.SPAT_DLCFG Fl.SPAT_DLCFG_QWIN != 0 && y.fifo.length == 64 && !y.spill &&
      c.ringLines i != 0 then (c.startSpill i q.val).count Reg.SPAT_DLSPILL 1 else c) = d) : Leaves (.queueStarved ch site q) s ch d :=
    congrArg (fun d => Host.Outcome.next (s.setChan ch d)) acts
  refine ⟨fun onWay => ⟨_, creditRow (if_pos onWay), rfl, Channel.core_setCore_same _ _ _, fun j away => Channel.core_setCore_other _ _ away, fun _ _ => rfl⟩,
    fun absent => creditRow (if_neg absent), fun owned window full calm ring => ?starved, fun off => starvedRow (if_neg (by simp [off]))⟩
  case starved =>
    obtain ⟨spill, fifo, mem, regs⟩ := c.startSpill_starts i q.val ring
    have rd (a : Nat) : (c.startSpill i q.val).rd a = c.rd a := congrArg (fun m => (mget regDefault m a).toNat) regs
    refine ⟨_, starvedRow (if_pos (by simp [owned, window, full, calm, ring])), ?_, ?_, ?_, ?_, ?_⟩
    · rw [Counted, ← rd]; exact counted_count _ _ 1
    · rw [Channel.core_count]; exact spill
    · rw [Channel.core_count]; exact fifo
    · rw [Channel.count_frame]; exact mem
    · exact fun a other => (Channel.rd_count_other _ 1 other).trans (rd a)

/-- Settles O21: lines at their consumer, credits at their producer, and queues that start to spill. -/
theorem queueLinesAndCredits : Obligations.QueueLinesAndCredits := ⟨queueLineArrives, creditsAndStarvation⟩

end Sys2Proof.Machine
end

section
/-! The seed of stochastic rounding (R212): its two registers at reset and under a write. -/

namespace Sys2Proof.Machine

open Sys2Proof Sys2Proof.Says

/-! ### A context in STEP or RINSE -/

theorem Channel.ctxState_lt (c : Channel) (x : Nat) : c.ctxState x < 4 := bits_lt _ _ _

/-- STEP and RINSE are the states from 2 on. -/
theorem Channel.anyBusy_iff (c : Channel) : c.anyBusy = true ↔ ∃ x : Fin 16, c.ctxState x.val = ctxStep ∨ c.ctxState x.val = ctxRinse := by
  have busy (x : Nat) : 2 ≤ c.ctxState x ↔ c.ctxState x = ctxStep ∨ c.ctxState x = ctxRinse := by
    have lt := c.ctxState_lt x
    simp only [ctxStep, ctxRinse]
    omega
  simp only [Channel.anyBusy, List.any_eq_true, List.mem_range, decide_eq_true_eq, busy]
  exact ⟨fun ⟨x, lt, h⟩ => ⟨⟨x, lt⟩, h⟩, fun ⟨x, h⟩ => ⟨x.val, x.isLt, h⟩⟩

/-! ### The registers of the seed -/

/-- NUM_SRSEEDL or NUM_SRSEEDH. -/
abbrev SeedReg (a : Nat) : Prop := a = Reg.NUM_SRSEEDL ∨ a = Reg.NUM_SRSEEDH

/-- A seed register is one read-write word. -/
theorem regRow_seed {a : Nat} (h : SeedReg a) : ∃ name base, regRow a = some ⟨name, base, [], [⟨0, 32, .rw, 0x0⟩]⟩ := by
  rcases h with rfl | rfl
  · exact ⟨"NUM_SRSEEDL", 0x2404, by decide +kernel⟩
  · exact ⟨"NUM_SRSEEDH", 0x2408, by decide +kernel⟩

theorem rd_reset_seed {a : Nat} (h : SeedReg a) (ch : Chan) : (State.reset.chan ch).rd a = 0 := by
  obtain ⟨name, base, row⟩ := regRow_seed h
  have unwritten : (State.reset.chan ch).regs = [] := by match ch with | 0 | 1 | 2 | 3 => rfl
  rw [Channel.rd, unwritten, mget_nil, regDefault, row]
  rfl

/-- A read-write word takes all of a write. -/
theorem Channel.rd_plainWrite_seed {a : Nat} (h : SeedReg a) (c : Channel) (v : Word) : (c.plainWrite a v.toNat).rd a = v.toNat := by
  obtain ⟨name, base, row⟩ := regRow_seed h
  have lt := v.isLt
  simp only [Channel.plainWrite, row, rowWrite, List.foldl, fieldWrite, Channel.rd_wr_same, setBits_eq, bits_eq]
  omega

/-- R212: the block takes a write of the seed only while no context is in STEP or RINSE. -/
theorem Channel.regWrite_seed {c : Channel} {m : Master} {a : Nat} (h : SeedReg a) (may : c.mayWrite m a = true) (fr v : Nat) :
    c.regWrite fr m a v = if c.anyBusy then c else c.plainWrite a v := by
  obtain ⟨name, base, row⟩ := regRow_seed h
  have aligned : a % 4 = 0 := by rcases h with rfl | rfl <;> decide
  have outside : inCoreBlock a = false := by rcases h with rfl | rfl <;> decide
  have block : c.blockWrite fr m a v = if c.anyBusy then c else c.plainWrite a v := by rcases h with rfl | rfl <;> rfl
  simp [Channel.regWrite, aligned, row, may, outside, block]

theorem leavesF_registerWrite_seed {s : State} {ch : Chan} {m : Master} {a : BitVec 48} (h : SeedReg a.toNat) (lands : Lands s ch m a.toNat)
    (v : Word) :
    LeavesF 128 (.registerWrite (some ch) m a v none) s ch
      (if (s.chan ch).anyBusy then s.chan ch else (s.chan ch).plainWrite a.toNat v.toNat) := by
  have ⟨_, _, _, _, _, may⟩ := lands
  have apart : inMsix a.toNat = false := by rcases h with e | e <;> rw [e] <;> decide
  rw [← Channel.regWrite_seed h may s.free]
  exact congrArg Host.Outcome.next (State.regTo_of_lands lands apart _)

/-- Settles O60: the reset value from the register's row; a write by whether a context is in STEP or RINSE. -/
theorem seedRegisters : Obligations.SeedRegisters := by
  intro ch m v a s c row seed
  refine ⟨rd_reset_seed seed ch, fun lands rest => ?accepted, fun lands busy => ?kept⟩
  case accepted =>
    have idle : ¬ c.anyBusy = true := by
      rw [Channel.anyBusy_iff]
      rintro ⟨x, step | rinse⟩
      · exact (rest x).1 step
      · exact (rest x).2 rinse
    refine ⟨_, leavesF_congr (leavesF_registerWrite_seed seed lands v) (if_neg idle), ⟨c.plainWrite_frame _ _, fun b other => ?others⟩,
      c.rd_plainWrite_seed seed v⟩
    case others => exact c.rd_plainWrite_other _ (List.ne_of_not_mem_cons other)
  case kept => exact leavesF_congr (leavesF_registerWrite_seed seed lands v) (if_pos (c.anyBusy_iff.mpr busy))

end Sys2Proof.Machine
end

section
/-! Parity errors of the scratchpad (R254 to R258) and the checks of the watch (R222). -/

namespace Sys2Proof.Machine

open Sys2Proof Sys2Proof.Says

/-! ### Registers, cores and faults: what updates leave -/

section
variable {l m : List Nat} {c d e : Channel}

theorem regs_mono (h : Regs l c d) (sub : l ⊆ m) : Regs m c d := by
  obtain ⟨frame, kept⟩ := h
  exact ⟨frame, fun a other => kept a fun here => other (sub here)⟩

theorem regs_trans (h : Regs l c d) (k : Regs m d e) : Regs (l ++ m) c e := by
  obtain ⟨frame, kept⟩ := h
  obtain ⟨write, stays⟩ := k
  refine ⟨?frame, fun a other => ?kept⟩
  case frame => rw [write, frame]
  case kept =>
    rw [List.mem_append, not_or] at other
    obtain ⟨first, second⟩ := other
    exact (stays a second).trans (kept a first)

theorem regs_wr (c : Channel) (a v : Nat) : Regs [a] c (c.wr a v) :=
  ⟨c.wr_frame a v, fun _ other => c.rd_wr_other v (List.ne_of_not_mem_cons other)⟩

theorem core_of_regs (h : Regs l c d) (j : Nat) : d.core j = c.core j := by
  obtain ⟨frame, -⟩ := h
  rw [frame]
  rfl

theorem strm_of_regs (h : Regs l c d) (j : Nat) (st : Strm) : d.strm j st = c.strm j st := congrArg (Core.str · st) (core_of_regs h j)

theorem faultq_of_regs (h : Regs l c d) : d.faultq = c.faultq := by
  obtain ⟨frame, -⟩ := h
  rw [frame]

theorem mem_of_regs (h : Regs l c d) : d.mem = c.mem := by
  obtain ⟨frame, -⟩ := h
  rw [frame]

/-- A field of a register that a write leaves alone. -/
theorem fld_of_regs (h : Regs l c d) {a : Nat} (other : a ∉ l) (f : Fld) : d.fld a f = c.fld a f := by
  obtain ⟨-, kept⟩ := h
  rw [Channel.fld, kept a other, Channel.fld]

/-- A count goes on from what its register held before others were written. -/
theorem counted_after_regs (h : Regs l c d) {a n : Nat} (other : a ∉ l) (k : Counted a n d e) : Counted a n c e := by
  obtain ⟨-, kept⟩ := h
  rwa [Counted, kept a other] at k

/-- A count stands while others are written. -/
theorem counted_then_regs {a n : Nat} (h : Counted a n c d) (k : Regs l d e) (other : a ∉ l) : Counted a n c e := by
  obtain ⟨-, kept⟩ := k
  exact (kept a other).trans h

/-- A core is replaced, and registers are written. -/
theorem regsCore_of_regs {i : Nat} {k : Core} (h : Regs l (c.setCore i k) d) : RegsCore l i k c d := by
  have core := core_of_regs h
  obtain ⟨frame, kept⟩ := h
  refine ⟨?frame, (core i).trans (c.core_setCore_same i k), fun j away => (core j).trans (c.core_setCore_other k away), kept⟩
  case frame =>
    rw [frame]
    rfl

theorem oneStream_of_regs (h : Regs l c d) (i : Nat) (st : Strm) : OneStream i st l c d :=
  oneStream_then_regs ⟨rfl, fun _ _ => rfl, fun _ _ => rfl, fun _ _ => rfl⟩ h

/-- Of a core what is not its streams may change too. -/
theorem oneStream_then_setCore {i : Nat} {st : Strm} {k : Core} (h : OneStream i st l c d) (kept : ∀ su, k.str su = (d.core i).str su) :
    OneStream i st l c (d.setCore i k) := by
  obtain ⟨frame, cores, streams, regs⟩ := h
  refine ⟨?frame, fun j away => (d.core_setCore_other k away).trans (cores j away), fun su other => ?stream, regs⟩
  case frame => rw [Channel.setCore, frame]
  case stream => rw [← streams su other, Channel.strm, Channel.core_setCore_same, kept, Channel.strm]

end

theorem code_mkFault {code : Nat} (h : code < 256) (node : Nat) (x : Option Nat) (a b : Nat) : (mkFault node code x a b).code.toNat = code :=
  Nat.mod_eq_of_lt h

theorem arg1_mkFault {b : Nat} (h : b < 2 ^ 64) (node code : Nat) (x : Option Nat) (a : Nat) : (mkFault node code x a b).arg1.toNat = b := by
  rw [mkFault, BitVec.toNat_ofNat, Nat.mod_eq_of_lt h]

theorem node_mkFault {node : Nat} (h : node < 100) (code : Nat) (x : Option Nat) (a b : Nat) : (mkFault node code x a b).node.val = node :=
  Nat.mod_eq_of_lt (Nat.lt_trans h (by decide))

/-! ### The record of a parity error (R254) -/

/-- The record takes an error: its source and its word, and is valid. -/
def Channel.recordParity (c : Channel) (i source word : Nat) : Channel :=
  ((c.setFld (Reg.CORE_SPPADDR i) Fl.CORE_SPPADDR_VALID 1).setFld (Reg.CORE_SPPADDR i) Fl.CORE_SPPADDR_SOURCE source).setFld
    (Reg.CORE_SPPADDR i) Fl.CORE_SPPADDR_WORD word

section
variable (c : Channel) (i source word n : Nat)

theorem sppaddr_ne_sppar : Reg.CORE_SPPADDR i ≠ Reg.CORE_SPPAR i := by
  simp only [Reg.CORE_SPPADDR, Reg.CORE_SPPAR]
  omega

theorem Channel.regs_recordParity : Regs [Reg.CORE_SPPADDR i] c (c.recordParity i source word) :=
  regs_mono (regs_trans (regs_trans (regs_setFld c _ _ _) (regs_setFld _ _ _ _)) (regs_setFld _ _ _ _)) (by simp)

theorem Channel.valid_recordParity : (c.recordParity i source word).fld (Reg.CORE_SPPADDR i) Fl.CORE_SPPADDR_VALID = 1 := by
  rw [Channel.recordParity, Channel.fld_setFld_field _ _ _ _ _ (by decide) (by decide), Channel.fld_setFld_field _ _ _ _ _ (by decide) (by decide)]
  exact Channel.fld_setFld_same _ _ _ _ (by decide)

theorem Channel.source_recordParity : (c.recordParity i source word).fld (Reg.CORE_SPPADDR i) Fl.CORE_SPPADDR_SOURCE = source % 4 := by
  rw [Channel.recordParity, Channel.fld_setFld_field _ _ _ _ _ (by decide) (by decide)]
  exact Channel.fld_setFld_same _ _ _ _ (by decide)

theorem Channel.word_recordParity : (c.recordParity i source word).fld (Reg.CORE_SPPADDR i) Fl.CORE_SPPADDR_WORD = word % 524288 :=
  Channel.fld_setFld_same _ _ _ _ (by decide)

/-- A record that is valid stays as it is. -/
theorem Channel.parityNote_valid (valid : c.fld (Reg.CORE_SPPADDR i) Fl.CORE_SPPADDR_VALID = 1) :
    c.parityNote i source word n = c.count (Reg.CORE_SPPAR i) n :=
  if_pos ((c.fld_count_other _ n (sppaddr_ne_sppar i)).trans valid)

theorem Channel.parityNote_records (clear : c.fld (Reg.CORE_SPPADDR i) Fl.CORE_SPPADDR_VALID ≠ 1) :
    c.parityNote i source word n = (c.count (Reg.CORE_SPPAR i) n).recordParity i source word :=
  if_neg ((c.fld_count_other _ n (sppaddr_ne_sppar i)).trans_ne clear)

/-- However the record was, the error is counted and the record is valid. -/
theorem Channel.parityNote_effect : Regs [Reg.CORE_SPPAR i, Reg.CORE_SPPADDR i] c (c.parityNote i source word n) ∧
    Counted (Reg.CORE_SPPAR i) n c (c.parityNote i source word n) ∧
    (c.parityNote i source word n).fld (Reg.CORE_SPPADDR i) Fl.CORE_SPPADDR_VALID = 1 := by
  by_cases valid : c.fld (Reg.CORE_SPPADDR i) Fl.CORE_SPPADDR_VALID = 1
  · rw [c.parityNote_valid i source word n valid]
    exact ⟨regs_mono (regs_count c _ n) (by simp), counted_count c _ n, (c.fld_count_other _ n (sppaddr_ne_sppar i)).trans valid⟩
  · rw [c.parityNote_records i source word n valid]
    have record := (c.count (Reg.CORE_SPPAR i) n).regs_recordParity i source word
    exact ⟨regs_trans (regs_count c _ n) record, counted_then_regs (counted_count c _ n) record (by simp [(sppaddr_ne_sppar i).symm]),
      Channel.valid_recordParity _ i source word⟩

end

/-! ### A window that runs again (R257) -/

/-- The registers of a re-run: its word is armed, and it is counted. -/
def Channel.armRerun (c : Channel) (i word : Nat) : Channel :=
  ((c.setFld (Reg.CORE_SPPADDR i) Fl.CORE_SPPADDR_WORD word).setFld (Reg.CORE_SPPADDR i) Fl.CORE_SPPADDR_ARMED 1).count (Reg.CORE_SPRERUN i) 1

/-- A stream back at its re-run point, without what it has issued from there on. -/
def Stream.backAtRerun (x : Stream) : Stream :=
  { x with
    run := if x.run.isSome then x.run else x.flights.getLast?.map (·.rc), pc := x.rePc, lc := x.reLc, cf := x.reCf + x.cf / 64 * 64, wait := .none,
    skipHdr := x.reHdr, rerun := true, winRd := [], flights := x.flights.filter (fun f => decide (f.ord < x.reOrd)) }

/-- A core counts a re-run of stream st and drops a check of what the stream runs again. -/
def Core.countRerun (k : Core) (st : Strm) : Core :=
  { k with reruns := k.reruns + 1, check := k.check.filter (fun e => !(e.st == st && decide ((k.str st).reOrd ≤ e.ord))) }

theorem Core.str_countRerun (k : Core) (st su : Strm) : (k.countRerun st).str su = k.str su := by cases su <;> rfl

theorem Core.reruns_setStr (k : Core) (st : Strm) (x : Stream) : (k.setStr st x).reruns = k.reruns := by cases st <;> rfl

section
variable (c : Channel) (i word : Nat) (st : Strm)

theorem sprerun_not_mem_parity : Reg.CORE_SPRERUN i ∉ [Reg.CORE_SPPAR i, Reg.CORE_SPPADDR i] := by
  simp [Reg.CORE_SPRERUN, Reg.CORE_SPPAR, Reg.CORE_SPPADDR]

theorem sppar_not_mem_rerun : Reg.CORE_SPPAR i ∉ [Reg.CORE_SPPADDR i, Reg.CORE_SPRERUN i] := by
  simp [Reg.CORE_SPRERUN, Reg.CORE_SPPAR, Reg.CORE_SPPADDR]

theorem sppaddr_ne_sprerun : Reg.CORE_SPPADDR i ≠ Reg.CORE_SPRERUN i := by
  simp only [Reg.CORE_SPPADDR, Reg.CORE_SPRERUN]
  omega

theorem Channel.regs_armRerun : Regs [Reg.CORE_SPPADDR i, Reg.CORE_SPRERUN i] c (c.armRerun i word) :=
  regs_mono (regs_trans (regs_trans (regs_setFld c _ _ _) (regs_setFld _ _ _ _)) (regs_count _ _ 1)) (by simp)

theorem Channel.counted_armRerun : Counted (Reg.CORE_SPRERUN i) 1 c (c.armRerun i word) :=
  counted_after_regs (regs_trans (regs_setFld c _ _ _) (regs_setFld _ _ _ _)) (by simp [(sppaddr_ne_sprerun i).symm]) (counted_count _ _ 1)

theorem Channel.armed_armRerun : (c.armRerun i word).fld (Reg.CORE_SPPADDR i) Fl.CORE_SPPADDR_ARMED = 1 :=
  (Channel.fld_count_other _ _ 1 (sppaddr_ne_sprerun i)).trans (Channel.fld_setFld_same _ _ _ _ (by decide))

theorem Channel.word_armRerun : (c.armRerun i word).fld (Reg.CORE_SPPADDR i) Fl.CORE_SPPADDR_WORD = word % 524288 :=
  (Channel.fld_count_other _ _ 1 (sppaddr_ne_sprerun i)).trans
    ((Channel.fld_setFld_field _ _ _ _ _ (by decide) (by decide)).trans (Channel.fld_setFld_same _ _ _ _ (by decide)))

theorem Channel.valid_armRerun :
    (c.armRerun i word).fld (Reg.CORE_SPPADDR i) Fl.CORE_SPPADDR_VALID = c.fld (Reg.CORE_SPPADDR i) Fl.CORE_SPPADDR_VALID :=
  (Channel.fld_count_other _ _ 1 (sppaddr_ne_sprerun i)).trans
    ((Channel.fld_setFld_field _ _ _ _ _ (by decide) (by decide)).trans (Channel.fld_setFld_field _ _ _ _ _ (by decide) (by decide)))

/-- The stream of a core goes back, and the core counts it. -/
def Channel.streamBack (c : Channel) (i : Nat) (st : Strm) : Channel :=
  let c1 := c.modStr i st Stream.backAtRerun
  c1.setCore i ((c1.core i).countRerun st)

theorem Channel.rd_streamBack (a : Nat) : (c.streamBack i st).rd a = c.rd a := rfl

theorem Channel.fld_streamBack (a : Nat) (f : Fld) : (c.streamBack i st).fld a f = c.fld a f := rfl

theorem Channel.strm_streamBack : (c.streamBack i st).strm i st = (c.strm i st).backAtRerun := by
  rw [Channel.streamBack, Channel.strm, Channel.core_setCore_same, Core.str_countRerun]
  exact c.strm_modStr_same i st _

theorem Channel.reruns_streamBack : ((c.streamBack i st).core i).reruns = (c.core i).reruns + 1 := by
  rw [Channel.streamBack, Channel.core_setCore_same, Core.countRerun, Channel.modStr, Channel.core_setCore_same, Core.reruns_setStr]

theorem oneStream_then_streamBack {l : List Nat} {d : Channel} (h : OneStream i st l c d) : OneStream i st l c (d.streamBack i st) :=
  oneStream_then_setCore (oneStream_then_modStr h _) fun su => Core.str_countRerun _ st su

end

/-! ### The rows of parity (R257, R258) -/

/-- The word is the one that the last re-run of its core has armed. -/
abbrev Channel.wordArmed (c : Channel) (i word : Nat) : Prop :=
  c.fld (Reg.CORE_SPPADDR i) Fl.CORE_SPPADDR_ARMED = 1 ∧ c.fld (Reg.CORE_SPPADDR i) Fl.CORE_SPPADDR_WORD = word

/-- The stop of a stream by a parity error that no re-run can mend. -/
def Channel.parityStop (c : Channel) (i : Nat) (st : Strm) (word : Nat) : Channel :=
  (c.parityFault i word).modStr i st (fun x => { x with wait := .fault })

section
variable {c : Channel} {i word : Nat} {st : Strm}

theorem Channel.parityAt_idle (run : (c.strm i st).run = none) (flights : (c.strm i st).flights = []) : c.parityAt i st word = c :=
  if_pos (by simp [run, flights])

section
variable (busy : (c.strm i st).run.isSome ∨ (c.strm i st).flights ≠ [])
include busy

theorem Channel.parityAt_busy : c.parityAt i st word =
    if !(c.strm i st).rerun ∨ c.wordArmed i word ∨ 16 ≤ (c.core i).reruns then (c.parityNote i (strmNum st) word 1).parityStop i st word
    else ((c.parityNote i (strmNum st) word 1).armRerun i word).streamBack i st := by
  refine if_neg ?_
  rcases busy with run | flights
  · simp [Option.isSome_iff_ne_none.mp run]
  · simp [flights]

theorem Channel.parityAt_reruns (again : (c.strm i st).rerun = true) (unarmed : ¬ c.wordArmed i word) (few : (c.core i).reruns < 16) :
    c.parityAt i st word = ((c.parityNote i (strmNum st) word 1).armRerun i word).streamBack i st := by
  refine (Channel.parityAt_busy busy).trans (if_neg ?_)
  rintro (once | armed | many)
  · simp [again] at once
  · exact unarmed armed
  · omega

theorem Channel.parityAt_stops (last : (c.strm i st).rerun = false ∨ c.wordArmed i word ∨ 16 ≤ (c.core i).reruns) :
    c.parityAt i st word = (c.parityNote i (strmNum st) word 1).parityStop i st word :=
  (Channel.parityAt_busy busy).trans (if_pos (last.imp_left fun once => by rw [once]; rfl))

end

theorem Channel.rd_parityStop (a : Nat) : (c.parityStop i st word).rd a = c.rd a := rfl

theorem Channel.fld_parityStop (a : Nat) (f : Fld) : (c.parityStop i st word).fld a f = c.fld a f := rfl

theorem Channel.strm_parityStop : (c.parityStop i st word).strm i st = { c.strm i st with wait := .fault } := Channel.strm_modStr_same ..

end

/-- PARITY_RERUN and SUBPORT_READ_REPEAT: the error is noted; then a stream goes back or stops, and a repeated read goes on or is a fault. -/
theorem parityErrors : ParityErrors := by
  intro p word s c i x a armed usable
  have small : word.val % 524288 = word.val := Nat.mod_eq_of_lt word.isLt
  have site : i < 100 := p.site.isLt
  have errorRow {d : Channel} (acts : c.parityAt i p.st word.val = d) : LeavesS (.parityRerun p word) s p d :=
    leavesS_of_atStream rfl usable acts
  have repeated : Leaves (.subportReadRepeat p.ch p.site word false) s p.ch (c.parityNote i 3 word.val 1) := leaves_congr rfl (if_pos usable)
  have failed : Leaves (.subportReadRepeat p.ch p.site word true) s p.ch ((c.parityNote i 3 word.val 2).parityFault i word.val) :=
    leaves_congr rfl (if_pos usable)
  obtain ⟨noteRegs, noted, valid⟩ := c.parityNote_effect i (strmNum p.st) word.val 1
  refine ⟨fun busy again unarmed few => ?reruns, fun run flights => errorRow (Channel.parityAt_idle run flights), fun busy last => ?stops,
    ?repeats, ?fails⟩
  case reruns =>
    let n := c.parityNote i (strmNum p.st) word.val 1
    have arms := n.regs_armRerun i word.val
    have regs : Regs [Reg.CORE_SPPAR i, a, Reg.CORE_SPRERUN i] c (n.armRerun i word.val) := regs_mono (regs_trans noteRegs arms) (by simp [a])
    have strm : ((n.armRerun i word.val).streamBack i p.st).strm i p.st = x.backAtRerun := by
      rw [Channel.strm_streamBack, strm_of_regs regs]
    refine ⟨_, errorRow (Channel.parityAt_reruns busy again unarmed few), oneStream_then_streamBack _ _ _ (oneStream_of_regs regs i p.st),
      (Channel.rd_streamBack _ i p.st _).trans (counted_then_regs noted arms (sppar_not_mem_rerun i)),
      (Channel.rd_streamBack _ i p.st _).trans (counted_after_regs noteRegs (sprerun_not_mem_parity i) (n.counted_armRerun i word.val)), ?reruns,
      (Channel.fld_streamBack _ i p.st _ _).trans (n.armed_armRerun i word.val),
      (Channel.fld_streamBack _ i p.st _ _).trans ((n.word_armRerun i word.val).trans small),
      (Channel.fld_streamBack _ i p.st _ _).trans ((n.valid_armRerun i word.val).trans valid), ?pc, ?lc, ?wait, ?flights⟩
    case reruns => rw [Channel.reruns_streamBack, core_of_regs regs]
    all_goals
      rw [strm]
      rfl
  case stops =>
    have mem := mem_of_regs noteRegs
    refine ⟨_, _, errorRow (Channel.parityAt_stops busy last), (Channel.rd_parityStop _).trans noted, congrArg (· ++ [_]) (faultq_of_regs noteRegs),
      code_mkFault (by decide) .., node_mkFault site .., ?strm, (Channel.fld_parityStop _ _).trans valid, mem⟩
    case strm => rw [Channel.strm_parityStop, strm_of_regs noteRegs]
  case repeats =>
    obtain ⟨regs, counted, valid⟩ := c.parityNote_effect i 3 word.val 1
    refine ⟨_, repeated, regs, counted, valid, fun clear => ?record⟩
    have records := c.parityNote_records i 3 word.val 1 (by rw [clear]; decide)
    exact ⟨(congrArg (Channel.fld · a _) records).trans (Channel.source_recordParity _ i 3 word.val),
      (congrArg (Channel.fld · a _) records).trans ((Channel.word_recordParity _ i 3 word.val).trans small)⟩
  case fails =>
    obtain ⟨regs, counted, -⟩ := c.parityNote_effect i 3 word.val 2
    refine ⟨_, _, failed, counted, congrArg (· ++ [_]) (faultq_of_regs regs), code_mkFault (by decide) .., arg1_mkFault ?address ..⟩
    case address =>
      have := word.isLt
      simp only [spadBase]
      omega

/-! ### The check unit (R222) -/

/-- The check unit of a core is free. -/
def Channel.freeCheck (c : Channel) (i : Nat) : Channel := c.setCore i { c.core i with check := none }

/-- The unit is free; the check is counted, and NUM_AMAX keeps the largest difference. -/
def Channel.checkEnds (c : Channel) (i v : Nat) : Channel :=
  ((c.freeCheck i).count Reg.NUM_ACHECK 1).raiseFld Reg.NUM_AMAX Fl.NUM_AMAX_D v

/-- A disagreement is counted; the record takes it unless it is valid. -/
def Channel.noteDisagree (c : Channel) (i : Nat) (e : Check) (v : Nat) : Channel :=
  let c1 := c.count Reg.NUM_ADIS 1
  if c1.fld Reg.NUM_AREC Fl.NUM_AREC_VALID = 1 then c1
  else (c1.wr Reg.NUM_AREC (1 + i * 2 + strmNum e.st * 2 ^ 8 + e.opc * 2 ^ 10)).wr Reg.NUM_ARECD v

section
variable (c : Channel) (i v : Nat) (e : Check)

theorem Channel.regs_checkEnds : Regs [Reg.NUM_ACHECK, Reg.NUM_AMAX] (c.freeCheck i) (c.checkEnds i v) :=
  regs_trans (regs_count _ _ 1) (regs_setFld _ _ _ _)

theorem Channel.counted_checkEnds : Counted Reg.NUM_ACHECK 1 c (c.checkEnds i v) :=
  counted_then_regs (counted_count (c.freeCheck i) _ 1) (regs_setFld _ Reg.NUM_AMAX Fl.NUM_AMAX_D _) (by decide)

theorem Channel.noteDisagree_effect : Regs [Reg.NUM_ADIS, Reg.NUM_AREC, Reg.NUM_ARECD] c (c.noteDisagree i e v) ∧
    Counted Reg.NUM_ADIS 1 c (c.noteDisagree i e v) := by
  have count := regs_count c Reg.NUM_ADIS 1
  have counted := counted_count c Reg.NUM_ADIS 1
  simp only [Channel.noteDisagree]
  split
  · exact ⟨regs_mono count (by simp), counted⟩
  · have record (x : Nat) := regs_trans (regs_wr (c.count Reg.NUM_ADIS 1) Reg.NUM_AREC x) (regs_wr _ Reg.NUM_ARECD v)
    exact ⟨regs_trans count (record _), counted_then_regs counted (record _) (by decide)⟩

end

section
variable {c : Channel} {i v : Nat} {dis : Bool} {e : Check} (pending : (c.core i).check = some e) (ready : e.ready = some (dis, v))
include pending ready

theorem Channel.watchEnd_agrees (agree : dis = false) : c.watchEnd i = c.checkEnds i v := by
  simp only [Channel.watchEnd, pending, ready, agree]
  rfl

/-- R222: a disagreement is raised while AFAULT is set. -/
theorem Channel.watchEnd_disagrees (disagree : dis = true) :
    let d := (c.checkEnds i v).noteDisagree i e v
    c.watchEnd i = if d.fld Reg.NUM_WCTRL Fl.NUM_WCTRL_AFAULT = 1 then
      d.raise (mkFault i fcWatchDisagree (c.core i).owner (d.rd Reg.NUM_AREC) (d.rd Reg.NUM_ARECD)) else d := by
  simp only [Channel.watchEnd, pending, ready, disagree]
  rfl

end

/-- WATCH_CHECK: what the end of a check leaves, by whether it disagrees and whether AFAULT is set. -/
theorem watchChecks : WatchChecks := by
  intro ch site e dis v s c i l usable pending ready
  let d := (c.checkEnds i v).noteDisagree i e v
  have checkRow {d : Channel} (acts : c.watchEnd i = d) : Leaves (.watchCheck ch site) s ch d :=
    leaves_congr (leaves_congr rfl (if_pos usable)) acts
  have ends := c.regs_checkEnds i v
  have counted := c.counted_checkEnds i v
  obtain ⟨notes, disagrees⟩ := (c.checkEnds i v).noteDisagree_effect i v e
  have regs : Regs l (c.freeCheck i) d := regs_trans ends notes
  have afault : d.fld Reg.NUM_WCTRL Fl.NUM_WCTRL_AFAULT = (c.freeCheck i).fld Reg.NUM_WCTRL Fl.NUM_WCTRL_AFAULT := fld_of_regs regs (by decide) _
  have counts : Counted Reg.NUM_ADIS 1 c d := counted_after_regs ends (by decide) disagrees
  refine ⟨fun agree => ?agrees, fun disagree quiet => ?counts, fun disagree loud => ?raises⟩
  case agrees => exact ⟨_, checkRow (Channel.watchEnd_agrees pending ready agree), regsCore_of_regs ends, counted⟩
  case counts =>
    exact ⟨d, checkRow ((Channel.watchEnd_disagrees pending ready disagree).trans (if_neg (by rw [afault.trans quiet]; decide))), regsCore_of_regs regs,
      counted_then_regs counted notes (by decide), counts⟩
  case raises =>
    have faults : d.faultq = (c.freeCheck i).faultq := faultq_of_regs regs
    have mem : d.mem = (c.freeCheck i).mem := mem_of_regs regs
    have raised := (Channel.watchEnd_disagrees pending ready disagree).trans (if_pos (afault.trans loud))
    refine ⟨_, _, checkRow raised, counts, congrArg (· ++ [_]) faults, code_mkFault (by decide) .., node_mkFault site.isLt .., ?free, mem⟩
    case free => exact congrArg Core.check ((core_of_regs regs i).trans (c.core_setCore_same i _))

/-- Settles O20: parity errors of the scratchpad, repeated reads, and the watch's checks. -/
theorem parityAndWatch : Obligations.ParityAndWatch := ⟨parityErrors, watchChecks⟩

end Sys2Proof.Machine
end

section
/-! Array words as reads find them (R276 to R278, R282, R287): corrections, uncorrectable words, write-backs, patrol scrubs. -/

namespace Sys2Proof.Machine

open Sys2Proof Sys2Proof.Says

/-! ### Bytes stored from an address on -/

/-- The bytes of a list, each stored at its distance from an address. -/
def Channel.pokes (c : Channel) (a : Nat) (l : List (Byte × Nat)) : Channel := l.foldl (fun c e => c.poke (a + e.2) e.1) c

section
variable (c : Channel) (a : Nat) (l : List (Byte × Nat))

theorem Channel.pokes_cons (e : Byte × Nat) : c.pokes a (e :: l) = (c.poke (a + e.2) e.1).pokes a l := rfl

theorem Channel.pokes_frame : c.pokes a l = { c with mem := (c.pokes a l).mem } := by
  induction l generalizing c with
  | nil => rfl
  | cons e t ih => rw [Channel.pokes_cons, ih]; rfl

theorem Channel.mem_pokes_other {x : Nat} (h : ∀ e ∈ l, x ≠ a + e.2) : mget memDefault (c.pokes a l).mem x = mget memDefault c.mem x := by
  induction l generalizing c with
  | nil => rfl
  | cons e t ih =>
    rw [Channel.pokes_cons, ih _ fun f hf => h f (List.mem_cons_of_mem e hf)]
    exact c.mem_poke_other e.1 (h e List.mem_cons_self)

/-- A byte of the list is in memory afterwards, where no entry says otherwise. -/
theorem Channel.mem_pokes_at {e : Byte × Nat} (h : e ∈ l) (agree : ∀ f ∈ l, f.2 = e.2 → f.1 = e.1) :
    mget memDefault (c.pokes a l).mem (a + e.2) = e.1 := by
  induction l generalizing c with
  | nil => exact absurd h List.not_mem_nil
  | cons f t ih =>
    have rest := fun g hg => agree g (List.mem_cons_of_mem f hg)
    rw [Channel.pokes_cons]
    by_cases later : e ∈ t
    · exact ih _ later rest
    · obtain rfl := (List.mem_cons.mp h).resolve_right later
      have last : ∀ g ∈ t, a + e.2 ≠ a + g.2 := fun g hg same =>
        have key := (Nat.add_left_cancel same).symm
        later (Prod.ext (rest g hg key) key ▸ hg)
      rw [Channel.mem_pokes_other _ _ _ last]
      exact Channel.mem_poke_same _ _ _

/-- The bytes of an array word are stored in memory, and nothing else changes. -/
theorem Channel.putWord_frame (d : Nat) : c.putWord a d = { c with mem := (c.putWord a d).mem } := by
  have put := c.pokes_frame a ((leBytes 64 d).zip (List.range 64))
  simp only [Channel.pokes] at put
  simp only [Channel.putWord]
  split
  · exact put
  · exact put
  · rfl

@[simp] theorem Channel.rd_putWord (d r : Nat) : (c.putWord a d).rd r = c.rd r := by rw [Channel.putWord_frame]; rfl

@[simp] theorem Channel.fld_putWord (d r : Nat) (f : Fld) : (c.putWord a d).fld r f = c.fld r f := by rw [Channel.putWord_frame]; rfl

@[simp] theorem Channel.faultq_putWord (d : Nat) : (c.putWord a d).faultq = c.faultq := by rw [Channel.putWord_frame]

end

/-! ### A word as it is found -/

/-- A word that has been corrected waits for its write-back. -/
def Channel.noteCorr (c : Channel) (a : Nat) : Channel := { c with corr := if c.corr.contains a then c.corr else c.corr ++ [a] }

theorem Channel.mem_corr_noteCorr (c : Channel) (a : Nat) : a ∈ (c.noteCorr a).corr := by
  simp only [Channel.noteCorr]
  split
  case isTrue listed => exact List.contains_iff_mem.mp listed
  case isFalse => exact List.mem_append_right _ (List.mem_singleton_self a)

/-- A word found with an error that its code corrects, counted at register r. -/
def Channel.corrected (c : Channel) (a w r : Nat) : Channel := ((c.putWord a (dec36 w).1).noteCorr a).count r 1

theorem Channel.corrected_effect (c : Channel) (a w r : Nat) :
    Counted r 1 c (c.corrected a w r) ∧ a ∈ (c.corrected a w r).corr ∧ (c.corrected a w r).faultq = c.faultq := by
  have noted : (c.corrected a w r).corr = ((c.putWord a (dec36 w).1).noteCorr a).corr := by rw [Channel.corrected, Channel.count_frame]
  refine ⟨?counted, noted ▸ Channel.mem_corr_noteCorr _ a, ?faultq⟩
  case counted =>
    rw [Counted, ← c.rd_putWord a (dec36 w).1]
    exact counted_count ((c.putWord a (dec36 w).1).noteCorr a) r 1
  case faultq =>
    rw [Channel.corrected, Channel.count_frame]
    exact c.faultq_putWord a _

theorem rawsIn_single {t a n : Nat} (raw : BitVec 576) (lo : a ≤ t) (hi : t + 64 ≤ a + n) (aligned : t % 64 = 0) :
    rawsIn [(t, raw)] a n = [(t, raw.toNat)] := by
  simp [rawsIn, lo, hi, aligned]

section
variable {c : Channel} {bad : Channel → Nat → Channel} {a w r : Nat}

theorem Channel.rawRead_corrected (h : (dec36 w).2 = 1) : c.rawRead (fun c => c.count r 1) bad (a, w) = c.corrected a w r := by
  simp only [Channel.rawRead, h]
  rfl

theorem Channel.rawRead_uncorrectable (h : (dec36 w).2 = 2) : c.rawRead (fun c => c.count r 1) bad (a, w) = bad (c.putWord a (dec36 w).1) a := by
  simp only [Channel.rawRead, h]
  rfl

end

/-! ### The tier -/

section
variable (c : Channel) (slice source a : Nat)

/-- An uncorrectable tier word is recorded where no record stands. -/
def Channel.tierRecord : Channel :=
  if c.fld Reg.TIER_UCSTAT Fl.TIER_UCSTAT_VALID = 1 then c
  else (c.wr Reg.TIER_UCSTAT (1 + slice * 2 + source * 2 ^ 8)).wr Reg.TIER_UCADDR ((a - sliceBase slice) / 64)

theorem Channel.regs_tierRecord : Regs [Reg.TIER_UCSTAT, Reg.TIER_UCADDR] c (c.tierRecord slice source a) := by
  rw [Channel.tierRecord]
  split
  · exact ⟨rfl, fun _ _ => rfl⟩
  · exact regs_trans (regs_wr c _ _) (regs_wr _ _ _)

theorem Channel.tierBad_eq : Channel.tierBad slice source c a =
    ((c.count Reg.TIER_UCCNT 1).tierRecord slice source a).raise (mkFault slice fcTierUncorr none source a) := rfl

theorem Channel.tierBad_effect : Counted Reg.TIER_UCCNT 1 c (Channel.tierBad slice source c a) ∧
    (Channel.tierBad slice source c a).faultq = c.faultq ++ [mkFault slice fcTierUncorr none source a] := by
  have record := (c.count Reg.TIER_UCCNT 1).regs_tierRecord slice source a
  have counted := counted_then_regs (counted_count c Reg.TIER_UCCNT 1) record (by decide)
  rw [Channel.tierBad_eq, Channel.faultq_raise, faultq_of_regs record, Channel.count_frame]
  exact ⟨counted, rfl⟩

theorem lineAddr_aligned (line : Nat) : lineAddr slice line % 64 = 0 := by
  simp only [lineAddr, sliceBase]
  omega

theorem lineAddr_lt {line : Nat} (hi : slice < 100) (hl : line < 327680) : lineAddr slice line < 2 ^ 64 := by
  simp only [lineAddr, sliceBase]
  omega

/-- Over the stream port, outside merging, a slice reads the words of its line. -/
theorem Channel.sliceRead_word (line : Nat) (src : Site) (sub : Fin 8) (raw : BitVec 576) :
    c.sliceRead slice line src sub true false [(lineAddr slice line, raw)] =
      c.rawRead (fun c => c.count Reg.TIER_CORR 1) (Channel.tierBad slice 0) (lineAddr slice line, raw.toNat) := by
  have words : rawsIn [(lineAddr slice line, raw)] (lineAddr slice line) 128 = [(lineAddr slice line, raw.toNat)] :=
    rawsIn_single raw (Nat.le_refl _) (by omega) (lineAddr_aligned ..)
  simp [Channel.sliceRead, Channel.sliceTake, Channel.sliceReply, Channel.tierRead, words, b2n]

end

section
variable {c : Channel} {slice line : Nat}

/-- Where no record stands, the record takes the slice and the word of the line. -/
theorem Channel.rd_tierBad (clear : c.fld Reg.TIER_UCSTAT Fl.TIER_UCSTAT_VALID = 0) (hi : slice < 100) (hl : line < 327680) :
    (Channel.tierBad slice 0 c (lineAddr slice line)).rd Reg.TIER_UCSTAT = 1 + 2 * slice ∧
      (Channel.tierBad slice 0 c (lineAddr slice line)).rd Reg.TIER_UCADDR = 2 * line := by
  have word : (lineAddr slice line - sliceBase slice) / 64 = 2 * line := by simp only [lineAddr]; omega
  have still : (c.count Reg.TIER_UCCNT 1).fld Reg.TIER_UCSTAT Fl.TIER_UCSTAT_VALID ≠ 1 := by
    rw [Channel.fld_count_other _ _ _ (by decide), clear]
    decide
  rw [Channel.tierBad_eq, Channel.tierRecord, if_neg still, word, Channel.rd_raise, Channel.rd_raise]
  exact ⟨(Channel.rd_wr_other _ _ (by decide)).trans ((Channel.rd_wr_same _ _ _).trans (by omega)), (Channel.rd_wr_same _ _ _).trans (by omega)⟩

end

/-! ### LPDDR5X -/

/-- A test of the address map that names another row has failed. -/
theorem row_past {P : Prop} [Decidable P] {x y r : Row} (h : (if P then x else y) = r) (other : x ≠ r) : ¬ P ∧ y = r := by
  by_cases p : P
  · exact absurd ((if_pos p).symm.trans h) other
  · exact ⟨p, (if_neg p).symm.trans h⟩

theorem Channel.row_lp {c : Channel} {a o : Nat} (h : c.row a = .lp o) : a = lpBase + o := by
  unfold Channel.row at h
  iterate 7 replace h := (row_past h nofun).2
  obtain ⟨above, h⟩ := row_past h nofun
  by_cases inside : a < 0x0130_0000_0000
  · rw [if_pos inside] at h
    have offset := Row.lp.inj h
    omega
  · rw [if_neg inside] at h
    iterate 4 replace h := (row_past h nofun).2
    cases h

theorem memCtrl_lt (o : Nat) : memCtrl o < 4 := by
  have field (x lo : Nat) : bits x lo 2 < 2 ^ 2 := bits_lt x lo 2
  exact Nat.xor_lt_two_pow (Nat.xor_lt_two_pow (Nat.xor_lt_two_pow (field _ _) (field _ _)) (field _ _)) (field _ _)

section
variable (c : Channel) (source a k o : Nat)

/-- An uncorrectable LPDDR5X word is recorded where no record of its controller stands. -/
def Channel.memRecord : Channel :=
  if c.fld (Reg.MEMC_UCSTAT k) Fl.MEMC_UCSTAT_VALID = 1 then c
  else ((c.wr (Reg.MEMC_UCSTAT k) (1 + source * 2)).setFld (Reg.MEMC_UCADDRL k) Fl.MEMC_UCADDRL_ADDR (bits a 6 26)).wr (Reg.MEMC_UCADDRH k)
    (bits a 32 16)

theorem Channel.regs_memRecord : Regs [Reg.MEMC_UCSTAT k, Reg.MEMC_UCADDRL k, Reg.MEMC_UCADDRH k] c (c.memRecord source a k) := by
  rw [Channel.memRecord]
  split
  · exact ⟨rfl, fun _ _ => rfl⟩
  · exact regs_trans (regs_trans (regs_wr c _ _) (regs_setFld _ _ _ _)) (regs_wr _ _ _)

theorem Channel.memBad_eq : Channel.memBad source c (lpBase + o) =
    ((c.count (Reg.MEMC_UCCNT (memCtrl o)) 1).memRecord source (lpBase + o) (memCtrl o)).raise
      (mkFault (114 + memCtrl o) fcMemUncorr none source (lpBase + o)) := by
  rw [Channel.memBad, Nat.add_sub_cancel_left]
  rfl

theorem Channel.memBad_effect : Counted (Reg.MEMC_UCCNT (memCtrl o)) 1 c (Channel.memBad source c (lpBase + o)) ∧
    (Channel.memBad source c (lpBase + o)).faultq = c.faultq ++ [mkFault (114 + memCtrl o) fcMemUncorr none source (lpBase + o)] := by
  have record := (c.count (Reg.MEMC_UCCNT (memCtrl o)) 1).regs_memRecord source (lpBase + o) (memCtrl o)
  have apart : Reg.MEMC_UCCNT (memCtrl o) ∉ [Reg.MEMC_UCSTAT (memCtrl o), Reg.MEMC_UCADDRL (memCtrl o), Reg.MEMC_UCADDRH (memCtrl o)] := by
    simp only [List.mem_cons, List.not_mem_nil, or_false, Reg.MEMC_UCCNT, Reg.MEMC_UCSTAT, Reg.MEMC_UCADDRL, Reg.MEMC_UCADDRH]
    omega
  have counted := counted_then_regs (counted_count c (Reg.MEMC_UCCNT (memCtrl o)) 1) record apart
  rw [Channel.memBad_eq, Channel.faultq_raise, faultq_of_regs record, Channel.count_frame]
  exact ⟨counted, rfl⟩

end

section
variable {s : State} {ch : Chan} {a : BitVec 48} {o : Nat}

/-- A read of one word that its controller serves. -/
theorem leaves_memRead_word (raw : BitVec 576) (row : (s.chan ch).row a.toNat = .lp o) (aligned : o % 64 = 0)
    (served : (s.chan ch).memServed a.toNat 64 = true) :
    Leaves (.memRead ch a 64 [(a.toNat, raw)] []) s ch
      ((s.chan ch).rawRead (fun c => c.count (Reg.MEMC_CORR (memCtrl o)) 1) (Channel.memBad 0) (a.toNat, raw.toNat)) := by
  have place := Channel.row_lp row
  have whole : a.toNat % 64 = 0 := by simp only [place, lpBase]; omega
  have start : a.toNat / 64 * 64 = a.toNat := by omega
  have words : rawsIn [(a.toNat, raw)] a.toNat (roundUp (0 + 64) 64) = [(a.toNat, raw.toNat)] :=
    rawsIn_single raw (Nat.le_refl _) (Nat.le_refl _) whole
  refine leaves_congr rfl ((if_pos served).trans ?_)
  rw [whole, start, Channel.memRaws, words, List.foldl_cons, List.foldl_nil, place, Nat.add_sub_cancel_left]
  rfl

theorem leaves_tierCorrectWriteback (row : (s.chan ch).row a.toNat = .tier o) :
    Leaves (.tierCorrectWriteback ch a) s ch ((s.chan ch).wroteWord a.toNat) := by
  refine leaves_congr rfl ?_
  dsimp only
  rw [row]

theorem leaves_memCorrectWriteback (row : (s.chan ch).row a.toNat = .lp o) :
    Leaves (.memCorrectWriteback ch a) s ch ((s.chan ch).wroteWord a.toNat) := by
  refine leaves_congr rfl ?_
  dsimp only
  rw [row]

end

/-- Errors that demand reads find, and the write-backs. -/
theorem arrayErrors : ArrayErrors := by
  intro ch slice line src a o raw s c t k
  have ctrl : k < 4 := memCtrl_lt o
  refine ⟨fun fixed => ?tierFixed, fun lost clear => ?tierBad, fun row aligned served fixed => ?memFixed,
    fun row aligned served lost => ?memBad, fun ⟨_, row⟩ => leaves_tierCorrectWriteback row, fun row => leaves_memCorrectWriteback row⟩
  case tierFixed =>
    exact ⟨_, leaves_congr rfl ((c.sliceRead_word ..).trans (Channel.rawRead_corrected fixed)), c.corrected_effect t raw.toNat Reg.TIER_CORR⟩
  case tierBad =>
    have count := (c.putWord t (dec36 raw.toNat).1).tierBad_effect slice 0 t
    rw [Counted, Channel.rd_putWord, Channel.faultq_putWord] at count
    obtain ⟨counted, raised⟩ := count
    obtain ⟨stat, addr⟩ := Channel.rd_tierBad (c.fld_putWord t (dec36 raw.toNat).1 .. ▸ clear) slice.isLt line.isLt
    exact ⟨_, _, leaves_congr rfl ((c.sliceRead_word ..).trans (Channel.rawRead_uncorrectable lost)), counted, stat, addr, raised,
      code_mkFault (by decide) .., arg1_mkFault (lineAddr_lt _ slice.isLt line.isLt) ..⟩
  case memFixed =>
    exact ⟨_, leaves_congr (leaves_memRead_word raw row aligned served) (Channel.rawRead_corrected fixed),
      c.corrected_effect a.toNat raw.toNat (Reg.MEMC_CORR k)⟩
  case memBad =>
    have count := (c.putWord a.toNat (dec36 raw.toNat).1).memBad_effect 0 o
    rw [Counted, Channel.rd_putWord, Channel.faultq_putWord, ← Channel.row_lp row] at count
    obtain ⟨counted, raised⟩ := count
    exact ⟨_, _, leaves_congr (leaves_memRead_word raw row aligned served) (Channel.rawRead_uncorrectable lost), counted, raised,
      code_mkFault (by decide) .., Nat.mod_eq_of_lt (by omega), arg1_mkFault (Nat.lt_trans a.isLt (by decide)) ..⟩

/-! ### Patrol scrubs -/

/-- The patrol scrubs where the words they read are clean. -/
theorem patrolScrubs : PatrolScrubs := by
  intro ch slice ctrl s c i n m whole
  have reads (on : c.fld Reg.TIER_CTRL Fl.TIER_CTRL_SCRUB_EN = 1) (next : n < 327680) :
      c.tierScrub i [] = if whole then Channel.count { c with scrub := [] } Reg.TIER_SCRUBS 1 else { c with scrub := m } :=
    if_neg (by omega)
  refine ⟨fun on next more => ?goesOn, fun on next last => ?ends, fun off => ?tierOff, fun on served => ?mem, fun off => ?memOff⟩
  case goesOn => exact leaves_congr rfl ((reads on next).trans (if_neg (by rw [more]; decide)))
  case ends =>
    exact ⟨_, leaves_congr rfl ((reads on next).trans (if_pos last)), regs_count _ Reg.TIER_SCRUBS 1, counted_count { c with scrub := [] } Reg.TIER_SCRUBS 1⟩
  case tierOff => exact leaves_congr rfl (if_pos (.inl off))
  case mem => exact leaves_congr rfl (if_pos ⟨on, served⟩)
  case memOff => exact leaves_congr rfl (if_neg fun ⟨on, _⟩ => absurd (off.symm.trans on) (by decide))

/-- Settles O26: what reads of an array find, by what the code says of the word, and the scrubs by whether they are enabled. -/
theorem arraysAndScrubs : Obligations.ArraysAndScrubs := ⟨arrayErrors, patrolScrubs⟩

end Sys2Proof.Machine
end

section
/-! The flash controller (R289 to R304): blocks, the map's generations, counters, reads of NAND, relocation, retired blocks. -/

namespace Sys2Proof.Machine

open Sys2Proof Sys2Proof.Says

/-! ### Blocks and the map -/

section
variable (c : Channel)

theorem Channel.blk_setBlk (b x : Nat) (k : NandBlk) : (c.setBlk b k).blk x = if x = b then k else c.blk x := mget_mset _ _ _ _ _

@[simp] theorem Channel.blk_setBlk_same (b : Nat) (k : NandBlk) : (c.setBlk b k).blk b = k := mget_mset_same _ _ _ _

theorem Channel.fmap_setFmap (g h : Bool) (u v x : Nat) : (c.setFmap g u v).fmap h x = if h = g ∧ x = u then v else c.fmap h x := by
  cases g <;> cases h <;> simp [Channel.fmap, Channel.setFmap, mget_mset]

@[simp] theorem Channel.rd_setFmap (g : Bool) (u v a : Nat) : (c.setFmap g u v).rd a = c.rd a := by cases g <;> rfl

end

/-! ### The status, the counter of programs -/

section
variable (c : Channel) (f : Fld) (b : Bool)

theorem regs_setFstat : Regs [Reg.FLASH_STATUS] c (c.setFstat f b) := regs_setFld c Reg.FLASH_STATUS f (b2n b)

theorem Channel.fstat_setFstat_same (lo : f.lo < 32) (w : f.w = 1) : (c.setFstat f b).fstat f = b := by
  have read : (c.setFstat f b).fld Reg.FLASH_STATUS f = b2n b % 2 ^ f.w := c.fld_setFld_same _ f _ (by omega)
  rw [Channel.fstat, read, w]
  cases b <;> rfl

theorem fieldsBut_setFstat (h : f.lo + f.w ≤ 32) : FieldsBut Reg.FLASH_STATUS f c (c.setFstat f b) :=
  fun g apart => c.fld_setFld_field Reg.FLASH_STATUS f g (b2n b) h apart

end

section
variable {l : List Nat} {c d : Channel}

theorem fstat_of_regs (h : Regs l c d) (other : Reg.FLASH_STATUS ∉ l) (f : Fld) : d.fstat f = c.fstat f := by
  rw [Channel.fstat, fld_of_regs h other, Channel.fstat]

theorem fstat_of_fieldsBut {f g : Fld} (h : FieldsBut Reg.FLASH_STATUS f c d) (apart : g.lo + g.w ≤ f.lo ∨ f.lo + f.w ≤ g.lo) :
    d.fstat g = c.fstat g := by
  rw [Channel.fstat, h g apart, Channel.fstat]

end

theorem regs_count64 (c : Channel) (l h n : Nat) : Regs [l, h] c (c.count64 l h n) := regs_trans (regs_wr c l _) (regs_wr _ h _)

theorem regs_nandW (c : Channel) (n : Nat) : Regs [Reg.FLASH_NANDWL, Reg.FLASH_NANDWH] c (c.nandW n) := regs_count64 c _ _ n

theorem blk_of_regs {l : List Nat} {c d : Channel} (h : Regs l c d) (b : Nat) : d.blk b = c.blk b := by
  obtain ⟨frame, -⟩ := h
  rw [frame]
  rfl

theorem fmap_of_regs {l : List Nat} {c d : Channel} (h : Regs l c d) (g : Bool) (u : Nat) : d.fmap g u = c.fmap g u := by
  obtain ⟨frame, -⟩ := h
  rw [frame]
  rfl

/-! ### Background work -/

/-- The registers that a move of a unit counts in. -/
abbrev relocRegs : List Nat := [Reg.FLASH_RELOC, Reg.FLASH_NANDWL, Reg.FLASH_NANDWH]

/-- From c to d units have been read and moved: the maps, the blocks and the counts of moves may differ. -/
structure UnitsMoved (c d : Channel) : Prop where
  frame : d = { c with regs := d.regs, flash := { c.flash with map0 := d.flash.map0, map1 := d.flash.map1, blocks := d.flash.blocks } }
  rd : ∀ a, a ∉ relocRegs → d.rd a = c.rd a

section
variable {l : List Nat} {c d e : Channel}

theorem UnitsMoved.trans (h : UnitsMoved c d) (k : UnitsMoved d e) : UnitsMoved c e where
  frame := by rw [k.frame, h.frame]
  rd a other := (k.rd a other).trans (h.rd a other)

theorem UnitsMoved.mem (h : UnitsMoved c d) : d.mem = c.mem := by rw [h.frame]

theorem UnitsMoved.faultq (h : UnitsMoved c d) : d.faultq = c.faultq := by rw [h.frame]

theorem unitsMoved_of_regs (h : Regs l c d) (sub : l ⊆ relocRegs) : UnitsMoved c d := by
  obtain ⟨frame, kept⟩ := h
  exact ⟨by rw [frame], fun a other => kept a fun here => other (sub here)⟩

theorem unitsMoved_foldl {α : Type} {f : Channel → α → Channel} (h : ∀ c x, UnitsMoved c (f c x)) (xs : List α) (c : Channel) :
    UnitsMoved c (xs.foldl f c) := by
  induction xs generalizing c with
  | nil => exact ⟨rfl, fun _ _ => rfl⟩
  | cons x t ih => exact (h c x).trans (ih (f c x))

end

section
variable (c : Channel)

theorem UnitsMoved.refl : UnitsMoved c c := ⟨rfl, fun _ _ => rfl⟩

theorem unitsMoved_setBlk (b : Nat) (k : NandBlk) : UnitsMoved c (c.setBlk b k) := ⟨rfl, fun _ _ => rfl⟩

theorem unitsMoved_setFmap (g : Bool) (u v : Nat) : UnitsMoved c (c.setFmap g u v) := by
  cases g <;> exact ⟨rfl, fun _ _ => rfl⟩

theorem unitsMoved_pageIn (b : Nat) (off : Bool) : UnitsMoved c (c.pageIn b off) :=
  (unitsMoved_setBlk c b _).trans (unitsMoved_of_regs (regs_nandW _ 1) (by decide))

theorem unitsMoved_moveUnit (u blk : Nat) : UnitsMoved c (c.moveUnit u blk) := by
  have place := unitsMoved_setFmap c (!c.fgen) u (blk + 1)
  have counted := unitsMoved_of_regs (regs_count (c.setFmap (!c.fgen) u (blk + 1)) Reg.FLASH_RELOC 1) (by decide)
  exact (place.trans counted).trans (unitsMoved_pageIn _ blk _)

theorem unitsMoved_relocUnit (u : Nat) : UnitsMoved c (c.relocUnit u) := by
  rw [Channel.relocUnit]
  split
  · exact UnitsMoved.refl c
  · exact unitsMoved_moveUnit c u _

theorem unitsMoved_blkRead (b : Nat) : UnitsMoved c (c.blkRead b) := by
  have read := unitsMoved_setBlk c b { c.blk b with reads := (c.blk b).reads + 1 }
  simp only [Channel.blkRead]
  split
  · exact read.trans (unitsMoved_foldl unitsMoved_relocUnit _ _)
  · exact read

/-- Short of FLASH_RDTHR a read of a block counts, and moves nothing (R299). -/
theorem Channel.blkRead_quiet {b : Nat} (h : (c.blk b).reads + 1 < max 1 (c.rd Reg.FLASH_RDTHR)) :
    c.blkRead b = c.setBlk b { c.blk b with reads := (c.blk b).reads + 1 } := by
  have few : ¬ (max 1 (c.rd Reg.FLASH_RDTHR) ≤ (c.blk b).reads + 1 ∧ (!c.fstat Fl.FLASH_STATUS_SWAP_BUSY) = true) := by omega
  exact if_neg few

theorem Channel.rd_pageIn_other (b : Nat) (off : Bool) {a : Nat} (h : a ∉ [Reg.FLASH_NANDWL, Reg.FLASH_NANDWH]) :
    (c.pageIn b off).rd a = c.rd a := by
  obtain ⟨-, kept⟩ := regs_nandW (c.setBlk b { c.blk b with pages := (c.blk b).pages + 1, off := off }) 1
  exact kept a h

@[simp] theorem Channel.fmap_pageIn (b : Nat) (off g : Bool) (u : Nat) : (c.pageIn b off).fmap g u = c.fmap g u :=
  fmap_of_regs (regs_nandW (c.setBlk b { c.blk b with pages := (c.blk b).pages + 1, off := off }) 1) g u

/-- What a move of a unit leaves in the maps. -/
theorem Channel.fmap_moveUnit (u blk x : Nat) (g : Bool) :
    (c.moveUnit u blk).fmap g x = if g = !c.fgen ∧ x = u then blk + 1 else c.fmap g x := by
  have counted := regs_count (c.setFmap (!c.fgen) u (blk + 1)) Reg.FLASH_RELOC 1
  exact (Channel.fmap_pageIn _ _ _ g x).trans ((fmap_of_regs counted g x).trans (c.fmap_setFmap ..))

theorem Channel.counted_moveUnit (u blk : Nat) : Counted Reg.FLASH_RELOC 1 c (c.moveUnit u blk) := by
  have moved := counted_count (c.setFmap (!c.fgen) u (blk + 1)) Reg.FLASH_RELOC 1
  rw [Counted, Channel.rd_setFmap] at moved
  exact (Channel.rd_pageIn_other _ _ _ (by decide)).trans moved

end

/-! ### Bytes of a unit -/

section
variable (c : Channel) (u : Nat) (data : List Byte)

theorem Channel.putUnit_frame : c.putUnit u data = { c with mem := (c.putUnit u data).mem } := c.pokes_frame _ _

/-- The bytes of a list with their places, below n. -/
theorem mem_zip_places {f : Byte × Nat} {n : Nat} : f ∈ (data.take n).zip (List.range n) ↔ f.2 < n ∧ data[f.2]? = some f.1 := by
  rw [List.mem_iff_getElem?]
  constructor
  · rintro ⟨j, h⟩
    obtain ⟨byte, place⟩ := List.getElem?_zip_eq_some.mp h
    obtain ⟨below, same⟩ := List.getElem?_eq_some_iff.mp place
    rw [List.getElem_range] at same
    rw [List.length_range] at below
    subst same
    exact ⟨below, by rwa [List.getElem?_take_of_lt below] at byte⟩
  · rintro ⟨below, byte⟩
    refine ⟨f.2, List.getElem?_zip_eq_some.mpr ⟨?_, List.getElem?_range below⟩⟩
    rwa [List.getElem?_take_of_lt below]

/-- Bytes of a unit take the data that there is for them. -/
theorem Channel.mem_putUnit_at {i : Nat} (unit : i < 0x4000) (given : i < data.length) :
    mget memDefault (c.putUnit u data).mem (flashUnit u + i) = nth 0 data i := by
  have value : data[i]? = some (nth 0 data i) := by simp [nth, given]
  refine Channel.mem_pokes_at c _ _ ((mem_zip_places data (f := (nth 0 data i, i))).mpr ⟨unit, value⟩) fun f hf key => ?_
  obtain ⟨-, other⟩ := (mem_zip_places data).mp hf
  rw [key, value] at other
  exact (Option.some.inj other).symm

end

/-! ### Reads of NAND (R299, R302) -/

section
variable (c : Channel) (u source : Nat)

/-- The page read of a unit, where it is mapped, before its outcome acts. -/
def Channel.unitRead : Channel := if c.fmap c.fgen u = 0 then c else c.blkRead (c.fmap c.fgen u - 1)

/-- An uncorrectable unit is recorded where no record stands. -/
def Channel.flashRecord : Channel :=
  if c.fld Reg.FLASH_UCSTAT Fl.FLASH_UCSTAT_VALID = 1 then c else (c.wr Reg.FLASH_UCSTAT (1 + source * 2)).wr Reg.FLASH_UCUNIT u

/-- An uncorrectable unit as it is found: its data, the count and the record. -/
def Channel.unitLost (data : List Byte) : Channel := ((c.putUnit u data).count Reg.FLASH_UCCNT 1).flashRecord u source

theorem Channel.nandRead_uncorr (data : List Byte) : c.nandRead u source (.uncorr data) =
    (((c.unitRead u).unitLost u source data).relocUnit u).raise (mkFault 118 fcFlashUncorr none source (flashUnit u)) := rfl

theorem Channel.nandRead_clean : c.nandRead u source .clean = c.unitRead u := rfl

theorem unitsMoved_unitRead : UnitsMoved c (c.unitRead u) := by
  rw [Channel.unitRead]
  split
  · exact UnitsMoved.refl c
  · exact unitsMoved_blkRead c _

theorem regs_flashRecord : Regs [Reg.FLASH_UCSTAT, Reg.FLASH_UCUNIT] c (c.flashRecord u source) := by
  rw [Channel.flashRecord]
  split
  · exact ⟨rfl, fun _ _ => rfl⟩
  · exact regs_trans (regs_wr c _ _) (regs_wr _ _ _)

theorem regs_unitLost (data : List Byte) :
    Regs [Reg.FLASH_UCCNT, Reg.FLASH_UCSTAT, Reg.FLASH_UCUNIT] (c.putUnit u data) (c.unitLost u source data) :=
  regs_trans (regs_count _ Reg.FLASH_UCCNT 1) (regs_flashRecord _ u source)

end

section
variable {c : Channel} {u : Nat}

theorem Channel.unitRead_quiet (mapped : c.fmap c.fgen u ≠ 0)
    (quiet : (c.blk (c.fmap c.fgen u - 1)).reads + 1 < max 1 (c.rd Reg.FLASH_RDTHR)) :
    c.unitRead u = c.setBlk (c.fmap c.fgen u - 1)
      { c.blk (c.fmap c.fgen u - 1) with reads := (c.blk (c.fmap c.fgen u - 1)).reads + 1 } :=
  (if_neg mapped).trans (c.blkRead_quiet quiet)

/-- An uncorrectable read: its count, its record where none stands, the unit's data, and its fault. -/
theorem Channel.nandRead_uncorr_effect (source : Nat) (data : List Byte) :
    Counted Reg.FLASH_UCCNT 1 c (c.nandRead u source (.uncorr data)) ∧
      (c.fld Reg.FLASH_UCSTAT Fl.FLASH_UCSTAT_VALID = 0 → (c.nandRead u source (.uncorr data)).rd Reg.FLASH_UCSTAT = (1 + source * 2) % 2 ^ 32 ∧
        (c.nandRead u source (.uncorr data)).rd Reg.FLASH_UCUNIT = u % 2 ^ 32) ∧
      (∀ i, i < 0x4000 → i < data.length → mget memDefault (c.nandRead u source (.uncorr data)).mem (flashUnit u + i) = nth 0 data i) ∧
      (c.nandRead u source (.uncorr data)).faultq = c.faultq ++ [mkFault 118 fcFlashUncorr none source (flashUnit u)] := by
  have read := unitsMoved_unitRead c u
  have reloc := unitsMoved_relocUnit ((c.unitRead u).unitLost u source data) u
  have lost := regs_unitLost (c.unitRead u) u source data
  have stored (a : Nat) : ((c.unitRead u).putUnit u data).rd a = (c.unitRead u).rd a := by rw [Channel.putUnit_frame]; rfl
  have counts := counted_then_regs (counted_count ((c.unitRead u).putUnit u data) Reg.FLASH_UCCNT 1) (regs_flashRecord _ u source) (by decide)
  rw [Channel.nandRead_uncorr]
  refine ⟨?count, fun clear => ?record, fun i unit given => ?contents, ?fault⟩
  case count =>
    rw [Counted, stored, read.rd _ (by decide)] at counts
    exact (reloc.rd _ (by decide)).trans counts
  case record =>
    have still : (((c.unitRead u).putUnit u data).count Reg.FLASH_UCCNT 1).fld Reg.FLASH_UCSTAT Fl.FLASH_UCSTAT_VALID ≠ 1 := by
      rw [Channel.fld_count_other _ _ _ (by decide), Channel.fld, stored, read.rd _ (by decide), ← Channel.fld, clear]
      decide
    have taken : (c.unitRead u).unitLost u source data =
        ((((c.unitRead u).putUnit u data).count Reg.FLASH_UCCNT 1).wr Reg.FLASH_UCSTAT (1 + source * 2)).wr Reg.FLASH_UCUNIT u := if_neg still
    rw [Channel.rd_raise, Channel.rd_raise, reloc.rd _ (by decide), reloc.rd _ (by decide), taken]
    exact ⟨(Channel.rd_wr_other _ _ (by decide)).trans (Channel.rd_wr_same _ _ _), Channel.rd_wr_same _ _ _⟩
  case contents =>
    rw [Channel.mem_raise, reloc.mem, mem_of_regs lost]
    exact Channel.mem_putUnit_at _ _ _ unit given
  case fault => rw [Channel.faultq_raise, reloc.faultq, faultq_of_regs lost, Channel.putUnit_frame, read.faultq]

end

/-! ### Blocks that are retired (R300, R301) -/

section
variable (c : Channel)

/-- The check for the read-only state changes the status and the faults that wait, where it acts at all. -/
theorem Channel.roCheck_frame : c.roCheck = { c with regs := c.roCheck.regs, faultq := c.roCheck.faultq } ∧
    ∀ a, a ≠ Reg.FLASH_STATUS → c.roCheck.rd a = c.rd a := by
  simp only [Channel.roCheck]
  split
  · exact ⟨rfl, fun a other => c.rd_setFld_other _ _ other⟩
  · exact ⟨rfl, fun _ _ => rfl⟩

theorem Channel.roCheck_of_spare (h : 1024 < c.spare) : c.roCheck = c := if_neg fun few => by omega

/-- A block that is retired, and is counted. -/
def Channel.blkGrown (b : Nat) : Channel := (c.setBlk b { c.blk b with bad := true }).count Reg.FLASH_GROWN 1

variable {c} {b : Nat}

theorem Channel.retireBlk_eq (sound : (c.blk b).bad = false) : c.retireBlk b = (c.blkGrown b).roCheck := if_neg (by rw [sound]; decide)

/-- A sound block that is retired: it is bad and counted; the maps, the buffer and memory stay. -/
theorem Channel.retireBlk_effect (sound : (c.blk b).bad = false) : ((c.retireBlk b).blk b).bad = true ∧ Counted Reg.FLASH_GROWN 1 c (c.retireBlk b) ∧
    c.retireBlk b = { c with regs := (c.retireBlk b).regs, faultq := (c.retireBlk b).faultq,
                             flash := { c.flash with blocks := (c.retireBlk b).flash.blocks } } := by
  obtain ⟨check, kept⟩ := (c.blkGrown b).roCheck_frame
  have grown := regs_count (c.setBlk b { c.blk b with bad := true }) Reg.FLASH_GROWN 1
  rw [Channel.retireBlk_eq sound]
  refine ⟨?bad, (kept _ (by decide)).trans (counted_count (c.setBlk b { c.blk b with bad := true }) Reg.FLASH_GROWN 1), ?frame⟩
  case bad =>
    have same : (c.blkGrown b).roCheck.blk b = (c.blkGrown b).blk b := by rw [check]; rfl
    rw [same, Channel.blkGrown, blk_of_regs grown, Channel.blk_setBlk_same]
  case frame =>
    rw [check, Channel.blkGrown, Channel.count_frame]
    rfl

theorem Channel.sound_of_takes {blk : Nat} {off : Bool} (h : c.blkTakes blk off = true) : (c.blk blk).bad = false := by
  simp only [Channel.blkTakes, Bool.and_eq_true, Bool.not_eq_true'] at h
  obtain ⟨⟨⟨-, sound⟩, -⟩, -⟩ := h
  exact sound

end

/-! ### Accesses that wait -/

/-- With nothing that waits, a retry does nothing. -/
theorem Channel.flashRetry_none {c : Channel} (h : c.flash.waiting = []) : c.flashRetry = c := by
  have same : { c with flash := { c.flash with waiting := [] } } = c := by rw [← h]
  rw [Channel.flashRetry, h, List.foldl_nil, same]

end Sys2Proof.Machine
end

section
/-! Flash reads and writes within one unit (R290, R291, R293, R294, R301 to R303): when they wait, what a read leaves, bytes in the buffer. -/

namespace Sys2Proof.Machine

open Sys2Proof Sys2Proof.Says

/-! ### Flash's row of the address map -/

theorem Channel.row_flashBase (c : Channel) {o : Nat} (h : o < 0x400_0000_0000) : c.row (flashBase + o) = .flash o := by
  have offset : flashBase + o - flashBase = o := Nat.add_sub_cancel_left ..
  rw [Channel.row, if_neg, if_neg, if_neg, if_neg, if_neg, if_neg, if_neg, if_neg, if_neg, if_neg, if_pos, offset]
  all_goals simp only [flashBase, lpBase]; omega

theorem Channel.row_flash_lt {c : Channel} {a o : Nat} (h : c.row a = .flash o) : o < 0x400_0000_0000 := by
  have place := Channel.row_flash h
  unfold Channel.row at h
  iterate 10 replace h := (row_past h nofun).2
  by_cases inside : a < 0x1400_0000_0000
  · simp only [flashBase] at place
    omega
  · rw [if_neg inside] at h
    cases (row_past (row_past h nofun).2 nofun).2

/-! ### Accesses and the units they touch -/

theorem unitsOf_within {o n : Nat} (nonempty : 1 ≤ n) (within : o % 0x4000 + n ≤ 0x4000) : unitsOf o n = [o / 0x4000] := by
  have last : (o + n - 1) / 0x4000 + 1 - o / 0x4000 = 1 := by omega
  rw [unitsOf, if_neg (by omega), last]
  simp [rangeFrom]

section
variable {s : State} {ch : Chan} {a : BitVec 48} {o n : Nat} (row : (s.chan ch).row a.toNat = .flash o)
include row

theorem leaves_flashRead (within : o % 0x4000 + n ≤ 0x4000) (stream : Bool) (res : FlashRes) :
    Leaves (.flashRead ch a n stream res) s ch ((s.chan ch).flashGo (.read o n stream) res) := by
  have below := Channel.row_flash_lt row
  have whole : min n (0x400_0000_0000 - o) = n := by omega
  refine leaves_congr rfl ?_
  dsimp only
  rw [row]
  dsimp only
  rw [whole]

theorem leaves_flashWrite {data : List Byte} (within : o % 0x4000 + data.length ≤ 0x4000) (offl : Bool) :
    Leaves (.flashWrite ch a data offl) s ch ((s.chan ch).flashGo (.write o data offl) .clean) := by
  have below := Channel.row_flash_lt row
  have whole : data.take (0x400_0000_0000 - o) = data := List.take_of_length_le (by omega)
  refine leaves_congr rfl ?_
  dsimp only
  rw [row]
  dsimp only
  rw [whole]

end

/-- Outside flash's row neither access acts. -/
theorem leaves_flash_elsewhere {s : State} {ch : Chan} {a : BitVec 48} (other : ∀ x, (s.chan ch).row a.toNat ≠ .flash x) (n : Nat)
    (stream offl : Bool) (data : List Byte) :
    Leaves (.flashRead ch a n stream .clean) s ch (s.chan ch) ∧ Leaves (.flashWrite ch a data offl) s ch (s.chan ch) := by
  constructor
  all_goals
    refine leaves_congr rfl ?_
    dsimp only
    split
    · next x row => exact absurd row (other x)
    · rfl

/-! ### Accesses that wait (R290, R291, R293, R296, R297) -/

section
variable {c : Channel} {u : Nat}

theorem Channel.flashWaits_read (up : c.fstat Fl.FLASH_STATUS_FAILED = false) : c.flashWaits [u] false = false ↔ FlashServes c u := by
  have one : ([u].contains : Nat → Bool) = (· == u) := by funext x; simp [beq_eq_decide]
  simp only [Channel.flashWaits, FlashServes, one, up, List.all_cons, List.all_nil, List.any_cons, List.any_nil, Bool.and_true, Bool.or_false,
    Bool.false_and, Bool.or_eq_false_iff, Bool.not_eq_false', true_and]
  cases c.flashBuf u with
  | none =>
    simp only [Option.isSome_none, Option.isNone_none, Bool.not_false, Bool.false_eq_true, Bool.and_true, false_or]
    tauto
  | some b =>
    simp only [Option.isSome_some, Option.isNone_some, Bool.not_true, Bool.and_false, true_or, and_true]
    tauto

/-- A write waits for space in the buffer too. -/
theorem Channel.flashWaits_write : c.flashWaits [u] true =
    (c.flashWaits [u] false || decide (2048 < (c.flash.buf.map (·.unit) ++ [u].filter (fun u => (c.flashBuf u).isNone)).length)) := by
  simp only [Channel.flashWaits, Bool.false_and, Bool.or_false, Bool.true_and]

theorem Channel.flashWaits_write_of_room (serves : c.flashWaits [u] false = false) (room : c.flash.buf.length + b2n (c.flashBuf u).isNone ≤ 2048) :
    c.flashWaits [u] true = false := by
  rw [Channel.flashWaits_write, serves]
  cases held : c.flashBuf u <;> simp_all [b2n, List.filter]

theorem Channel.flashWait_eq (r : FlashReq) : c.flashWait r =
    if c.flash.stale = [] then { c with flash := { c.flash with waiting := c.flash.waiting ++ [r] } }
    else Channel.swapStart { c with flash := { c.flash with waiting := c.flash.waiting ++ [r] } } := by
  simp only [Channel.flashWait, List.isEmpty_iff]

end

/-! ### Reads (R290, R302) -/

/-- What a read of a unit leaves in the cache: with STREAM it does not enter. -/
def Channel.cacheRead (c : Channel) (u : Nat) (stream : Bool) : Channel := if stream then c else c.cacheUnit u

theorem Channel.cacheRead_frame (c : Channel) (u : Nat) (stream : Bool) :
    c.cacheRead u stream =
      { c with flash := { c.flash with cache := if stream then c.flash.cache else (c.cacheUnit u).flash.cache } } := by
  cases stream with
  | true => rfl
  | false =>
    obtain ⟨l, entered⟩ : ∃ l, c.cacheUnit u = { c with flash := { c.flash with cache := l } } := ⟨_, rfl⟩
    simp only [Channel.cacheRead, entered, Bool.false_eq_true, if_false]

section
variable {c : Channel} {o n : Nat} {stream : Bool} {res : FlashRes} (nonempty : 1 ≤ n) (within : o % 0x4000 + n ≤ 0x4000)
  (serves : FlashServes c (o / 0x4000))
include nonempty within serves

/-- A read that is served: from the buffer, as zeros, from the cache, or from NAND. -/
theorem Channel.flashGo_read : c.flashGo (.read o n stream) res =
    if c.buffered (o / 0x4000) o n = true ∨ c.fmap c.fgen (o / 0x4000) = 0 then c
    else if c.flash.cache.contains (o / 0x4000) then c.cacheRead (o / 0x4000) stream
    else (c.nandRead (o / 0x4000) 0 res).cacheRead (o / 0x4000) stream := by
  have ⟨_, up, _⟩ := serves
  have go : c.flashWaits [o / 0x4000] false = false := (Channel.flashWaits_read up).mpr serves
  simp only [Channel.flashGo, up, Channel.flashServeR, unitsOf_within nonempty within, go]
  rfl

variable (missed : c.buffered (o / 0x4000) o n = false) (mapped : c.fmap c.fgen (o / 0x4000) ≠ 0)
include missed mapped

theorem Channel.flashGo_cached (held : c.flash.cache.contains (o / 0x4000) = true) :
    c.flashGo (.read o n stream) res = c.cacheRead (o / 0x4000) stream := by
  rw [Channel.flashGo_read nonempty within serves, if_neg (by simp [missed, mapped]), if_pos held]

theorem Channel.flashGo_nand (uncached : c.flash.cache.contains (o / 0x4000) = false) :
    c.flashGo (.read o n stream) res = (c.nandRead (o / 0x4000) 0 res).cacheRead (o / 0x4000) stream := by
  rw [Channel.flashGo_read nonempty within serves, if_neg (by simp [missed, mapped]), if_neg (by rw [uncached]; decide)]

end

/-! ### Bytes in the write buffer (R291) -/

/-- From c to d bytes have entered the write buffer: the buffer and DIRTY may differ. -/
structure Buffering (c d : Channel) : Prop where
  frame : d = { c with regs := d.regs, flash := { c.flash with buf := d.flash.buf } }
  rd : ∀ a, a ≠ Reg.FLASH_STATUS → d.rd a = c.rd a
  fields : FieldsBut Reg.FLASH_STATUS Fl.FLASH_STATUS_DIRTY c d

/-- The controller takes writes. -/
def Channel.flashOpen (c : Channel) : Prop := c.fstat Fl.FLASH_STATUS_FAILED = false ∧ c.fstat Fl.FLASH_STATUS_RO = false

section
variable {c d e : Channel}

theorem Buffering.refl (c : Channel) : Buffering c c := ⟨rfl, fun _ _ => rfl, fun _ _ => rfl⟩

theorem Buffering.trans (h : Buffering c d) (k : Buffering d e) : Buffering c e where
  frame := by rw [k.frame, h.frame]
  rd a other := (k.rd a other).trans (h.rd a other)
  fields g apart := (k.fields g apart).trans (h.fields g apart)

theorem Buffering.flashOpen (h : Buffering c d) (ok : c.flashOpen) : d.flashOpen := by
  obtain ⟨up, writable⟩ := ok
  exact ⟨(fstat_of_fieldsBut h.fields (by decide)).trans up, (fstat_of_fieldsBut h.fields (by decide)).trans writable⟩

theorem Channel.row_of_rd (h : d.rd Reg.KT5_MAP = c.rd Reg.KT5_MAP) (a : Nat) : d.row a = c.row a := by
  have size : d.flatSize = c.flatSize := by rw [Channel.flatSize, Channel.fld, h, Channel.flatSize, Channel.fld]
  rw [Channel.row, size, Channel.row]

/-- A read of another place than the buffer's bytes is as before. -/
theorem Buffering.ldByte (h : Buffering c d) {a : Nat} (same : ∀ o, c.row a = .flash o → d.flashByte o = c.flashByte o) :
    d.ldByte a = c.ldByte a := by
  have row := Channel.row_of_rd (h.rd Reg.KT5_MAP (by decide)) a
  have mem : d.mem = c.mem := by rw [h.frame]
  have otp : d.otp = c.otp := by rw [h.frame]
  have kt5 : d.kt5 = c.kt5 := by rw [h.frame]
  have fence (i : Nat) : Reg.MESH_FENCE (i / 32) ≠ Reg.FLASH_STATUS ∨ 100 ≤ i := by
    simp only [Reg.MESH_FENCE, Reg.FLASH_STATUS]
    omega
  have usable (i : Nat) : d.usable i = c.usable i := by
    rcases fence i with apart | beyond
    · simp only [Channel.usable, Channel.enabled, Channel.fenced, otp, h.rd _ apart]
    · simp [Channel.usable, Channel.enabled, Nat.not_lt.mpr beyond]
  have ctrl : d.rd Reg.KT5_CTRL = c.rd Reg.KT5_CTRL := h.rd _ (by decide)
  have map : d.rd Reg.KT5_MAP = c.rd Reg.KT5_MAP := h.rd _ (by decide)
  have flat (o : Nat) : d.ktAddr o = c.ktAddr o := by
    simp only [Channel.ktAddr, Channel.ktPlace, Channel.ktFind, Channel.ktWayAddr, Channel.ktBack, Channel.fld, ctrl, map, kt5]
  have on : d.ktOn = c.ktOn := by simp only [Channel.ktOn, Channel.fld, ctrl]
  simp only [Channel.ldByte, row, mem, usable, on, flat]
  split
  case h_5 o here => exact same o here
  all_goals rfl

end

section
variable {c : Channel} (ok : c.flashOpen) (o : Nat) (b : Byte) (offl : Bool)

/-- The buffered unit that a byte enters, as the byte leaves it. -/
def Channel.unitWith (c : Channel) (o : Nat) (b : Byte) (offl : Bool) : BufUnit :=
  let d := (c.flashBuf (o / 0x4000)).getD ⟨o / 0x4000, [], offl, false⟩
  let bs := (o % 0x4000, b) :: d.bytes.filter fun e => e.1 != o % 0x4000
  { d with bytes := bs, due := d.due || decide (bs.length = 0x4000) }

/-- The buffer with that unit. -/
def Channel.bufWith (c : Channel) (o : Nat) (b : Byte) (offl : Bool) : List BufUnit :=
  c.flash.buf.filter (fun x => x.unit != o / 0x4000) ++ [c.unitWith o b offl]

theorem Channel.unit_unitWith (c : Channel) : (c.unitWith o b offl).unit = o / 0x4000 := by
  cases held : c.flashBuf (o / 0x4000) with
  | none => simp [Channel.unitWith, held]
  | some x => simpa [Channel.unitWith, held] using List.find?_some held

include ok

theorem Channel.flashPut_eq : c.flashPut o b offl =
    Channel.setFstat { c with flash := { c.flash with buf := c.bufWith o b offl } } Fl.FLASH_STATUS_DIRTY true := by
  obtain ⟨up, writable⟩ := ok
  simp only [Channel.fstat, beq_eq_false_iff_ne] at up writable
  exact if_neg (by simp [up, writable])

theorem buffering_flashPut : Buffering c (c.flashPut o b offl) := by
  rw [Channel.flashPut_eq ok]
  obtain ⟨-, kept⟩ := regs_setFstat { c with flash := { c.flash with buf := c.bufWith o b offl } } Fl.FLASH_STATUS_DIRTY true
  exact ⟨rfl, fun a other => kept a (by simpa using other), fieldsBut_setFstat _ _ _ (by decide)⟩

theorem Channel.dirty_flashPut : (c.flashPut o b offl).fstat Fl.FLASH_STATUS_DIRTY = true := by
  rw [Channel.flashPut_eq ok]
  exact Channel.fstat_setFstat_same _ _ _ (by decide) rfl

theorem Channel.flashBuf_flashPut (x : Nat) :
    (c.flashPut o b offl).flashBuf x = if x = o / 0x4000 then some (c.unitWith o b offl) else c.flashBuf x := by
  have buf : (c.flashPut o b offl).flash.buf = c.bufWith o b offl := by rw [Channel.flashPut_eq ok]; rfl
  rw [Channel.flashBuf, buf, Channel.bufWith, List.find?_append, List.find?_filter]
  split
  case isTrue here =>
    have gone (a : BufUnit) : decide ((a.unit != o / 0x4000) = true ∧ (a.unit == x) = true) = false := by simp [here]
    simp only [gone]
    simp [List.find?_eq_none.mpr, c.unit_unitWith, here]
  case isFalse other =>
    have others (a : BufUnit) : decide ((a.unit != o / 0x4000) = true ∧ (a.unit == x) = true) = (a.unit == x) := by
      by_cases same : a.unit = x <;> simp [same, other]
    simp only [others]
    simp [c.unit_unitWith, Ne.symm other, Channel.flashBuf]

/-- A byte of flash as a read returns it after one has entered the buffer. -/
theorem Channel.flashByte_flashPut (x : Nat) : (c.flashPut o b offl).flashByte x = if x = o then b else c.flashByte x := by
  have put := buffering_flashPut ok o b offl
  have mem : (c.flashPut o b offl).mem = c.mem := c.mem_flashPut o b offl
  have ⟨up, _⟩ := put.flashOpen ok
  have ⟨up0, _⟩ := ok
  simp only [Channel.fstat, beq_eq_false_iff_ne] at up up0
  simp only [Channel.flashByte, if_neg up, if_neg up0, mem, Channel.flashBuf_flashPut ok]
  by_cases unit : x / 0x4000 = o / 0x4000
  · by_cases place : x % 0x4000 = o % 0x4000
    · have same : x = o := by omega
      subst same
      simp [Channel.unitWith]
    · have other : x ≠ o := fun same => place (by rw [same])
      have kept (l : List (Nat × Byte)) : (l.filter fun e => e.1 != o % 0x4000).find? (fun e => e.1 == x % 0x4000) = l.find? (fun e => e.1 == x % 0x4000) := by
        rw [List.find?_filter]
        congr 1
        funext e
        by_cases same : e.1 = x % 0x4000 <;> simp [same, place]
      rw [if_pos unit, if_neg other, unit]
      cases held : c.flashBuf (o / 0x4000) <;> simp [Channel.unitWith, held, Ne.symm place, kept]
  · have other : x ≠ o := fun same => unit (by rw [same])
    rw [if_neg unit, if_neg other]

end

section
variable {c : Channel} {o : Nat} {data : List Byte} {offl : Bool}

theorem Channel.st_flash_cons (b : Byte) (t : List Byte) (h : o < 0x400_0000_0000) :
    c.st (flashBase + o) offl (b :: t) = (c.flashPut o b offl).st (flashBase + (o + 1)) offl t := by
  rw [Channel.st, Channel.stByte, c.row_flashBase h]
  rfl

/-- Bytes stored in flash enter the buffer, and read back. -/
theorem Channel.st_flash (ok : c.flashOpen) (h : o + data.length ≤ 0x400_0000_0000) : Buffering c (c.st (flashBase + o) offl data) ∧
    (data ≠ [] → (c.st (flashBase + o) offl data).fstat Fl.FLASH_STATUS_DIRTY = true) ∧
    (∀ x, x < o ∨ o + data.length ≤ x → (c.st (flashBase + o) offl data).flashByte x = c.flashByte x) ∧
    ∀ i, i < data.length → (c.st (flashBase + o) offl data).flashByte (o + i) = nth 0 data i := by
  induction data generalizing c o with
  | nil => exact ⟨Buffering.refl c, fun filled => absurd rfl filled, fun _ _ => rfl, fun _ inside => absurd inside (Nat.not_lt_zero _)⟩
  | cons b t ih =>
    rw [List.length_cons] at h
    have put := buffering_flashPut ok o b offl
    obtain ⟨rest, dirty, others, stored⟩ := ih (put.flashOpen ok) (o := o + 1) (by omega)
    rw [Channel.st_flash_cons b t (by omega)]
    refine ⟨put.trans rest, fun _ => ?dirty, fun x apart => ?others, fun i inside => ?stored⟩
    case dirty =>
      cases t with
      | nil => exact Channel.dirty_flashPut ok o b offl
      | cons => exact dirty (List.cons_ne_nil _ _)
    case others =>
      rw [List.length_cons] at apart
      rw [others x (by omega), Channel.flashByte_flashPut ok, if_neg (by omega)]
    case stored =>
      cases i with
      | zero => rw [others (o + 0) (by omega), Channel.flashByte_flashPut ok, if_pos (by omega)]; rfl
      | succ i =>
        have later := stored i (by simpa using inside)
        rw [Nat.add_assoc, Nat.add_comm 1 i] at later
        exact later

end

/-! ### The rows -/

section
variable {c : Channel} {o n : Nat} {stream offl : Bool} {data : List Byte}

theorem Channel.flashGo_read_waits (up : c.fstat Fl.FLASH_STATUS_FAILED = false) (waits : c.flashWaits (unitsOf o n) false = true) :
    c.flashGo (.read o n stream) .clean = c.flashWait (.read o n stream) :=
  (if_neg (by rw [up]; decide)).trans (if_pos waits)

variable (ok : c.flashOpen)
include ok

theorem Channel.flashGo_write : c.flashGo (.write o data offl) .clean =
    if c.flashWaits (unitsOf o data.length) true then c.flashWait (.write o data offl) else c.st (flashBase + o) offl data := by
  obtain ⟨up, writable⟩ := ok
  exact if_neg (by simp [up, writable])

/-- A write that is served enters the buffer, reads back, and changes no other byte. -/
theorem Channel.st_flash_effect (filled : data ≠ []) (h : o + data.length ≤ 0x400_0000_0000) :
    let d := c.st (flashBase + o) offl data
    d.ld (flashBase + o) data.length = data ∧ d.mem = c.mem ∧ Regs [Reg.FLASH_STATUS] { c with flash := { c.flash with buf := d.flash.buf } } d ∧
      d.fstat Fl.FLASH_STATUS_DIRTY = true ∧ FieldsBut Reg.FLASH_STATUS Fl.FLASH_STATUS_DIRTY c d ∧
      ∀ x, x < flashBase + o ∨ flashBase + o + data.length ≤ x → d.ldByte x = c.ldByte x := by
  intro d
  obtain ⟨buffering, dirty, others, stored⟩ := Channel.st_flash (offl := offl) ok h
  refine ⟨?ld, (congrArg Channel.mem buffering.frame :), ⟨buffering.frame, fun a other => buffering.rd a (by simpa using other)⟩, dirty filled, buffering.fields,
    fun x apart => buffering.ldByte fun y row => others y ?elsewhere⟩
  case ld =>
    refine List.ext_getElem? fun i => ?_
    rw [Channel.ld_eq_map, List.getElem?_map]
    by_cases inside : i < data.length
    · have row : d.row (flashBase + o + i) = .flash (o + i) := by
        rw [Nat.add_assoc]
        exact d.row_flashBase (by omega)
      rw [List.getElem?_range inside, Option.map_some, Channel.ldByte, row]
      simpa [nth, inside] using stored i inside
    · simp [inside]
  case elsewhere =>
    have place := Channel.row_flash row
    omega

end

/-- Settles O27: an access by whether the controller serves, holds or drops it; a read that is served by where its unit is. -/
theorem flashAccesses : Obligations.FlashAccesses := by
  intro ch a o u n stream offl data bad s c blk rd wr held later
  refine ⟨fun other => leaves_flash_elsewhere other n stream offl data, fun row unit nonempty within len => ?_⟩
  subst unit len
  have below := Channel.row_flash_lt row
  have place := Channel.row_flash row
  have units := unitsOf_within nonempty within
  have read := leaves_flashRead row within stream
  have write := leaves_flashWrite row within offl
  have drop {i : Instr} (h : Leaves i s ch (c.count Reg.FLASH_DROP 1)) :
      ∃ d, Leaves i s ch d ∧ Regs [Reg.FLASH_DROP] c d ∧ Counted Reg.FLASH_DROP 1 c d :=
    ⟨_, h, regs_count c _ 1, counted_count c _ 1⟩
  refine ⟨fun serves => ⟨fun known => ?known, fun missed mapped hit => ?cached, fun missed mapped uncached => ⟨fun quiet => ?nand, ?lost⟩,
    fun writable room => ?writes⟩, fun failed => ?failed, fun up ro => ?readOnly, fun up unready => ?waits⟩
  case known =>
    exact leaves_congr (read .clean) ((Channel.flashGo_read nonempty within serves).trans (if_pos known))
  case cached => exact leaves_congr (read .clean) (Channel.flashGo_cached nonempty within serves missed mapped hit)
  case nand =>
    have go : c.flashGo (.read o data.length stream) .clean = _ := Channel.flashGo_nand nonempty within serves missed mapped uncached
    rw [Channel.nandRead_clean, Channel.unitRead_quiet mapped quiet] at go
    have cache := Channel.cacheRead_frame (c.setBlk blk { c.blk blk with reads := (c.blk blk).reads + 1 }) (o / 0x4000) stream
    refine ⟨_, leaves_congr (read .clean) (go.trans cache), rfl, Channel.blk_setBlk_same .., fun x other => (c.blk_setBlk ..).trans (if_neg other), rfl⟩
  case lost =>
    obtain ⟨count, record, contents, fault⟩ := c.nandRead_uncorr_effect (u := o / 0x4000) 0 bad
    have cache := (c.nandRead (o / 0x4000) 0 (.uncorr bad)).cacheRead_frame (o / 0x4000) stream
    have go := (Channel.flashGo_nand nonempty within serves missed mapped uncached).trans cache
    refine ⟨_, _, leaves_congr (read (.uncorr bad)) go, count, fun clear => ?_, contents, fault, code_mkFault (by decide) .., rfl, arg1_mkFault ?_ ..⟩
    · obtain ⟨stat, unit⟩ := record clear
      exact ⟨stat, unit.trans (Nat.mod_eq_of_lt (by omega))⟩
    · simp only [flashUnit, flashBase]
      omega
  case writes =>
    have ⟨_, up, _⟩ := serves
    have ok : c.flashOpen := ⟨up, writable⟩
    have go : c.flashWaits (unitsOf o data.length) true = false := by
      rw [units]
      exact Channel.flashWaits_write_of_room ((Channel.flashWaits_read up).mpr serves) room
    have nonnil : data ≠ [] := List.ne_nil_of_length_pos nonempty
    have effect := Channel.st_flash_effect ok (offl := offl) nonnil (o := o) (by omega)
    dsimp only at effect
    rw [← place] at effect
    exact ⟨_, leaves_congr write ((Channel.flashGo_write ok).trans ((if_neg (by rw [go]; decide)).trans (by rw [← place]))), effect⟩
  case failed => exact ⟨drop (leaves_congr (read .clean) (if_pos failed)), drop (leaves_congr write (if_pos (.inl failed)))⟩
  case readOnly => exact drop (leaves_congr write (if_pos (.inr ro)))
  case waits =>
    have waits : c.flashWaits [o / 0x4000] false = true := Bool.not_eq_false _ ▸ mt (Channel.flashWaits_read up).mp unready
    refine ⟨leaves_congr (read .clean) ?_, fun writable => leaves_congr write ?_⟩
    · rw [Channel.flashGo_read_waits up (by rw [units, waits]), Channel.flashWait_eq]
    · rw [Channel.flashGo_write ⟨up, writable⟩, units, Channel.flashWaits_write, waits, Bool.true_or, if_pos rfl, Channel.flashWait_eq]

end Sys2Proof.Machine
end

section
/-! A flash unit that is not due while an entry into a power state waits for its flush (R291, R481): the row still moves the entry on. -/

namespace Sys2Proof.Machine

open Sys2Proof Sys2Proof.Says

theorem leaves_unique {i : Instr} {s : State} {ch : Chan} {x y : Channel} (h : Leaves i s ch x) (k : Leaves i s ch y) : x = y := by
  have same := congrArg (State.chan · ch) (Host.Outcome.next.inj (h.symm.trans k))
  simpa using same

/-- A channel as LUN_BUSY_TIMEOUT leaves it while an entry into C3 flushes (step 2): unit 1 is in the buffer, and the controller has failed. -/
def flushFailed : Channel :=
  let flushing := { Channel.reset 0 with
    flash := { FlashSt.reset with buf := [⟨1, [(0, 3)], false, true⟩] }
    pwr := { PwrSt.reset with entry := some ⟨3, 0x11, 2, none⟩ } }
  ((flushing.setFstat Fl.FLASH_STATUS_READY true).setBusy true).flashFail

/-- The flush of the entry has no more to wait for: its step 3 begins. -/
theorem entry_flushGo_flushFailed : flushFailed.flushGo.pwr.entry = some ⟨3, 0x11, 3, none⟩ := by decide +kernel

/-- Refutes O28: unit 0 is not in the buffer, and yet FLASH_UNIT_PROGRAM does not leave the channel as it is, for an entry into C3 whose flush
waits goes on to its step 3. -/
theorem not_flashPrograms : ¬ Obligations.FlashPrograms := by
  unfold Obligations.FlashPrograms
  intro h
  obtain ⟨-, -, undue, -⟩ := h 0 0 0 ⟨0, [], false, false⟩ .clean .pf 0 (State.reset.setChan 0 flushFailed)
  have stays : Leaves (.flashUnitProgram 0 0 0 true .clean) (State.reset.setChan 0 flushFailed) 0 flushFailed := undue (.inl rfl) true
  have goes : Leaves (.flashUnitProgram 0 0 0 true .clean) (State.reset.setChan 0 flushFailed) 0 flushFailed.flushGo := rfl
  have step : flushFailed.pwr.entry = some ⟨3, 0x11, 3, none⟩ := by
    rw [leaves_unique stays goes]
    exact entry_flushGo_flushFailed
  exact absurd step (by decide)

end Sys2Proof.Machine
end

section
/-! The flash map's generations (R295 to R297), and the background work and failures of the controller (R298 to R303). -/

namespace Sys2Proof.Machine

open Sys2Proof Sys2Proof.Says

/-! ### Swaps -/

section
variable {c : Channel}

theorem Channel.swapStart_up (ready : c.fstat Fl.FLASH_STATUS_READY = true) (up : c.fstat Fl.FLASH_STATUS_FAILED = false) :
    c.swapStart = c.setFstat Fl.FLASH_STATUS_SWAP_BUSY true := if_pos ⟨ready, by rw [up]; rfl⟩

theorem Channel.swapStart_down (down : c.fstat Fl.FLASH_STATUS_READY = false ∨ c.fstat Fl.FLASH_STATUS_FAILED = true) : c.swapStart = c :=
  if_neg fun ⟨ready, up⟩ => by rcases down with unready | failed <;> simp_all

end

/-- FLASH_CTRL as the register table has it. -/
def flashCtrlRow : RegRow := ⟨"FLASH_CTRL", 0x2804, [], [⟨0, 1, .wo, 0x0⟩, ⟨1, 1, .wo, 0x0⟩, ⟨2, 10, .rw, 0xA⟩, ⟨12, 8, .rw, 0xC8⟩]⟩

theorem regRow_flashCtrl : regRow Reg.FLASH_CTRL = some flashCtrlRow := by decide +kernel

/-- SWAP without FLUSH: what FLASH_CTRL takes, and the start of a swap. -/
theorem leavesF_flashSwap {s : State} {ch : Chan} {m : Master} (lands : Lands s ch m Reg.FLASH_CTRL) {v : Word} (noFlush : bit v.toNat 0 = false) :
    LeavesF 128 (.flashSwap ch m v) s ch ((s.chan ch).plainWrite Reg.FLASH_CTRL (bitOn v 1)).swapStart := by
  have ⟨_, _, _, _, _, may⟩ := lands
  have swap : bit (bitOn v 1) 1 = true := bit_bitOn v 1
  have flush : bit (bitOn v 1) 0 = false := by
    rw [← noFlush]
    exact (setBits_testBit _ _ _ _ _).trans (if_pos (by decide))
  have block : (s.chan ch).blockWrite s.free m Reg.FLASH_CTRL (bitOn v 1) = (s.chan ch).flashCtrl (bitOn v 1) := rfl
  have write : (s.chan ch).regWrite s.free m Reg.FLASH_CTRL (bitOn v 1) = ((s.chan ch).plainWrite Reg.FLASH_CTRL (bitOn v 1)).swapStart := by
    have aligned : Reg.FLASH_CTRL % 4 = 0 := by decide
    have core : inCoreBlock Reg.FLASH_CTRL = false := by decide
    simp [Channel.regWrite, regRow_flashCtrl, may, aligned, core, block, Channel.flashCtrl, swap, flush]
  exact congrArg Host.Outcome.next ((State.regTo_of_lands lands (by decide) _).trans (by rw [write]))

theorem regs_plainWrite (c : Channel) (a v : Nat) : Regs [a] c (c.plainWrite a v) :=
  ⟨c.plainWrite_frame a v, fun _ other => c.rd_plainWrite_other v (List.ne_of_not_mem_cons other)⟩

section
variable (c : Channel)

/-- Both generations become m, and no unit is STALE. -/
def Channel.withMaps (m : List (Nat × Nat)) : Channel :=
  { c with flash := { c.flash with map0 := m, map1 := m, stale := [], lastSwap := c.ts } }

theorem Channel.rd_withMaps (m : List (Nat × Nat)) (a : Nat) : (c.withMaps m).rd a = c.rd a := rfl

/-- The maps as a swap leaves them: the pending generation twice. -/
def Channel.mapsSwapped : Channel := (c.nandW c.mapPages).withMaps (if c.fgen then c.flash.map0 else c.flash.map1)

/-- The status as a swap leaves it: the other generation is active. -/
def Channel.genSwapped : Channel := (c.mapsSwapped.setFstat Fl.FLASH_STATUS_MAP_GEN (!c.fgen)).setFstat Fl.FLASH_STATUS_SWAP_BUSY false

theorem Channel.rd_genSwapped {a : Nat} (h : a ∉ [Reg.FLASH_NANDWL, Reg.FLASH_NANDWH, Reg.FLASH_STATUS]) : c.genSwapped.rd a = c.rd a := by
  simp only [List.mem_cons, List.not_mem_nil, or_false, not_or] at h
  obtain ⟨low, high, status⟩ := h
  obtain ⟨-, kept⟩ := regs_nandW c c.mapPages
  have maps : c.mapsSwapped.rd a = c.rd a := (Channel.rd_withMaps _ _ a).trans (kept a (by simp [low, high]))
  exact (Channel.rd_setFld_other _ _ _ status).trans ((Channel.rd_setFld_other _ _ _ status).trans maps)

theorem Channel.fgen_genSwapped : c.genSwapped.fgen = !c.fgen :=
  (fstat_of_fieldsBut (fieldsBut_setFstat _ Fl.FLASH_STATUS_SWAP_BUSY false (by decide)) (by decide)).trans
    (Channel.fstat_setFstat_same c.mapsSwapped Fl.FLASH_STATUS_MAP_GEN (!c.fgen) (by decide) rfl)

variable {c}

theorem Channel.swapDone_busy (busy : c.fstat Fl.FLASH_STATUS_SWAP_BUSY = true) (idle : c.flash.waiting = []) :
    c.swapDone 0 = c.genSwapped.count Reg.FLASH_SWAPS 1 := by
  have goes : c.swapDone 0 = (c.genSwapped.count Reg.FLASH_SWAPS 1).flashRetry := if_neg (by rw [busy]; decide)
  exact goes.trans (Channel.flashRetry_none idle)

end

/-- The map's generations: when a swap starts, and what its end leaves. -/
theorem flashSwaps : FlashSwaps := by
  intro ch m v s c a
  refine ⟨fun ready up => ⟨?interval, fun lands noFlush => ?command⟩, fun down => leaves_congr rfl (Channel.swapStart_down down),
    fun busy idle => ?ends, fun idle => leaves_congr rfl (if_pos (by rw [idle]; rfl))⟩
  case interval =>
    exact ⟨_, leaves_congr rfl (Channel.swapStart_up ready up), regs_setFstat c _ _, c.fstat_setFstat_same _ _ (by decide) rfl,
      fieldsBut_setFstat c _ _ (by decide)⟩
  case command =>
    have written := regs_plainWrite c Reg.FLASH_CTRL (bitOn v 1)
    have status := fstat_of_regs written (by decide)
    have started := Channel.swapStart_up ((status _).trans ready) ((status _).trans up)
    refine ⟨_, leavesF_congr (leavesF_flashSwap lands noFlush) started, ?_, Channel.fstat_setFstat_same _ _ _ (by decide) rfl, fun g apart => ?_⟩
    · exact regs_mono (regs_trans written (regs_setFstat _ _ _)) (by simp [a])
    · exact (fieldsBut_setFstat _ Fl.FLASH_STATUS_SWAP_BUSY true (by decide) g apart).trans (fld_of_regs written (by decide) g)
  case ends =>
    have counted := regs_count c.genSwapped Reg.FLASH_SWAPS 1
    have status := fstat_of_regs counted (by decide)
    refine ⟨_, leaves_congr rfl (Channel.swapDone_busy busy idle), (status _).trans c.fgen_genSwapped,
      (status _).trans (Channel.fstat_setFstat_same _ _ _ (by decide) rfl), rfl, rfl, rfl, ?count, rfl, rfl⟩
    case count =>
      rw [Counted, ← c.rd_genSwapped (a := Reg.FLASH_SWAPS) (by decide)]
      exact counted_count c.genSwapped Reg.FLASH_SWAPS 1

/-! ### Background work and failures -/

section
variable {c : Channel} {u blk : Nat}

/-- A read of a unit, which moves none, changes blocks alone. -/
theorem Channel.unitRead_frame (quiet : c.fmap c.fgen u ≠ 0 → (c.blk (c.fmap c.fgen u - 1)).reads + 1 < max 1 (c.rd Reg.FLASH_RDTHR)) :
    ∃ l, c.unitRead u = { c with flash := { c.flash with blocks := l } } := by
  by_cases mapped : c.fmap c.fgen u = 0
  · exact ⟨c.flash.blocks, if_pos mapped⟩
  · exact ⟨_, Channel.unitRead_quiet mapped (quiet mapped)⟩

theorem leaves_flashRelocate {s : State} {ch : Chan} {unit : Fin 268435456} (up : FlashUp (s.chan ch))
    (mapped : (s.chan ch).fmap (!(s.chan ch).fgen) unit.val ≠ 0) (takes : (s.chan ch).blkTakes blk ((s.chan ch).unitKind unit.val) = true) (ok : Bool) :
    Leaves (.flashRelocate ch unit blk .clean ok) s ch
      (let d := (s.chan ch).unitRead unit.val
       if !ok then (d.nandW 1).retireBlk blk else if d.blkTakes blk (d.unitKind unit.val) then d.moveUnit unit.val blk else d) := by
  obtain ⟨ready, idle, -⟩ := up
  exact leaves_congr rfl (if_neg (by simp [mapped, takes, ready, idle]))

/-- A unit that moves to a block in the pending generation, after a read that moves none (R295). -/
theorem Channel.fmap_moveUnit_unitRead {l : List (Nat × NandBlk)} (read : c.unitRead u = { c with flash := { c.flash with blocks := l } }) (g : Bool) (x : Nat) :
    ((c.unitRead u).moveUnit u blk).fmap g x = if g = !c.fgen ∧ x = u then blk + 1 else c.fmap g x := by
  rw [Channel.fmap_moveUnit, read]
  rfl

/-- The block of a failed program is retired; the maps stay (R300). -/
theorem Channel.retireBlk_nandW_unitRead {l : List (Nat × NandBlk)} (read : c.unitRead u = { c with flash := { c.flash with blocks := l } })
    (sound : ((c.unitRead u).blk blk).bad = false) :
    let d := ((c.unitRead u).nandW 1).retireBlk blk
    (d.blk blk).bad = true ∧ Counted Reg.FLASH_GROWN 1 c d ∧ d.mem = c.mem ∧ ∀ x g, d.fmap g x = c.fmap g x := by
  have programmed := regs_nandW (c.unitRead u) 1
  obtain ⟨bad, count, frame⟩ := Channel.retireBlk_effect ((congrArg NandBlk.bad (blk_of_regs programmed blk)).trans sound)
  have grown : ((c.unitRead u).nandW 1).rd Reg.FLASH_GROWN = c.rd Reg.FLASH_GROWN := by
    obtain ⟨-, kept⟩ := programmed
    rw [kept _ (by decide), read]
    rfl
  rw [Counted, grown] at count
  refine ⟨bad, count, ?_, fun x g => ?_⟩ <;> rw [frame, Channel.nandW, read] <;> rfl

theorem Channel.blockScrub_empty (active : c.unitsIn c.fgen blk = []) (pending : c.unitsIn (!c.fgen) blk = []) (sound : (c.blk blk).bad = false)
    (ok : Bool) : c.blockScrub blk [] ok =
      if !ok then c.retireBlk blk else c.setBlk blk { c.blk blk with reads := 0, erases := (c.blk blk).erases + 1, pages := 0 } := by
  have empty : (c.unitsIn c.fgen blk).isEmpty = true ∧ (c.unitsIn (!c.fgen) blk).isEmpty = true := by simp [active, pending]
  simp [Channel.blockScrub, empty, sound]

end

theorem leaves_retentionScrub {s : State} {ch : Chan} {blk : Nat} (up : FlashUp (s.chan ch))
    (active : (s.chan ch).unitsIn (s.chan ch).fgen blk = []) (pending : (s.chan ch).unitsIn (!(s.chan ch).fgen) blk = [])
    (sound : ((s.chan ch).blk blk).bad = false) (ok : Bool) :
    Leaves (.retentionScrub ch blk [] ok) s ch (if !ok then (s.chan ch).retireBlk blk else
      (s.chan ch).setBlk blk { (s.chan ch).blk blk with reads := 0, erases := ((s.chan ch).blk blk).erases + 1, pages := 0 }) := by
  obtain ⟨ready, idle, -⟩ := up
  exact leaves_congr rfl ((if_pos ⟨ready, by rw [idle]; rfl⟩).trans (Channel.blockScrub_empty active pending sound ok))

/-- A worn spread moves the only unit of the least erased block (R298). -/
theorem Channel.wearLevel_one {c : Channel} {src u blk : Nat} (idle : c.fstat Fl.FLASH_STATUS_SWAP_BUSY = false)
    (spread : c.fld Reg.FLASH_CTRL Fl.FLASH_CTRL_WL_SPREAD < c.eraseMax - (c.blk src).erases)
    (least : c.erasures.all (fun x => decide ((c.blk src).erases ≤ x)) = true) (sound : (c.blk blk).bad = false)
    (alone : c.unitsIn (!c.fgen) src = [u]) (room : (c.blk blk).pages < blkPages) : c.wearLevel src blk true = c.moveUnit u blk := by
  have goes : c.wearLevel src blk true = ([u].take (blkPages - (c.blk blk).pages)).foldl (fun c u => c.moveUnit u blk) c := by
    simp only [Channel.wearLevel, alone]
    exact (if_pos ⟨spread, least, by rw [sound]; rfl, by rw [idle]; rfl⟩).trans (if_neg fun failed => absurd failed.1 (by decide))
  have all : [u].take (blkPages - (c.blk blk).pages) = [u] := List.take_of_length_le (by simp; omega)
  rw [goes, all]
  rfl

/-- Background work and failures. -/
theorem flashUpkeep : FlashUpkeep := by
  intro ch unit blk s c u a quiet
  refine ⟨fun up mapped takes still room => ⟨?moves, ?fails⟩, fun unmapped ok => leaves_congr rfl (if_pos (.inl unmapped)),
    fun up active pending sound => ⟨?erased, fun _ => ?unerased⟩, fun unready => ?unreadyScrub, fun src up spread least sound alone pages => ?levels,
    fun src small => ?level, fun up idle => ?down, fun failed => leaves_congr rfl (if_pos failed), fun unready up enough idle => ?rebuilt,
    fun ready => leaves_congr rfl (if_pos (.inl ready))⟩
  case moves =>
    obtain ⟨l, read⟩ := Channel.unitRead_frame still
    have maps := Channel.fmap_moveUnit_unitRead (blk := blk) read
    have count := (c.unitRead u).counted_moveUnit u blk
    have uncounted : (c.unitRead u).rd Reg.FLASH_RELOC = c.rd Reg.FLASH_RELOC := by rw [read]; rfl
    rw [Counted, uncounted] at count
    refine ⟨_, leaves_congr (leaves_flashRelocate up mapped takes true) (if_pos room), (maps _ u).trans (if_pos ⟨rfl, rfl⟩),
      (maps _ u).trans (if_neg (by simp)), count, ?mem, fun x other g => (maps g x).trans (if_neg fun ⟨_, same⟩ => other same)⟩
    case mem => exact (unitsMoved_moveUnit _ u blk).mem.trans (unitsMoved_unitRead c u).mem
  case fails =>
    obtain ⟨l, read⟩ := Channel.unitRead_frame still
    exact ⟨_, leaves_flashRelocate up mapped takes false, Channel.retireBlk_nandW_unitRead read (Channel.sound_of_takes room)⟩
  case erased =>
    exact ⟨_, leaves_retentionScrub up active pending sound true, rfl, Channel.blk_setBlk_same .., fun x other => (c.blk_setBlk ..).trans (if_neg other)⟩
  case unerased =>
    obtain ⟨bad, count, frame⟩ := Channel.retireBlk_effect sound
    exact ⟨_, leaves_retentionScrub up active pending sound false, bad, count, (congrArg Channel.mem frame :)⟩
  case unreadyScrub => exact leaves_congr rfl (if_neg fun ⟨ready, _⟩ => Bool.false_ne_true (unready.symm.trans ready))
  case levels =>
    obtain ⟨-, idle, -⟩ := up
    exact ⟨_, leaves_congr rfl (Channel.wearLevel_one idle spread least sound alone pages), (c.fmap_moveUnit ..).trans (if_pos ⟨rfl, rfl⟩),
      c.counted_moveUnit u blk, (unitsMoved_moveUnit c u blk).mem⟩
  case level => exact leaves_congr rfl (if_neg fun ⟨spread, _⟩ => Nat.not_lt.mpr small spread)
  case down =>
    have failed := regs_setFstat c Fl.FLASH_STATUS_FAILED true
    have fails : c.flashFail = (c.setFstat Fl.FLASH_STATUS_FAILED true).flashFault fcFlashDown
        ((c.setFstat Fl.FLASH_STATUS_FAILED true).rd Reg.FLASH_STATUS) 0 :=
      (if_neg (by rw [up]; decide)).trans (Channel.flashRetry_none idle)
    exact ⟨_, _, leaves_congr rfl fails, c.fstat_setFstat_same _ _ (by decide) rfl, rfl, code_mkFault (by decide) .., rfl,
      ⟨rfl, failed.2⟩, rfl⟩
  case rebuilt =>
    have ready : c.flashReady = c.setFstat Fl.FLASH_STATUS_READY true := by
      have spare : 1024 < (c.setFstat Fl.FLASH_STATUS_READY true).spare := by
        obtain ⟨-, kept⟩ := regs_setFstat c Fl.FLASH_STATUS_READY true
        rw [Channel.spare, kept _ (by decide)]
        exact enough
      rw [Channel.flashReady, if_neg (by simp [unready, up]), Channel.roCheck_of_spare _ spare]
      exact Channel.flashRetry_none idle
    exact ⟨_, leaves_congr rfl ready, regs_setFstat c _ _, rfl, c.fstat_setFstat_same _ _ (by decide) rfl, fieldsBut_setFstat c _ _ (by decide)⟩

/-- Settles O29: a swap by whether the controller is up and a swap runs; each piece of background work by the lemma that says what it leaves. -/
theorem flashMaps : Obligations.FlashMaps := ⟨flashSwaps, flashUpkeep⟩

end Sys2Proof.Machine
end

section
/-! Timeouts of collectives (R386), and the press: it begins when every core is done, and may wait too long for its COMMIT (R332, R391). -/

namespace Sys2Proof.Machine

open Sys2Proof Sys2Proof.Says

/-- With no remote write and no PERMUTE in the channel an event sets nothing further off. -/
theorem Channel.onward_quiet {c : Channel} (quiet : LinkQuiet c) (fr : Nat) : c.onward fr = c := by
  obtain ⟨noReqs, noPerms⟩ := quiet
  have pumped : c.rwPump = c := by rw [Channel.rwPump, noReqs]; rfl
  have settled : Channel.rwSettle c.yl.reqs.length c = c := by rw [noReqs]; exact pumped
  have once : c.onward fr = Channel.permPump fr 1 c := by rw [Channel.onward, noReqs, noPerms]; rfl
  rw [once, Channel.permPump, settled, noPerms]
  rfl

theorem Channel.step_setStep_same (c : Channel) (x : Nat) (t : StepSt) : (c.setStep x t).step x = t := mget_mset_same ..

/-- Once the context's buckets have joined the queue, a reduction that starts leaves the channel as it is (R380). -/
theorem Channel.reductionStart_reducing {c : Channel} {x : Nat} (reducing : (c.step x).reducing = true) : c.reductionStart x = c :=
  if_pos (.inr (.inl reducing))

/-- A fault of a node beyond the cores. -/
theorem node_mkFault_block {node : Nat} (h : node < 128) (code : Nat) (x : Option Nat) (a b : Nat) : (mkFault node code x a b).node.val = node :=
  Nat.mod_eq_of_lt h

theorem ctx_mkFault (node code : Nat) (x : Ctx) (a b : Nat) : (mkFault node code (some x.val) a b).ctx = x := Fin.ofNat_val_eq_self x

theorem arg0_mkFault {a : Nat} (h : a < 2 ^ 32) (node code : Nat) (x : Option Nat) (b : Nat) : (mkFault node code x a b).arg0.toNat = a := by
  rw [mkFault, BitVec.toNat_ofNat, Nat.mod_eq_of_lt h]

/-! ### The vote of a channel (R332) -/

/-- The channel's vote for the step of context x: PHASE is VOTED, and the step records when. -/
def Channel.vote (c : Channel) (x : Nat) : Channel :=
  (c.setFld (Reg.UPD_PRESS x) Fl.UPD_PRESS_PHASE phVoted).setStep x { c.step x with voted := c.ts }

/-- The press of context x may begin: in STEP, in phase LOCAL, and the U program of every owned core has ended. -/
structure PressDue (c : Channel) (x : Nat) : Prop where
  inStep : c.ctxState x = ctxStep
  inLocal : c.phase x = phLocal
  allDone : (c.ownedSites x).all (fun i => (c.core i).uDone) = true

section
variable (c : Channel) (x : Nat)

theorem Channel.regs_vote : Regs [Reg.UPD_PRESS x] { c with steps := (c.vote x).steps } (c.vote x) :=
  regs_setFld { c with steps := (c.vote x).steps } _ Fl.UPD_PRESS_PHASE phVoted

theorem Channel.phase_vote : (c.vote x).phase x = phVoted := c.fld_setFld_same _ Fl.UPD_PRESS_PHASE phVoted (by decide)

theorem Channel.multi_vote : (c.vote x).fld (Reg.UPD_PRESS x) Fl.UPD_PRESS_MULTI = c.fld (Reg.UPD_PRESS x) Fl.UPD_PRESS_MULTI :=
  c.fld_setFld_field _ Fl.UPD_PRESS_PHASE Fl.UPD_PRESS_MULTI phVoted (by decide) (by decide)

theorem Channel.voted_vote : ((c.vote x).step x).voted = c.ts := congrArg StepSt.voted (Channel.step_setStep_same ..)

end

section
variable {c : Channel} {x : Nat}

/-- A press that is due votes, then goes round the group of a job of many channels; a channel alone commits at once. -/
theorem Channel.pressBegin_due (due : PressDue c x) (reducing : (c.step x).reducing = true) (fr : Nat) :
    c.pressBegin fr x = if c.fld (Reg.UPD_PRESS x) Fl.UPD_PRESS_MULTI = 1 then ((c.vote x).chainBegin x fr (.votes 1)).pumpHeld fr
      else (c.vote x).commitStep x := by
  have goes : ¬ (c.ctxState x ≠ ctxStep ∨ c.phase x ≠ phLocal ∨ (!(c.ownedSites x).all fun i => (c.core i).uDone) = true) := by
    simp [due.inStep, due.inLocal, due.allDone]
  rw [Channel.pressBegin, if_neg goes, Channel.reductionStart_reducing reducing, ← c.multi_vote x]
  rfl

theorem Channel.pressBegin_many (due : PressDue c x) (reducing : (c.step x).reducing = true)
    (multi : c.fld (Reg.UPD_PRESS x) Fl.UPD_PRESS_MULTI = 1) (fr : Nat) :
    c.pressBegin fr x = ((c.vote x).chainBegin x fr (.votes 1)).pumpHeld fr := (Channel.pressBegin_due due reducing fr).trans (if_pos multi)

theorem Channel.pressBegin_alone (due : PressDue c x) (reducing : (c.step x).reducing = true)
    (alone : c.fld (Reg.UPD_PRESS x) Fl.UPD_PRESS_MULTI = 0) (fr : Nat) : c.pressBegin fr x = (c.vote x).commitStep x :=
  (Channel.pressBegin_due due reducing fr).trans (if_neg (by rw [alone]; decide))

theorem Channel.pressBegin_not_local (early : c.phase x ≠ phLocal) (fr : Nat) : c.pressBegin fr x = c := if_pos (.inr (.inl early))

end

/-! ### The rows -/

section
variable {ch : Chan} {x : Ctx} {s : State}

theorem leavesF_pressBegin {d : Channel} (h : (s.chan ch).pressBegin s.free x.val = d) :
    LeavesF 128 (.pressBegin ch x) s ch (d.onward s.free) :=
  leavesF_congr (x := ((s.chan ch).pressBegin s.free x.val).onward s.free) rfl (by rw [h])

theorem leaves_collTimeout_running {tag : BitVec 16} {ep : Nat} (running : (s.chan ch).collEpoch x.val tag.toNat = some ep) :
    Leaves (.collTimeout ch x tag) s ch ((s.chan ch).raise (mkFault 101 fcTatTimeout (some x.val) tag.toNat ep)) :=
  leaves_congr rfl (by simp only [running])

theorem leaves_collTimeout_none {tag : BitVec 16} (idle : (s.chan ch).collEpoch x.val tag.toNat = none) :
    Leaves (.collTimeout ch x tag) s ch (s.chan ch) :=
  leaves_congr rfl (by simp only [idle])

end

/-- Settles O41: a timeout by whether something waits for an answer, the press by whether it is due and whether the job has other channels. -/
theorem pressAndTimeouts : Obligations.PressAndTimeouts := by
  intro ch x tag ep s c a
  refine ⟨fun running => ?late, leaves_collTimeout_none, fun inStep inLocal allDone alone reducing => ?alone,
    fun inStep inLocal allDone multi reducing => ?many, fun early quiet => ?early, fun voted inStep multi => ?stuck, fun alone => ?idle⟩
  case late =>
    exact ⟨_, leaves_collTimeout_running running, code_mkFault (by decide) .., node_mkFault_block (by decide) .., ctx_mkFault ..,
      arg0_mkFault (Nat.lt_trans tag.isLt (by decide)) ..⟩
  case alone =>
    exact ⟨c.vote x.val, leavesF_pressBegin (Channel.pressBegin_alone ⟨inStep, inLocal, allDone⟩ reducing alone _), c.regs_vote _,
      c.phase_vote _, c.voted_vote _⟩
  case many =>
    exact ⟨c.vote x.val, leavesF_pressBegin (Channel.pressBegin_many ⟨inStep, inLocal, allDone⟩ reducing multi _), c.regs_vote _,
      c.phase_vote _⟩
  case early =>
    exact leavesF_congr (leavesF_pressBegin (Channel.pressBegin_not_local early _)) (Channel.onward_quiet quiet _)
  case stuck =>
    have epoch : (c.press x.val + 1) % 2 ^ 32 < 2 ^ 64 := Nat.lt_trans (Nat.mod_lt _ (by decide)) (by decide)
    exact ⟨_, leaves_congr rfl (if_pos ⟨voted, inStep, multi⟩), code_mkFault (by decide) .., node_mkFault_block (by decide) ..,
      ctx_mkFault .., arg1_mkFault epoch ..⟩
  case idle => exact leaves_congr rfl (if_neg fun ⟨_, _, multi⟩ => Nat.zero_ne_one (alone.symm.trans multi))

end Sys2Proof.Machine
end

section
/-! Ports of the fabric (R337 to R350): what codewords that leave, codewords and markers that arrive, a retrain and a resend leave of a port. -/

namespace Sys2Proof.Machine

open Sys2Proof Sys2Proof.Says

/-! ### One port of a channel -/

section
variable (c : Channel) (k : Nat)

@[simp] theorem Channel.port_setPort (y : YPort) : (c.setPort k y).port k = y := mget_mset_same _ _ _ _

@[simp] theorem Channel.port_count (a n : Nat) : (c.count a n).port k = c.port k := by rw [Channel.port, Channel.yl_count, Channel.port]

end

section
variable {c d e : Channel} {l m : List Nat}

theorem portsOnly_refl (c : Channel) : PortsOnly [] c c := ⟨rfl, fun _ _ => rfl⟩

theorem portsOnly_mono (h : PortsOnly l c d) (sub : l ⊆ m) : PortsOnly m c d := by
  obtain ⟨frame, kept⟩ := h
  exact ⟨frame, fun a out => kept a (mt (@sub a) out)⟩

theorem portsOnly_trans (h : PortsOnly l c d) (k : PortsOnly m d e) : PortsOnly (l ++ m) c e := by
  obtain ⟨first, kept⟩ := h
  obtain ⟨second, keptAfter⟩ := k
  refine ⟨?_, fun a out => ?_⟩
  · rw [second, first]
  · rw [List.mem_append, not_or] at out
    obtain ⟨outFirst, outSecond⟩ := out
    rw [keptAfter a outSecond, kept a outFirst]

theorem portsOnly_of_regs (h : Regs l c d) : PortsOnly l c d := by
  obtain ⟨frame, kept⟩ := h
  refine ⟨?_, kept⟩
  rw [frame]

theorem portsOnly_count (c : Channel) (a n : Nat) : PortsOnly [a] c (c.count a n) := portsOnly_of_regs (regs_count c a n)

theorem portsOnly_setPort (c : Channel) (k : Nat) (y : YPort) : PortsOnly [] c (c.setPort k y) := ⟨rfl, fun _ _ => rfl⟩

theorem portsOnly_emit (c : Channel) (o : Out) : PortsOnly [] c (c.emit o) := ⟨rfl, fun _ _ => rfl⟩

theorem mem_of_portsOnly (h : PortsOnly l c d) : d.mem = c.mem := by
  obtain ⟨frame, -⟩ := h
  rw [frame]

theorem faultq_of_portsOnly (h : PortsOnly l c d) : d.faultq = c.faultq := by
  obtain ⟨frame, -⟩ := h
  rw [frame]

theorem linkQuiet_of_portsOnly (h : PortsOnly l c d) (quiet : LinkQuiet c) : LinkQuiet d := by
  obtain ⟨frame, -⟩ := h
  rw [frame]
  exact quiet

/-- A count goes on from what its register held before others were written. -/
theorem counted_after_portsOnly (h : PortsOnly l c d) {a n : Nat} (other : a ∉ l) (k : Counted a n d e) : Counted a n c e := by
  obtain ⟨-, kept⟩ := h
  rwa [Counted, kept a other] at k

/-- A count stands while others are written. -/
theorem counted_then_portsOnly {a n : Nat} (h : Counted a n c d) (k : PortsOnly l d e) (other : a ∉ l) : Counted a n c e := by
  obtain ⟨-, kept⟩ := k
  exact (kept a other).trans h

theorem pstate_of_portsOnly (h : PortsOnly l c d) {k : Nat} (other : Reg.YLP_STAT k ∉ l) : d.pstate k = c.pstate k := by
  obtain ⟨-, kept⟩ := h
  rw [Channel.pstate, Channel.fld, kept _ other, Channel.pstate, Channel.fld]

end

/-! ### Codewords that leave (R337, R349) -/

section
variable (c : Channel) (k : Nat)

/-- The port runs on lane 0 alone (R370). -/
def Channel.narrow (c : Channel) (k : Nat) : Bool := c.fld (Reg.YLP_STAT k) Fl.YLP_STAT_NARROW == 1

theorem Channel.portsOnly_emitCw (marker : Bool) (o : BitVec 5440) : PortsOnly [] c (c.emitCw k marker o) :=
  portsOnly_trans (portsOnly_setPort c k _) (portsOnly_emit _ _)

/-- On its port a codeword that leaves changes the last levels of the lanes alone. -/
theorem Channel.port_emitCw (marker : Bool) (o : BitVec 5440) :
    (c.emitCw k marker o).port k = ((c.port k).onLanes (c.narrow k) o.toNat).1 := c.port_setPort k _

theorem Channel.out_emitCw (marker : Bool) (o : BitVec 5440) :
    (c.emitCw k marker o).out = .codeword c.num k marker o ((c.port k).onLanes (c.narrow k) o.toNat).2 :: c.out := rfl

/-- The encoding of a codeword moves the scrambler on, and changes nothing else of its port. -/
theorem YPort.sendCw_eq (y : YPort) (w : Cw) : ∃ st o, y.sendCw w = ({ y with scr := st }, o) := by
  -- The scrambler becomes a variable, so that nothing evaluates its 5,120 bits.
  obtain ⟨bits, isScramble⟩ : ∃ f, scramble = f := ⟨_, rfl⟩
  obtain ⟨encode, encodes⟩ : ∃ f, YPort.sendCw = f := ⟨_, rfl⟩
  rw [encodes]
  delta YPort.sendCw at encodes
  rw [isScramble] at encodes
  rw [← encodes]
  dsimp only
  generalize bits 5120 _ y.scr 0 = sent
  exact ⟨sent.2, _, rfl⟩

theorem Channel.sendCws_cons {w : Cw} {y : YPort} {o : BitVec 5440} (encoded : (c.port k).sendCw w = (y, o)) (ws : List Cw) :
    c.sendCws k (w :: ws) = ((c.setPort k y).emitCw k false o).sendCws k ws := by
  rw [Channel.sendCws, List.foldl_cons, encoded]
  rfl

/-- Codewords that leave: each is one more output, and the port keeps what it keeps for the retry. -/
theorem Channel.sendCws_effect (ws : List Cw) (c : Channel) :
    PortsOnly [] c (c.sendCws k ws) ∧ ((c.sendCws k ws).port k).kept = (c.port k).kept ∧
      (c.sendCws k ws).out.length = c.out.length + ws.length := by
  induction ws generalizing c with
  | nil => exact ⟨portsOnly_refl c, rfl, rfl⟩
  | cons w ws ih =>
    obtain ⟨st, o, encoded⟩ := (c.port k).sendCw_eq w
    rw [Channel.sendCws_cons c k encoded]
    let d := c.setPort k { c.port k with scr := st }
    obtain ⟨only, kept, out⟩ := ih (d.emitCw k false o)
    refine ⟨portsOnly_trans (portsOnly_trans (portsOnly_setPort c k _) (d.portsOnly_emitCw k false o)) only, kept.trans ?_, out.trans ?_⟩
    · rw [Channel.port_emitCw, Channel.port_setPort]
      rfl
    · rw [Channel.out_emitCw, List.length_cons, List.length_cons, Nat.add_right_comm, Nat.add_assoc]
      rfl

theorem Channel.resend_nothing (empty : (c.port k).kept = []) : c.resend k = c := by
  rw [Channel.resend, empty]
  rfl

/-- A resend sends what the port keeps, and counts the replay and its codewords (R349). -/
theorem Channel.resend_effect (keeps : (c.port k).kept ≠ []) :
    PortsOnly [Reg.YLP_REPLAY k, Reg.YLP_REPCW k] c (c.resend k) ∧ Counted (Reg.YLP_REPLAY k) 1 c (c.resend k) ∧
      Counted (Reg.YLP_REPCW k) (c.port k).kept.length c (c.resend k) ∧ ((c.resend k).port k).kept = (c.port k).kept ∧
      (c.resend k).out.length = c.out.length + (c.port k).kept.length := by
  have apart : Reg.YLP_REPLAY k ≠ Reg.YLP_REPCW k := by
    unfold Reg.YLP_REPLAY Reg.YLP_REPCW
    omega
  let d := c.count (Reg.YLP_REPLAY k) 1
  have replay := portsOnly_count c (Reg.YLP_REPLAY k) 1
  have codewords := portsOnly_count d (Reg.YLP_REPCW k) (c.port k).kept.length
  obtain ⟨only, kept, out⟩ := Channel.sendCws_effect k (c.port k).kept (d.count (Reg.YLP_REPCW k) (c.port k).kept.length)
  have resent : c.resend k = (d.count (Reg.YLP_REPCW k) (c.port k).kept.length).sendCws k (c.port k).kept := if_neg (mt List.isEmpty_iff.mp keeps)
  rw [resent, kept, out, Channel.port_count, Channel.port_count, Channel.out_count, Channel.out_count]
  refine ⟨portsOnly_trans (portsOnly_trans replay codewords) only, ?replay, ?codewords, rfl, rfl⟩
  case replay =>
    exact counted_then_portsOnly (counted_then_portsOnly (counted_count c _ 1) codewords (by simpa using apart)) only (by simp)
  case codewords =>
    exact counted_after_portsOnly replay (by simpa using apart.symm) (counted_then_portsOnly (counted_count d _ _) only (by simp))

end

/-! ### Codewords that arrive (R338, R349, R350) -/

section
variable (c : Channel) (k : Nat)

theorem Channel.port_foldl_count (g : Nat → Nat) (l : List Nat) (c : Channel) : (l.foldl (fun c i => c.count (g i) 1) c).port k = c.port k := by
  induction l generalizing c with
  | nil => rfl
  | cons i l ih => exact (ih _).trans (c.port_count k _ 1)

@[simp] theorem Channel.port_noteFec (syms : List Nat) : (c.noteFec k syms).port k = c.port k := by
  unfold Channel.noteFec
  split
  · rfl
  · exact (Channel.port_foldl_count k _ syms _).trans (c.port_count k _ 1)

/-- The retrain of a port: RETRAIN, counted; its counts of errors start again (R350). -/
theorem Channel.retrain_effect :
    PortsOnly [Reg.YLP_STAT k, Reg.YLP_RETRAIN k] c (c.retrain k) ∧ (c.retrain k).pstate k = psRetrain ∧ Counted (Reg.YLP_RETRAIN k) 1 c (c.retrain k) ∧
      (c.retrain k).port k = { c.port k with naks := (0, 0), unc := [], missed := 0 } := by
  have apart : Reg.YLP_STAT k ≠ Reg.YLP_RETRAIN k := by
    unfold Reg.YLP_STAT Reg.YLP_RETRAIN
    omega
  have state := regs_setFld c (Reg.YLP_STAT k) Fl.YLP_STAT_STATE psRetrain
  refine ⟨?only, ?state, ?counted, c.port_setPort k _⟩
  case only => exact portsOnly_trans (portsOnly_of_regs (regs_trans state (regs_count _ (Reg.YLP_RETRAIN k) 1))) (portsOnly_setPort _ k _)
  case state =>
    exact (Channel.fld_count_other _ Fl.YLP_STAT_STATE 1 apart).trans (c.fld_setFld_same _ Fl.YLP_STAT_STATE psRetrain (by decide))
  case counted =>
    exact counted_after_regs state (by simpa using apart.symm) (counted_count _ (Reg.YLP_RETRAIN k) 1)

/-- An uncorrectable codeword with fewer than 63 before it is counted, and its time noted. -/
theorem Channel.noteUnc_few {y : YPort} (port : c.port k = y) (few : y.unc.length < 63) :
    c.noteUnc k = (c.count (Reg.YLP_FECUNC k) 1).setPort k { y with unc := c.ts :: y.unc } := by
  have all : (c.ts :: y.unc).take 64 = c.ts :: y.unc := List.take_of_length_le (by simp only [List.length_cons]; omega)
  have short : (c.ts :: y.unc)[63]? = none := List.getElem?_eq_none (by simp only [List.length_cons]; omega)
  simp only [Channel.noteUnc, port, all, short]

theorem Channel.seen_noteUnc : ((c.noteUnc k).port k).seen = (c.port k).seen := by
  unfold Channel.noteUnc
  extract_lets y l d
  have seen : (d.port k).seen = (c.port k).seen := Eq.trans (congrArg YPort.seen (Channel.port_setPort _ k _)) rfl
  split
  · split
    · obtain ⟨-, -, -, port⟩ := d.retrain_effect k
      rw [port]
      exact seen
    · exact seen
  · exact seen

/-- A gap is noted, and the markers sent since count anew. -/
theorem YPort.open_gap_eq (y : YPort) : ∃ n, y.open_gap = { y with gap := true, sinceNak := n } := by
  unfold YPort.open_gap
  split
  · rename_i gap
    exact ⟨y.sinceNak, by rw [← gap]⟩
  · exact ⟨0, rfl⟩

end

/-! ### Slots of an accepted codeword (R343, R344) -/

/-- What slots that arrive at port k can do: change the packet being assembled, the packets received and the slots freed, and count packets
that are discarded. -/
structure SlotsTaken (k : Nat) (c d : Channel) : Prop where
  only : PortsOnly [Reg.YLP_BAD k] c d
  port : ∃ asm rxq freed, d.port k = { c.port k with asm := asm, rxq := rxq, freed := freed }

section
variable {k : Nat} {c d e : Channel}

theorem SlotsTaken.refl (k : Nat) (c : Channel) : SlotsTaken k c c := ⟨portsOnly_mono (portsOnly_refl c) (by simp), _, _, _, rfl⟩

theorem SlotsTaken.trans (h : SlotsTaken k c d) (g : SlotsTaken k d e) : SlotsTaken k c e := by
  obtain ⟨only, asm, rxq, freed, port⟩ := h
  obtain ⟨onlyAfter, asm', rxq', freed', portAfter⟩ := g
  refine ⟨portsOnly_mono (portsOnly_trans only onlyAfter) (by simp), asm', rxq', freed', ?_⟩
  rw [portAfter, port]

theorem SlotsTaken.count (h : SlotsTaken k c d) : SlotsTaken k c (d.count (Reg.YLP_BAD k) 1) := by
  obtain ⟨only, port⟩ := h
  refine ⟨portsOnly_mono (portsOnly_trans only (portsOnly_count d (Reg.YLP_BAD k) 1)) (by simp), ?_⟩
  rwa [Channel.port_count]

theorem SlotsTaken.setPort (h : SlotsTaken k c d) (asm : Option (Pkt × Nat)) (rxq : List (Nat × Pkt)) (freed : List Nat) :
    SlotsTaken k c (d.setPort k { c.port k with asm := asm, rxq := rxq, freed := freed }) := by
  obtain ⟨only, -⟩ := h
  exact ⟨portsOnly_mono (portsOnly_trans only (portsOnly_setPort d k _)) (by simp), asm, rxq, freed, d.port_setPort k _⟩

theorem slotsTaken_rxPacket (k : Nat) (c : Channel) (p : Pkt) : SlotsTaken k c (c.rxPacket k p) := by
  have same := SlotsTaken.refl k c
  unfold Channel.rxPacket
  extract_lets q y asleep
  split
  · split
    · exact same
    · exact same.count
  · split
    · exact (same.setPort y.asm y.rxq _).count
    · exact same.setPort y.asm _ y.freed

theorem slotsTaken_rxSlot (k : Nat) (c : Channel) (h : Bool) (x : BitVec 512) : SlotsTaken k c (c.rxSlot k h x) := by
  have same := SlotsTaken.refl k c
  unfold Channel.rxSlot
  extract_lets y p c1
  have counted : SlotsTaken k c c1 := by
    unfold c1
    split
    · exact same.count
    · exact same
  split
  · split
    · exact (counted.setPort none y.rxq y.freed).trans (slotsTaken_rxPacket k _ _)
    · exact counted.setPort _ y.rxq y.freed
  · split
    · exact same
    · extract_lets q
      split
      · exact (same.setPort none y.rxq y.freed).trans (slotsTaken_rxPacket k _ _)
      · exact same.setPort _ y.rxq y.freed

/-- The ten slots of an accepted codeword, as they come out of the descrambler: p is its payload, with the header marks (R340). -/
def Channel.takeSlots (c : Channel) (k p raw : Nat) : Channel :=
  (List.range 10).foldl (fun c s => c.rxSlot k (bit p s) (BitVec.ofNat 512 (raw >>> (512 * s)))) c

theorem slotsTaken_takeSlots (k : Nat) (c : Channel) (p raw : Nat) : SlotsTaken k c (c.takeSlots k p raw) := by
  unfold Channel.takeSlots
  induction List.range 10 generalizing c with
  | nil => exact SlotsTaken.refl k c
  | cons s l ih => exact (slotsTaken_rxSlot k c _ _).trans (ih _)

end

/-! ### Data codewords that arrive (R349) -/

section
variable (c : Channel) (k : Nat) {w : Nat}

theorem Channel.rxData_uncorrectable (bad : dec544 w = none) :
    ∃ st, c.rxData k w = (c.setPort k (YPort.open_gap { c.port k with dsc := st })).noteUnc k := by
  unfold Channel.rxData
  rw [bad]
  exact ⟨_, rfl⟩

/-- What a corrected or clean codeword leaves, by whether its SEQ is the one expected. As in `YPort.sendCw_eq` the descrambler becomes a variable. -/
theorem Channel.rxData_found {p : Nat} {syms : List Nat} (found : dec544 w = some (p, syms)) :
    ∃ raw st, c.rxData k w =
      if bits p 10 10 ≠ ((c.noteFec k syms).port k).rxSeq then
        (c.noteFec k syms).setPort k (YPort.open_gap { (c.noteFec k syms).port k with dsc := st })
      else
        ((c.noteFec k syms).setPort k { (c.noteFec k syms).port k with
          dsc := st, rxSeq := (((c.noteFec k syms).port k).rxSeq + 1) % 1024, gap := false }).takeSlots k p raw := by
  obtain ⟨run, isDescramble⟩ : ∃ f, descramble = f := ⟨_, rfl⟩
  obtain ⟨take, takes⟩ : ∃ f, Channel.rxData = f := ⟨_, rfl⟩
  rw [takes]
  delta Channel.rxData at takes
  rw [isDescramble] at takes
  rw [← takes]
  beta_reduce
  rw [found]
  dsimp only
  generalize run 5120 (p >>> 20) _ 0 = sent
  exact ⟨sent.1, sent.2, rfl⟩

theorem Channel.seen_rxData (w : Nat) : ((c.rxData k w).port k).seen = (c.port k).seen := by
  cases found : dec544 w with
  | none =>
    obtain ⟨st, taken⟩ := c.rxData_uncorrectable k found
    obtain ⟨n, gap⟩ := YPort.open_gap_eq { c.port k with dsc := st }
    rw [taken, Channel.seen_noteUnc, Channel.port_setPort, gap]
  | some clean =>
    obtain ⟨p, syms⟩ := clean
    obtain ⟨raw, st, taken⟩ := c.rxData_found k found
    rw [taken]
    split
    · obtain ⟨n, gap⟩ := YPort.open_gap_eq { (c.noteFec k syms).port k with dsc := st }
      rw [Channel.port_setPort, gap, Channel.port_noteFec]
    · obtain ⟨-, asm, rxq, freed, port⟩ := slotsTaken_takeSlots k ((c.noteFec k syms).setPort k _) p raw
      rw [port, Channel.port_setPort, Channel.port_noteFec]

/-- An uncorrectable codeword is counted, and leaves a gap. -/
theorem Channel.rxData_uncorrectable_effect (bad : dec544 w = none) (few : (c.port k).unc.length < 63) :
    PortsOnly [Reg.YLP_FECUNC k] c (c.rxData k w) ∧ Counted (Reg.YLP_FECUNC k) 1 c (c.rxData k w) ∧ ((c.rxData k w).port k).gap = true ∧
      ((c.rxData k w).port k).rxSeq = (c.port k).rxSeq ∧ ((c.rxData k w).port k).rxq = (c.port k).rxq := by
  obtain ⟨st, taken⟩ := c.rxData_uncorrectable k bad
  obtain ⟨n, gap⟩ := YPort.open_gap_eq { c.port k with dsc := st }
  rw [gap] at taken
  let d := c.setPort k { c.port k with dsc := st, gap := true, sinceNak := n }
  rw [taken, Channel.noteUnc_few d k (c.port_setPort k _) few, Channel.port_setPort]
  refine ⟨?only, counted_count d _ 1, rfl, rfl, rfl⟩
  exact portsOnly_trans (portsOnly_trans (portsOnly_setPort c k _) (portsOnly_count d (Reg.YLP_FECUNC k) 1)) (portsOnly_setPort _ k _)

/-- A codeword out of order leaves a gap, and is discarded. -/
theorem Channel.rxData_gap_effect {p : Nat} (clean : dec544 w = some (p, [])) (outOfOrder : bits p 10 10 ≠ (c.port k).rxSeq) :
    PortsOnly [] c (c.rxData k w) ∧ ((c.rxData k w).port k).gap = true ∧
      ((c.rxData k w).port k).rxSeq = (c.port k).rxSeq ∧ ((c.rxData k w).port k).rxq = (c.port k).rxq := by
  obtain ⟨raw, st, taken⟩ := c.rxData_found k clean
  obtain ⟨n, gap⟩ := YPort.open_gap_eq { c.port k with dsc := st }
  have noted : c.rxData k w = c.setPort k { c.port k with dsc := st, gap := true, sinceNak := n } :=
    (taken.trans (if_pos outOfOrder)).trans (congrArg (c.setPort k) gap)
  rw [noted, Channel.port_setPort]
  exact ⟨portsOnly_setPort c k _, rfl, rfl, rfl⟩

/-- The codeword expected closes the gap, and moves the sequence on. -/
theorem Channel.rxData_next_effect {p : Nat} (clean : dec544 w = some (p, [])) (inOrder : bits p 10 10 = (c.port k).rxSeq) :
    ((c.rxData k w).port k).gap = false ∧ ((c.rxData k w).port k).rxSeq = ((c.port k).rxSeq + 1) % 1024 ∧ (c.rxData k w).mem = c.mem := by
  obtain ⟨raw, st, taken⟩ := c.rxData_found k clean
  let d := c.setPort k { c.port k with dsc := st, rxSeq := ((c.port k).rxSeq + 1) % 1024, gap := false }
  have slots : c.rxData k w = d.takeSlots k p raw := taken.trans (if_neg (not_not_intro inOrder))
  obtain ⟨only, asm, rxq, freed, port⟩ := slotsTaken_takeSlots k d p raw
  rw [slots, port, Channel.port_setPort]
  exact ⟨rfl, rfl, mem_of_portsOnly only⟩

end

/-! ### Markers that arrive (R340, R341, R349, R350) -/

section
variable (c : Channel) (k : Nat) {w : Nat}

/-- The fourth marker in a row that is none makes the port retrain. -/
theorem Channel.rxMarker_fourth_missed (bad : dec544 w = none) (third : (c.port k).missed = 3) (few : (c.port k).unc.length < 63) :
    ∃ d, c.rxMarker k w = d.retrain k ∧ PortsOnly [Reg.YLP_FECUNC k] c d := by
  let d := c.setPort k { c.port k with missed := (c.port k).missed + 1 }
  have noted := d.noteUnc_few k (c.port_setPort k _) few
  refine ⟨d.noteUnc k, ?_, ?_⟩
  · have missed : 4 ≤ ((d.noteUnc k).port k).missed := by
      rw [noted, Channel.port_setPort]
      exact Nat.le_of_eq (congrArg (· + 1) third.symm)
    unfold Channel.rxMarker
    rw [bad]
    exact if_pos missed
  · rw [noted]
    exact portsOnly_trans (portsOnly_trans (portsOnly_setPort c k _) (portsOnly_count d (Reg.YLP_FECUNC k) 1)) (portsOnly_setPort _ k _)

/-- Where nothing waits to be sent, a port that may send leaves everything but the form of its next SEQ as it is. -/
theorem Channel.pumpPort_idle (carries : c.pstate k = psActive ∨ c.pstate k = psMiswired) (idle : (c.port k).txq = []) :
    c.pumpPort k = c.setPort k { c.port k with txSeq := (c.port k).txSeq % 1024 } := by
  have taken (only : Pkt → Bool) : YPort.takeGo only (c.port k).txq.length (c.port k) [] = (c.port k, []) := by rw [idle]; rfl
  have uncut (seq : Nat) : cutCws seq [] = [] := rfl
  rw [Channel.pumpPort, if_pos carries]
  simp only [taken, uncut, List.length_nil, Nat.add_zero, List.append_nil]
  rfl

/-- A marker without NAK that acknowledges everything frees what the port keeps, and takes over its credit. -/
theorem Channel.rxMarker_acks_all {p : Nat} (clean : dec544 w = some (p, [])) (noNak : bit p 90 = false) (ack : bits p 80 10 = (c.port k).txSeq)
    (last : (c.port k).kept.findIdx? (fun e => e.seq == (c.port k).txSeq) = none) :
    ∃ y, c.rxMarker k w = (c.setPort k y).pumpPort k ∧ y.txq = (c.port k).txq ∧ y.kept = [] ∧
      y.cred = (List.range 5).map (fun v => bits p (96 + 16 * v) 16) := by
  have noFec : c.noteFec k [] = c := rfl
  unfold Channel.rxMarker
  rw [clean]
  simp only [noFec, noNak, ack, last, if_true, Bool.false_eq_true, if_false]
  exact ⟨_, rfl, rfl, rfl, rfl⟩

/-- A marker that acknowledges everything, at a port with nothing to send: the port keeps nothing, takes over the credit, and sends nothing. -/
theorem Channel.rxMarker_acks_all_effect {p : Nat} (carries : c.pstate k = psActive ∨ c.pstate k = psMiswired) (idle : (c.port k).txq = [])
    (clean : dec544 w = some (p, [])) (noNak : bit p 90 = false) (ack : bits p 80 10 = (c.port k).txSeq)
    (last : (c.port k).kept.findIdx? (fun e => e.seq == (c.port k).txSeq) = none) :
    PortsOnly [] c (c.rxMarker k w) ∧ ((c.rxMarker k w).port k).kept = [] ∧
      ((c.rxMarker k w).port k).cred = (List.range 5).map (fun v => bits p (96 + 16 * v) 16) ∧ (c.rxMarker k w).out = c.out := by
  obtain ⟨y, taken, txq, kept, cred⟩ := c.rxMarker_acks_all k clean noNak ack last
  have port : (c.setPort k y).port k = y := c.port_setPort k y
  rw [taken, Channel.pumpPort_idle (c.setPort k y) k carries (by rw [port, txq, idle]), port, Channel.port_setPort]
  exact ⟨portsOnly_trans (portsOnly_setPort c k y) (portsOnly_setPort _ k _), kept, cred, rfl⟩

end

end Sys2Proof.Machine
end

section
/-! Codewords on the lanes (R337, R370), the rows of a port (R21, R22, R355), and what DATA_CODEWORD_RX, MARKER_RX, MARKER_SEND and ACK_TIMEOUT
leave (R346, R349, R350). -/

namespace Sys2Proof.Machine

open Sys2Proof Sys2Proof.Says

/-! ### Codewords on the lanes (R337, R370) -/

/-- An element of blocks of one length, laid one after the other. -/
theorem getElem?_flatMap_block {α β : Type} {f : α → List β} {n u : Nat} (len : ∀ x, (f x).length = n) (inBlock : u < n) (l : List α) (j : Nat) :
    (l.flatMap f)[n * j + u]? = l[j]?.bind (fun x => (f x)[u]?) := by
  induction l generalizing j with
  | nil => rfl
  | cons x l ih =>
    rw [List.flatMap_cons]
    cases j with
    | zero => rw [List.getElem?_append_left (by rw [len]; omega), Nat.mul_zero, Nat.zero_add]; rfl
    | succ j =>
      rw [List.getElem?_append_right (by rw [len, Nat.mul_succ]; omega), len, List.getElem?_cons_succ, ← ih]
      congr 1
      rw [Nat.mul_succ]
      omega

theorem bits_bits (x lo w a n : Nat) (inside : a + n ≤ w) : bits (bits x lo w) a n = bits x (lo + a) n := by
  refine Nat.eq_of_testBit_eq fun i => ?_
  simp only [bits_testBit]
  by_cases h : i < n
  · simp only [h, show i + a < w by omega, decide_true, Bool.true_and, show i + a + lo = i + (lo + a) by omega]
  · simp only [h, decide_false, Bool.false_and]

/-- The levels of a symbol's five unit intervals, from the codeword. -/
theorem getElem?_symLevels (w i : Nat) {u : Nat} (h : u < 5) :
    (symLevels (bits w (10 * i) 10))[u]? = some (gray (bits w (10 * i + 2 * u) 2)) := by
  simp only [symLevels, List.getElem?_map, List.getElem?_range h, Option.map_some, bits_bits w (10 * i) 10 (2 * u) 2 (by omega)]

theorem length_symLevels (x : Nat) : (symLevels x).length = 5 := by simp only [symLevels, List.length_map, List.length_range]

/-- The symbols of one of the eight lanes: every eighth. -/
theorem filter_lane : ∀ l : Fin 8, (List.range 544).filter (fun k => k % 8 == l.val) = (List.range 68).map (fun j => 8 * j + l.val) := by
  decide +kernel

/-- The place of symbol i: on a narrow link lane 0 carries every symbol, else lane i mod 8 carries it as its symbol i / 8. -/
theorem getElem?_laneLevels (w : Nat) (narrow : Bool) {i u : Nat} (hi : i < 544) (hu : u < 5) :
    (laneLevels w narrow (if narrow then 0 else i % 8))[if narrow then 5 * i + u else 5 * (i / 8) + u]? =
      some (gray (bits w (10 * i + 2 * u) 2)) := by
  cases narrow with
  | true =>
    have all : (List.range 544).filter (fun _ => (0 : Nat) == 0) = List.range 544 := List.filter_true _
    simp only [laneLevels, if_true, all, getElem?_flatMap_block (fun _ => length_symLevels _) hu, List.getElem?_range hi, Option.bind_some,
      getElem?_symLevels w i hu]
  | false =>
    have lane := filter_lane ⟨i % 8, Nat.mod_lt _ (by decide)⟩
    have place : 8 * (i / 8) + i % 8 = i := Nat.div_add_mod i 8
    simp only [laneLevels, Bool.false_eq_true, if_false, lane, getElem?_flatMap_block (fun _ => length_symLevels _) hu, List.getElem?_map,
      List.getElem?_range (show i / 8 < 68 by omega), Option.map_some, Option.bind_some, place, getElem?_symLevels w i hu]

/-- Without precoding a lane carries the levels as they are. -/
theorem YPort.onLanes_plain {y : YPort} (plain : y.pre % 256 = 0) (narrow : Bool) (w : Nat) {l : Nat} (hl : l < 8) :
    nth [] (y.onLanes narrow w).2 l = laneLevels w narrow l := by
  have off : bit y.pre l = false := by
    have masked := Nat.testBit_mod_two_pow y.pre 8 l
    rw [plain, Nat.zero_testBit, decide_eq_true hl, Bool.true_and] at masked
    exact masked.symm
  simp only [YPort.onLanes, nth, List.getElem?_map, List.getElem?_range hl, Option.map_some, Option.getD_some, off, Bool.false_eq_true, if_false]

theorem Channel.narrow_iff (c : Channel) (k : Nat) : c.narrow k = true ↔ c.fld (Reg.YLP_STAT k) Fl.YLP_STAT_NARROW = 1 := beq_iff_eq

/-- The marker that leaves counts, and without precoding its levels are those of its symbols, on the lanes that carry them. -/
theorem Channel.txMarker_effect (c : Channel) (k : Nat) :
    ∃ o ls, PortsOnly [] c (c.txMarker k) ∧ (c.txMarker k).out = .codeword c.num k true o ls :: c.out ∧
      ((c.txMarker k).port k).mcount = ((c.port k).mcount + 1) % 2 ^ 16 ∧
      ((c.port k).pre % 256 = 0 → ∀ i u, i < 544 → u < 5 →
        (nth [] ls (if c.narrow k then 0 else i % 8))[if c.narrow k then 5 * i + u else 5 * (i / 8) + u]? =
          some (gray (bits o.toNat (10 * i + 2 * u) 2))) := by
  obtain ⟨y, o, marker, mcount, pre⟩ : ∃ y o, c.txMarker k = (c.setPort k y).emitCw k true o ∧
      y.mcount = ((c.port k).mcount + 1) % 2 ^ 16 ∧ y.pre = (c.port k).pre := ⟨_, _, rfl, rfl, rfl⟩
  have port : (c.setPort k y).port k = y := c.port_setPort k y
  have narrow : (c.setPort k y).narrow k = c.narrow k := rfl
  refine ⟨o, (y.onLanes (c.narrow k) o.toNat).2, ?only, ?out, ?mcount, fun plain i u hi hu => ?levels⟩
  case only => exact marker ▸ portsOnly_trans (portsOnly_setPort c k y) (Channel.portsOnly_emitCw _ k true o)
  case out => rw [marker, Channel.out_emitCw, port, narrow]; rfl
  case mcount => rw [marker, Channel.port_emitCw, port, ← mcount]; rfl
  case levels =>
    have lane : (if c.narrow k then 0 else i % 8) < 8 := by
      split
      · decide
      · exact Nat.mod_lt _ (by decide)
    rw [YPort.onLanes_plain (pre.symm ▸ plain) _ _ lane]
    exact getElem?_laneLevels o.toNat (c.narrow k) hi hu

/-! ### Rows of a port -/

section
variable {ch : Chan} {k : Port} {s : State} {i : Instr} {sts : List Nat} {marker : Bool} {f : Nat → Channel → Channel}

theorem leavesF_onPort (row : exec i s = .next (s.onPort ch k sts f)) (within : (s.chan ch).pstate k.val ∈ sts) :
    LeavesF 128 i s ch (f s.free (s.chan ch)) := by
  rw [LeavesF, row, State.onPort, State.onFree_eq, if_pos (List.contains_iff_mem.mpr within)]

theorem leavesF_onPort_out (row : exec i s = .next (s.onPort ch k sts f)) (out : (s.chan ch).pstate k.val ∉ sts) :
    LeavesF 128 i s ch (s.chan ch) := by
  rw [LeavesF, row, State.onPort, State.onFree_eq, if_neg (mt List.contains_iff_mem.mp out)]

theorem mem_carrying {n : Nat} : n ∈ [psActive, psMiswired] ↔ n = psActive ∨ n = psMiswired := by simp

theorem leavesF_rxCw (row : exec i s = .next (s.rxCw ch k marker f)) (comes : s.onWay ch k marker = true)
    (carries : (s.chan ch).pstate k.val = psActive ∨ (s.chan ch).pstate k.val = psMiswired) :
    LeavesF 128 i s ch (f s.free ((s.chan ch).saw k)) :=
  leavesF_congr (leavesF_onPort row (mem_carrying.mpr carries)) (if_pos comes)

theorem leavesF_rxCw_none (row : exec i s = .next (s.rxCw ch k marker f)) (still : s.onWay ch k marker = false) :
    LeavesF 128 i s ch (s.chan ch) := by
  by_cases within : (s.chan ch).pstate k.val ∈ [psActive, psMiswired]
  · exact leavesF_congr (leavesF_onPort row within) (if_neg (by rw [still]; decide))
  · exact leavesF_onPort_out row within

end

section
variable (c : Channel) (k : Port)

theorem Channel.portsOnly_saw : PortsOnly [] c (c.saw k) := by
  unfold Channel.saw
  split
  · exact portsOnly_setPort c k.val _
  · exact portsOnly_refl c

theorem Channel.rd_saw (a : Nat) : (c.saw k).rd a = c.rd a := by
  obtain ⟨-, kept⟩ := c.portsOnly_saw k
  exact kept a (by simp)

theorem Channel.out_saw : (c.saw k).out = c.out := by
  unfold Channel.saw
  split <;> rfl

theorem Channel.pstate_saw : (c.saw k).pstate k.val = c.pstate k.val := pstate_of_portsOnly (c.portsOnly_saw k) (by simp)

/-- A codeword of the package partner that is taken counts, and leaves the rest of its port. -/
theorem Channel.port_saw : ∃ n, (c.saw k).port k.val = { c.port k.val with seen := n } := by
  unfold Channel.saw
  split
  · exact ⟨_, c.port_setPort k.val _⟩
  · exact ⟨_, rfl⟩

theorem Channel.seen_saw (inPackage : k.val < 2) : ((c.saw k).port k.val).seen = (c.port k.val).seen + 1 := by
  rw [Channel.saw, if_pos inPackage, Channel.port_setPort]

end

/-- Data codewords: where one is on its way and the port carries codewords, by what the decoder makes of it and by its SEQ. -/
theorem dataCodewords : DataCodewords := by
  intro ch k cw s c y
  have row : exec (.dataCodewordRx ch k cw) s = .next (s.rxCw ch k false (fun _ c => c.rxData k.val cw.toNat)) := rfl
  have still (out : c.pstate k.val ∉ [psActive, psMiswired]) : LeavesF 128 (.dataCodewordRx ch k cw) s ch c := leavesF_onPort_out row out
  obtain ⟨n, port⟩ := c.port_saw k
  have saw := c.portsOnly_saw k
  refine ⟨fun b cable => ?cable, fun b => rfl, fun b => rfl, leavesF_rxCw_none row, fun comes => ?counts, fun comes carries => ⟨?unc, ?gap, ?next⟩,
    fun notActive notMiswired => still (by simp [notActive, notMiswired])⟩
  case cable =>
    have far : (partnerOf ch k).isNone = true := by
      have not0 : k ≠ 0 := fun h => by rw [h] at cable; exact absurd cable (by decide)
      have not1 : k ≠ 1 := fun h => by rw [h] at cable; exact absurd cable (by decide)
      rw [partnerOf, if_neg not0, if_neg not1]
      rfl
    rw [State.onWay, far, Bool.true_or]
  case counts =>
    by_cases within : c.pstate k.val ∈ [psActive, psMiswired]
    · refine ⟨_, leavesF_rxCw row comes (mem_carrying.mp within), fun inPackage _ => ?_⟩
      rw [Channel.seen_rxData, c.seen_saw k inPackage]
    · exact ⟨c, still within, fun _ active => absurd (mem_carrying.mpr (.inl active)) within⟩
  case unc =>
    intro bad few
    obtain ⟨only, counted, gap, rxSeq, rxq⟩ := (c.saw k).rxData_uncorrectable_effect k.val bad (by rw [port]; exact few)
    rw [Counted, c.rd_saw] at counted
    rw [port] at rxSeq rxq
    exact ⟨_, leavesF_rxCw row comes carries, portsOnly_trans saw only, counted, gap, rxSeq, rxq⟩
  case gap =>
    intro p clean outOfOrder
    obtain ⟨only, gap, rxSeq, rxq⟩ := (c.saw k).rxData_gap_effect k.val clean (by rw [port]; exact outOfOrder)
    rw [port] at rxSeq rxq
    exact ⟨_, leavesF_rxCw row comes carries, portsOnly_trans saw only, gap, rxSeq, rxq⟩
  case next =>
    intro p clean inOrder
    obtain ⟨gap, rxSeq, mem⟩ := (c.saw k).rxData_next_effect k.val clean (by rw [port]; exact inOrder)
    rw [port] at rxSeq
    exact ⟨_, leavesF_rxCw row comes carries, gap, rxSeq, mem.trans (mem_of_portsOnly saw)⟩

/-- Markers and the retry: each row by what the port makes of it, or by the state that keeps it from acting. -/
theorem markersAndRetry : MarkersAndRetry := by
  intro ch k cw p s c y plain narrow
  have arrives : exec (.markerRx ch k cw) s = .next (s.rxCw ch k true (fun fr c => (c.rxMarker k.val cw.toNat).onward fr)) := rfl
  have sends : exec (.markerSend ch k) s = .next (s.onPort ch k [psTraining, psActive, psMiswired] (fun _ c => c.txMarker k.val)) := rfl
  have expires : exec (.ackTimeout ch k) s = .next (s.onPort ch k [psActive, psMiswired] (fun _ c => c.resend k.val)) := rfl
  obtain ⟨n, port⟩ := c.port_saw k
  have saw := c.portsOnly_saw k
  refine ⟨leavesF_rxCw_none arrives, fun comes active quiet bad third few => ?retrains, fun comes active quiet idle clean noNak ack last => ?acks,
    fun within => ?marker, fun down => ?down, fun carries keeps => ?replay, fun empty => ?nothing⟩
  case retrains =>
    obtain ⟨d, missed, noted⟩ := (c.saw k).rxMarker_fourth_missed k.val bad (by rw [port]; exact third) (by rw [port]; exact few)
    have before := portsOnly_trans saw noted
    obtain ⟨only, state, counted, -⟩ := d.retrain_effect k.val
    refine ⟨d.retrain k.val, leavesF_congr (leavesF_rxCw arrives comes (.inl active)) ?_, state, counted_after_portsOnly before ?_ counted⟩
    · rw [missed]
      exact Channel.onward_quiet (linkQuiet_of_portsOnly only (linkQuiet_of_portsOnly before quiet)) _
    · simp [Reg.YLP_RETRAIN, Reg.YLP_FECUNC]
  case acks =>
    obtain ⟨nothing, -⟩ := idle
    obtain ⟨only, kept, cred, out⟩ := (c.saw k).rxMarker_acks_all_effect k.val (.inl ((c.pstate_saw k).trans active)) (by rw [port]; exact nothing)
      clean noNak (by rw [port]; exact ack) (by rw [port]; exact last)
    refine ⟨_, leavesF_congr (leavesF_rxCw arrives comes (.inl active)) ?_, portsOnly_trans saw only, kept, cred, out.trans (c.out_saw k)⟩
    exact Channel.onward_quiet (linkQuiet_of_portsOnly (portsOnly_trans saw only) quiet) _
  case marker =>
    obtain ⟨o, ls, only, out, mcount, levels⟩ := c.txMarker_effect k.val
    simp only [Channel.narrow_iff] at levels
    exact ⟨_, o, ls, leavesF_onPort sends (by simpa using within), only, out, mcount, levels⟩
  case down =>
    refine leavesF_onPort_out sends ?_
    rw [show (s.chan ch).pstate k.val = psDown from down]
    decide
  case replay =>
    obtain ⟨only, replay, codewords, kept, out⟩ := c.resend_effect k.val keeps
    exact ⟨_, leavesF_onPort expires (mem_carrying.mpr carries), only, replay, codewords, kept, out⟩
  case nothing =>
    by_cases within : c.pstate k.val ∈ [psActive, psMiswired]
    · exact leavesF_congr (leavesF_onPort expires within) (c.resend_nothing k.val empty)
    · exact leavesF_onPort_out expires within

/-- Settles O31: codewords by what the decoder makes of them and by their SEQ; markers and the retry row by row. -/
theorem codewordsAndRetry : Obligations.CodewordsAndRetry := ⟨dataCodewords, markersAndRetry⟩

end Sys2Proof.Machine
end

section
/-! Picots, VIEW, WAKE and WIDTH packets (R352 to R355, R371, R372, R460). -/

namespace Sys2Proof.Machine

open Sys2Proof Sys2Proof.Says

section
variable (c : Channel) (k : Nat) (p : Pkt)

/-! ### The packet that is taken -/

theorem Channel.portsOnly_takeRx : PortsOnly [] c (c.takeRx k p) := by
  unfold Channel.takeRx
  extract_lets y
  split
  · exact portsOnly_setPort c k _
  · exact portsOnly_refl c

theorem Channel.rd_takeRx (a : Nat) : (c.takeRx k p).rd a = c.rd a := by
  obtain ⟨-, kept⟩ := c.portsOnly_takeRx k p
  exact kept a (by simp)

theorem Channel.fld_takeRx (a : Nat) (f : Fld) : (c.takeRx k p).fld a f = c.fld a f := by rw [Channel.fld, c.rd_takeRx k p a, Channel.fld]

theorem Channel.ts_takeRx : (c.takeRx k p).ts = c.ts := by rw [c.takeRx_frame k p]

theorem Channel.txq_takeRx : ((c.takeRx k p).port k).txq = (c.port k).txq := by
  unfold Channel.takeRx
  extract_lets y
  split
  · rw [Channel.port_setPort]
    rfl
  · rfl

/-! ### Picots (R353, R355) -/

/-- The gap since the last picot may raise YLPk_PGAP. -/
def Channel.notePicotGap (c : Channel) (k : Nat) : Channel :=
  if (c.port k).confirmed then c.raiseFld (Reg.YLP_PGAP k) Fl.YLP_PGAP_US (c.usSince (c.port k).lastPicot) else c

theorem Channel.portsOnly_notePicotGap : PortsOnly [Reg.YLP_PGAP k] c (c.notePicotGap k) := by
  unfold Channel.notePicotGap
  split
  · exact portsOnly_of_regs (regs_setFld c (Reg.YLP_PGAP k) Fl.YLP_PGAP_US _)
  · exact portsOnly_mono (portsOnly_refl c) (by simp)

/-- A valid picot is noted; where one came before, with the gap between them. -/
theorem Channel.rxPicot_valid (active : c.pstate k = psActive) (partnered : (c.port k).partnered = true) (valid : c.picotOk k p = true) :
    c.rxPicot k p = (c.notePicotGap k).setPort k { c.port k with lastPicot := c.ts, confirmed := true } := by
  unfold Channel.rxPicot
  simp only [active, ne_eq, not_true_eq_false, false_and, if_false, partnered, if_true, valid]
  rfl

theorem Channel.rxPicot_valid_effect (active : c.pstate k = psActive) (partnered : (c.port k).partnered = true) (valid : c.picotOk k p = true) :
    PortsOnly [Reg.YLP_PGAP k] c (c.rxPicot k p) ∧ ((c.rxPicot k p).port k).lastPicot = c.ts ∧ ((c.rxPicot k p).port k).confirmed = true ∧
      (c.rxPicot k p).pstate k = psActive := by
  have gap := c.portsOnly_notePicotGap k
  have apart : Reg.YLP_STAT k ∉ [Reg.YLP_PGAP k] := by simp [Reg.YLP_STAT, Reg.YLP_PGAP]
  rw [c.rxPicot_valid k p active partnered valid, Channel.port_setPort]
  exact ⟨portsOnly_trans gap (portsOnly_setPort _ k _), rfl, rfl, (pstate_of_portsOnly gap apart).trans active⟩

/-- A port that dies with nothing to send: no WRITE is left to answer. -/
theorem Channel.portDead_idle (st : Nat) (idle : (c.port k).txq = []) :
    c.portDead k st = (c.setPort k { c.port k with kept := [], txq := [], asm := none }).setPstate k st := by
  unfold Channel.portDead
  simp only [idle]
  rfl

/-- An invalid picot: the port, which has nothing to send, is MISWIRED, and the fault is raised. -/
theorem Channel.rxPicot_invalid_effect (active : c.pstate k = psActive) (partnered : (c.port k).partnered = true)
    (invalid : c.picotOk k p = false) (idle : (c.port k).txq = []) :
    ∃ d m, c.rxPicot k p = d.raise m ∧ PortsOnly [Reg.YLP_STAT k] c d ∧ d.pstate k = psMiswired ∧ m.code.toNat = fcYlMiswire := by
  have miswired : c.rxPicot k p = (c.portDead k psMiswired).portFault k fcYlMiswire := by
    unfold Channel.rxPicot
    simp only [active, ne_eq, not_true_eq_false, false_and, if_false, partnered, if_true, invalid, Bool.false_eq_true]
  rw [miswired, c.portDead_idle k psMiswired idle]
  let d := c.setPort k { c.port k with kept := [], txq := [], asm := none }
  exact ⟨d.setPstate k psMiswired, _, rfl, portsOnly_trans (portsOnly_setPort c k _) (portsOnly_of_regs (regs_setFld d _ _ _)),
    d.fld_setFld_same _ Fl.YLP_STAT_STATE psMiswired (by decide), code_mkFault (by decide) ..⟩

end

section
variable {ch : Chan} {k : Port} {p : Pkt} {s : State}

theorem leavesF_picot (kind : p.ptype = 4) (c2 : Channel) (quiet : LinkQuiet c2) (taken : ((s.chan ch).takeRx k.val p).rxPicot k.val p = c2) :
    LeavesF 128 (.picot ch k p) s ch
      (if ((s.chan ch).takeRx k.val p).pstate k.val = psActive ∧ c2.pstate k.val = psMiswired then c2.viewPorts else c2) := by
  refine leavesF_congr rfl ((if_neg (not_not_intro kind)).trans ?_)
  rw [taken, Channel.onward_quiet quiet]

end

/-- Settles O35: picots by whether they are sent and by whether they are valid; VIEW, WAKE and WIDTH packets by what they carry. -/
theorem controlPackets : Obligations.ControlPackets := by
  intro ch k p s c c1 y
  have took : PortsOnly [] c c1 := c.portsOnly_takeRx k.val p
  have state : c1.pstate k.val = c.pstate k.val := c.fld_takeRx k.val p _ _
  have sends : exec (.picotSend ch k) s = .next (s.onPort ch k [psActive, psMiswired]
      (fun _ c => if c.dark then c else c.sendPkt k.val 4 (c.picot k.val (decide (c.rphase ≠ 0))))) := rfl
  refine ⟨fun active light => ?send, fun dark => ?dark, fun kind quiet active partnered valid => ?valid,
    fun kind quiet idle active partnered invalid => ?invalid, fun kind sub => ?view, fun kind sub => ?badView, fun kind on => ?wake,
    fun kind off => ?asleep, fun kind v value legal asked => ?width, fun kind not1 not8 => ?badWidth⟩
  case send => exact leavesF_congr (leavesF_onPort sends (mem_carrying.mpr (.inl active))) (if_neg (by rw [light]; decide))
  case dark =>
    by_cases within : c.pstate k.val ∈ [psActive, psMiswired]
    · exact leavesF_congr (leavesF_onPort sends within) (if_pos dark)
    · exact leavesF_onPort_out sends within
  case valid =>
    obtain ⟨only, last, confirmed, still⟩ := c1.rxPicot_valid_effect k.val p (state.trans active) partnered valid
    have row := leavesF_picot kind _ (linkQuiet_of_portsOnly only (linkQuiet_of_portsOnly took quiet)) rfl
    refine ⟨_, leavesF_congr row (if_neg fun ⟨_, miswired⟩ => ?_), only, last.trans (c.ts_takeRx k.val p), confirmed, still⟩
    exact absurd (still.symm.trans miswired) (by decide)
  case invalid =>
    obtain ⟨nothing, -⟩ := idle
    obtain ⟨d, m, taken, only, miswired, code⟩ := c1.rxPicot_invalid_effect k.val p (state.trans active) partnered invalid
      ((c.txq_takeRx k.val p).trans nothing)
    have both := portsOnly_trans took only
    refine ⟨d.raise m, m, leavesF_congr (leavesF_picot kind (d.raise m) (linkQuiet_of_portsOnly both quiet :) taken)
      (if_pos ⟨state.trans active, miswired⟩), miswired, congrArg (· ++ [m]) (faultq_of_portsOnly both), code, (mem_of_portsOnly both :)⟩
  case view => exact leaves_congr rfl ((if_neg (not_not_intro kind)).trans (if_neg (not_not_intro sub)))
  case badView =>
    have counted := counted_count c1 (Reg.YLP_BAD k.val) 1
    exact ⟨_, leaves_congr rfl ((if_neg (not_not_intro kind)).trans (if_pos sub)), regs_count c1 _ 1,
      counted_after_portsOnly took (by simp) counted⟩
  case wake => exact leaves_congr rfl (if_pos ⟨kind, (c.fld_takeRx k.val p _ _).trans on⟩)
  case asleep =>
    refine leaves_congr rfl (if_neg fun ⟨_, on⟩ => ?_)
    exact absurd (off.symm.trans ((c.fld_takeRx k.val p _ _).symm.trans on)) (by decide)
  case width =>
    have agrees : c1.rxWidth k.val v = c1.setPort k.val { y with agreed := true } := by
      rw [Channel.rxWidth, if_neg (by omega)]
      exact if_pos asked
    refine ⟨_, leaves_congr rfl ((if_pos kind).trans (value ▸ agrees)), portsOnly_setPort c1 k.val _, ?_, ?_⟩
    · rw [Channel.port_setPort]
    · rw [Channel.port_setPort]
      exact asked
  case badWidth => exact leaves_congr rfl ((if_pos kind).trans (if_pos ⟨not1, not8⟩))

end Sys2Proof.Machine
end

section
/-! Packets of the collectives (R375, R385): what becomes of a COLL packet at the tatting engine. -/

namespace Sys2Proof.Machine

open Sys2Proof Sys2Proof.Says

/-- A channel whose ports alone change keeps its engine. -/
theorem tat_of_portsOnly {l : List Nat} {c d : Channel} (h : PortsOnly l c d) : d.tat = c.tat := by
  obtain ⟨frame, -⟩ := h
  rw [frame]

theorem step_of_portsOnly {l : List Nat} {c d : Channel} (h : PortsOnly l c d) (x : Nat) : d.step x = c.step x := by
  obtain ⟨frame, -⟩ := h
  rw [frame]
  rfl

theorem ctx_mkFault_val {x : Nat} (h : x < 16) (node code a b : Nat) : (mkFault node code (some x) a b).ctx.val = x :=
  congrArg Fin.val (ctx_mkFault node code ⟨x, h⟩ a b)

theorem ctx_pkt_lt (p : Pkt) : p.ctx < 16 := bits_lt p.flags 0 4

theorem tag_pkt_lt (p : Pkt) : p.tag < 2 ^ 16 := bits_lt p.hdr.toNat _ 16

/-! ### Packets that wait for their collective (R385) -/

section
variable {c : Channel}

/-- Held packets none of which has its collective stay held. -/
theorem Channel.pumpHeld_none_ready (early : ∀ e ∈ c.tat.held, c.ready e = false) (fr : Nat) : c.pumpHeld fr = c := by
  have none : c.tat.held.find? c.ready = none := List.find?_eq_none.mpr fun e held => by simp [early e held]
  rw [Channel.pumpHeld]
  cases c.tat.held.length with
  | zero => rfl
  | succ n => rw [Channel.drainHeld, none]

/-- While the norm of a context is not known no U stream goes on. -/
theorem Channel.wakeNorm_unknown {x : Nat} (unknown : (c.step x).known = none) (fr : Nat) : c.wakeNorm x fr = c :=
  if_neg (by rw [unknown]; decide)

variable {p : Pkt} (coll : p.ptype = 3) (reduction : p.kind ≤ 2) (noPasses : c.tat.passes = [])
include coll reduction noPasses

/-- A SCALE, RS or AG packet that no pass takes is held. -/
theorem Channel.collDeliver_early (fr k : Nat) : c.collDeliver fr k p = c.holdPkt k p := by
  have other : p.ptype ≠ 6 := by omega
  rw [Channel.collDeliver, if_neg other, if_pos reduction, Channel.passPkt, noPasses]
  rfl

/-- It is not ready while no pass runs. -/
theorem Channel.ready_no_passes (k : Nat) : c.ready (k, p) = false := by
  have other : p.ptype ≠ 6 := by omega
  simp only [Channel.ready, if_neg other, if_pos reduction, noPasses, List.any_nil]

/-- The first packet to be held waits. -/
theorem Channel.pumpHeld_first_early (noHeld : c.tat.held = []) (fr k : Nat) : (c.holdPkt k p).pumpHeld fr = c.holdPkt k p := by
  refine Channel.pumpHeld_none_ready (fun e held => ?_) fr
  have only : e = (k, p) := by simpa only [Channel.holdPkt, noHeld, List.nil_append, List.mem_singleton] using held
  rw [only]
  exact Channel.ready_no_passes (c := c.holdPkt k p) coll reduction noPasses k

end

/-! ### A packet at the engine -/

/-- A COLL packet of kind j that the engine takes from its port: the store of early packets has room (R385). -/
structure CollTaken (c : Channel) (j : Nat) (p : Pkt) : Prop where
  coll : p.ptype = 3
  kind : p.kind = j
  room : c.storeFull = false

theorem CollTaken.enters {c : Channel} {j : Nat} {p : Pkt} (taken : CollTaken c j p) : ¬ (p.ptype ≠ 3 ∨ p.kind ≠ j ∨ c.storeFull = true) := by
  obtain ⟨coll, kind, room⟩ := taken
  simp [coll, kind, room]

section
variable {c : Channel} {j k : Nat} {p : Pkt}

/-- While the store of early packets is full a packet stays in its port. -/
theorem Channel.collRx_full (full : c.storeFull = true) (fr k j : Nat) (p : Pkt) : c.collRx fr k j p = c := if_pos (.inr (.inr full))

theorem Channel.collRx_relayed (taken : CollTaken c j p) (relay : p.relay = true) (carries : (c.takeRx k p).carries p.ctx p.half k = true) (fr : Nat) :
    c.collRx fr k j p = (c.takeRx k p).sendPkt (oppPort k) 0 p :=
  (if_neg taken.enters).trans (if_pos ⟨relay, carries⟩)

variable (taken : CollTaken c j p) (own : (p.relay && (c.takeRx k p).carries p.ctx p.half k) = false)
include taken own

/-- A packet for this member meets the checks of its ECRC and of its epoch, in this order. -/
theorem Channel.collRx_own (fr : Nat) :
    c.collRx fr k j p = if !p.crcOk then (c.takeRx k p).tatFault p.ctx fcTatEcrc p.tag
      else if p.epoch ≠ (c.takeRx k p).press p.ctx then (c.takeRx k p).count Reg.TAT_EPDROP 1
      else ((((c.takeRx k p).collDeliver fr k p).pumpHeld fr).wakeNorm p.ctx (fr + 1)).onward fr := by
  have notCarried : ¬ (p.relay = true ∧ (c.takeRx k p).carries p.ctx p.half k = true) := by
    simpa only [Bool.and_eq_false_imp, not_and, Bool.not_eq_true] using own
  exact (if_neg taken.enters).trans (if_neg notCarried)

theorem Channel.collRx_bad_ecrc (bad : p.crcOk = false) (fr : Nat) :
    c.collRx fr k j p = (c.takeRx k p).tatFault p.ctx fcTatEcrc p.tag :=
  (Channel.collRx_own taken own fr).trans (if_pos (by rw [bad]; rfl))

variable (good : p.crcOk = true)
include good

theorem Channel.collRx_other_epoch (other : p.epoch ≠ c.press p.ctx) (fr : Nat) : c.collRx fr k j p = (c.takeRx k p).count Reg.TAT_EPDROP 1 := by
  have differs : p.epoch ≠ (c.takeRx k p).press p.ctx := ne_of_ne_of_eq other (c.rd_takeRx k p _).symm
  rw [Channel.collRx_own taken own, if_neg (by rw [good]; decide), if_pos differs]

theorem Channel.collRx_delivered (now : p.epoch = c.press p.ctx) (fr : Nat) :
    c.collRx fr k j p = ((((c.takeRx k p).collDeliver fr k p).pumpHeld fr).wakeNorm p.ctx (fr + 1)).onward fr := by
  have same : p.epoch = (c.takeRx k p).press p.ctx := now.trans (c.rd_takeRx k p _).symm
  rw [Channel.collRx_own taken own, if_neg (by rw [good]; decide), if_neg (not_not_intro same)]

end

theorem leavesF_collRow (ch : Chan) (k : Port) (p : Pkt) (j : Fin 6) (s : State) :
    LeavesF 128 (collRow ch k p j.val) s ch ((s.chan ch).collRx s.free k.val j.val p) := by
  fin_cases j <;> rfl

/-- Settles O37: a COLL packet by whether the store has room, by whether the channel only carries it, and by its ECRC, its epoch and the
passes that run. -/
theorem collectivePackets : Obligations.CollectivePackets := by
  intro ch k p j s c c1 row coll
  have took : PortsOnly [] c c1 := c.portsOnly_takeRx k.val p
  have leaves := leavesF_collRow ch k p j s
  refine ⟨fun kind room relay carries => ?relayed, fun kind room own bad => ?badEcrc, fun kind room own good other => ?otherEpoch,
    fun kind room own good now => ?delivered, fun kind reduction room noRelay good now noPasses noHeld _ _ quiet unknown => ?early,
    fun full => ?full⟩
  case relayed => exact leavesF_congr leaves (Channel.collRx_relayed ⟨coll, kind, room⟩ relay carries _)
  case badEcrc =>
    refine ⟨mkFault 106 fcTatEcrc (some p.ctx) p.tag (c1.press p.ctx), leavesF_congr leaves ?_, code_mkFault (by decide) ..,
      node_mkFault_block (by decide) .., ctx_mkFault_val (ctx_pkt_lt p) .., arg0_mkFault (Nat.lt_trans (tag_pkt_lt p) (by decide)) ..⟩
    rw [Channel.collRx_bad_ecrc ⟨coll, kind, room⟩ own bad, ← faultq_of_portsOnly took]
    rfl
  case otherEpoch =>
    exact ⟨_, leavesF_congr leaves (Channel.collRx_other_epoch ⟨coll, kind, room⟩ own good other _), regs_count c1 _ 1,
      counted_after_portsOnly took (by simp) (counted_count c1 _ 1)⟩
  case delivered => exact leavesF_congr leaves (Channel.collRx_delivered ⟨coll, kind, room⟩ own good now _)
  case early =>
    have engine : c1.tat = c.tat := tat_of_portsOnly took
    have few : p.kind ≤ 2 := kind.trans_le reduction
    have idle : c1.tat.passes = [] := engine ▸ noPasses
    have still : ((c1.holdPkt k.val p).step p.ctx).known = none := (congrArg StepSt.known (step_of_portsOnly took p.ctx)).trans unknown
    have quiet1 : LinkQuiet (c1.holdPkt k.val p) := (linkQuiet_of_portsOnly took quiet :)
    refine leavesF_congr leaves ?_
    rw [Channel.collRx_delivered ⟨coll, kind, room⟩ (by rw [noRelay]; rfl) good now, Channel.collDeliver_early coll few idle,
      Channel.pumpHeld_first_early coll few idle (engine ▸ noHeld), Channel.wakeNorm_unknown still, Channel.onward_quiet quiet1,
      Channel.holdPkt, engine, noHeld]
    rfl
  case full => exact leavesF_congr leaves (Channel.collRx_full full ..)

end Sys2Proof.Machine
end

section
/-! Reductions and their buckets (R374, R379, R380): which buckets join the queue, and what the start of one leaves. -/

namespace Sys2Proof.Machine

open Sys2Proof Sys2Proof.Says

/-! ### Buckets that join the queue (R380) -/

theorem Channel.bkt_setBkt_same (c : Channel) (x b : Nat) (k : Bkt) : (c.setBkt x b k).bkt x b = k := mget_mset_same ..

/-- The reduction of context x may start: in STEP, not yet started in this step, every owned core past its last B run. -/
structure ReductionDue (c : Channel) (x : Nat) : Prop where
  inStep : c.ctxState x = ctxStep
  first : (c.step x).reducing = false
  allDone : (c.ownedSites x).all (fun i => (c.core i).bDone) = true

/-- The step of context x records that its reduction has started. -/
def Channel.reductionBegun (c : Channel) (x : Nat) : Channel := c.setStep x { c.step x with reducing := true }

section
variable {c : Channel} {x b : Nat}

theorem Channel.reducing_reductionBegun (c : Channel) (x : Nat) : ((c.reductionBegun x).step x).reducing = true :=
  congrArg StepSt.reducing (Channel.step_setStep_same ..)

/-- A CLOSED bucket joins the queue. -/
theorem Channel.bucketJoin_closed (closed : (c.bkt x b).st = 2) : c.bucketJoin x b = { c with tat := { c.tat with queue := c.tat.queue ++ [(x, b)] } } := by
  simp [Channel.bucketJoin, closed]

/-- A bucket that still gathers contributions does not: the fault is raised. -/
theorem Channel.bucketJoin_contributing (gathers : (c.bkt x b).st = 1) : c.bucketJoin x b = c.tatFault x fcTatContrib (b + c.lgen x * 4096) := if_pos gathers

/-- What keeps a reduction from starting. -/
theorem reductionDue_iff : ReductionDue c x ↔
    ¬ (c.ctxState x ≠ ctxStep ∨ (c.step x).reducing = true ∨ (!(c.ownedSites x).all fun i => (c.core i).bDone) = true) := by
  constructor
  · rintro ⟨inStep, first, allDone⟩
    simp [inStep, first, allDone]
  · intro goes
    simp only [not_or, ne_eq, not_not, Bool.not_eq_true, Bool.not_eq_false'] at goes
    obtain ⟨inStep, first, allDone⟩ := goes
    exact ⟨inStep, first, allDone⟩

theorem Channel.reductionStart_not_due (early : ¬ ReductionDue c x) : c.reductionStart x = c := if_pos (not_not.mp (mt reductionDue_iff.mpr early))

/-- A reduction that is due takes the context's valid buckets in order. -/
theorem Channel.reductionStart_due (due : ReductionDue c x) :
    c.reductionStart x = ((List.range (c.nbkt x)).filter (fun b => (c.bEntry x b).valid)).foldl (fun c b => c.bucketJoin x b) (c.reductionBegun x) :=
  if_neg (reductionDue_iff.mp due)

theorem Channel.reductionStart_no_buckets (due : ReductionDue c x) (none : c.nbkt x = 0) : c.reductionStart x = c.reductionBegun x := by
  rw [Channel.reductionStart_due due, none]
  rfl

theorem Channel.reductionStart_one_bucket (due : ReductionDue c x) (one : c.nbkt x = 1) (valid : (c.bEntry x 0).valid = true) :
    c.reductionStart x = (c.reductionBegun x).bucketJoin x 0 := by
  rw [Channel.reductionStart_due due, one, List.range_one, List.filter_singleton, valid]
  rfl

end

/-! ### Dimensions of one member (R373, R381) -/

section
variable {c : Channel} {e : BEntry} {p : Pass} {x : Nat}

/-- A group of one has one member in each dimension. -/
theorem Channel.elen_of_gsize_one (alone : c.gsize x = 1) {d : Nat} (h : d < 3) : c.elen x d = 1 := by
  obtain ⟨plane, last⟩ := mul_eq_one.mp alone
  obtain ⟨first, second⟩ := mul_eq_one.mp plane
  interval_cases d <;> assumption

theorem Channel.startDim_skips (t : Nat) (h : p.dim < 3) (single : c.elen p.ctx p.dim = 1) :
    c.startDim e (t + 1) p = c.startDim e t { p with dim := p.dim + 1 } := by
  rw [Channel.startDim, if_neg (by omega)]
  exact if_pos single

theorem Channel.startDim_ends (t : Nat) (h : 3 ≤ p.dim) (sums : p.agree = false) : c.startDim e (t + 1) p = (c, { p with ended := true }) := by
  rw [Channel.startDim, if_pos h, if_neg (by rw [sums]; decide)]

/-- A pass in a group of one ends at once and sends nothing. -/
theorem Channel.startDim_alone (t : Nat) (alone : c.gsize p.ctx = 1) (start : p.dim = 0) (sums : p.agree = false) :
    c.startDim e (t + 4) p = (c, { p with dim := 3, ended := true }) := by
  have single (d : Nat) (h : d < 3) : c.elen p.ctx d = 1 := Channel.elen_of_gsize_one alone h
  calc c.startDim e (t + 4) p
      = c.startDim e (t + 3) { p with dim := 1 } := by
        rw [Channel.startDim_skips (t + 3) (by omega) (single _ (by omega)), start]
    _ = c.startDim e (t + 2) { p with dim := 2 } := Channel.startDim_skips (p := { p with dim := 1 }) (t + 2) (Nat.one_lt_succ_succ 1) (single 1 (by omega))
    _ = c.startDim e (t + 1) { p with dim := 3 } := Channel.startDim_skips (p := { p with dim := 2 }) (t + 1) (Nat.lt_add_one 2) (single 2 (by omega))
    _ = (c, { p with dim := 3, ended := true }) := Channel.startDim_ends (p := { p with dim := 3 }) t le_rfl sums

end

/-! ### The start of a bucket (R380) -/

/-- The channel without bucket e in its queue. -/
def Channel.unqueued (c : Channel) (e : Nat × Nat) : Channel := { c with tat := { c.tat with queue := eraseFirst e c.tat.queue } }

/-- The first pass of a bucket that holds contributions; with WFMT 3 its group, if of more than one, first agrees on scales. -/
def Channel.firstPass (c : Channel) (e : Nat × Nat) : Pass :=
  { ctx := e.1, b := e.2, tag := e.2 + c.lgen e.1 * 4096, ep := (c.bkt e.1 e.2).ep,
    agree := (c.bEntry e.1 e.2).wfmt == 3 && c.gsize e.1 != 1, dim := 0, pass := 0, zero := false, res := [], prev := none, scales := [],
    flags := [], ended := false, sdig := 0, rdig := 0 }

/-- A pass joins those that run, and its bucket takes the state that goes with it (R379). -/
def Channel.passAdded (c : Channel) (p : Pass) : Channel := (c.setPasses (c.tat.passes ++ [p])).passState p

/-- Bucket e begins its first pass; packets that came early for it go to it. -/
def Channel.passBegun (c : Channel) (fr : Nat) (e : Nat × Nat) : Channel :=
  let r := c.startDim (c.bEntry e.1 e.2) 8 (c.firstPass e)
  (r.1.passAdded r.2).pumpHeld fr

/-- Bucket e, CLOSED, is the next to start, and a pass may begin. -/
structure BucketNext (c : Channel) (e : Nat × Nat) : Prop where
  room : c.tat.passes.length < 4
  next : c.nextBucket = some e
  closed : (c.bkt e.1 e.2).st = 2

section
variable {c : Channel} {e : Nat × Nat}

/-- With four passes running, or no bucket that may start, none does. -/
theorem Channel.bucketStart_none (stays : 4 ≤ c.tat.passes.length ∨ c.nextBucket = none) (fr : Nat) : c.bucketStart fr = c := by
  unfold Channel.bucketStart
  split
  · rfl
  · next room => rw [stays.resolve_left room]

/-- The next bucket leaves the queue; it begins its first pass where its group fits. -/
theorem Channel.bucketStart_next (h : BucketNext c e) (fr : Nat) :
    c.bucketStart fr = if !(c.unqueued e).groupOk e.1 then (c.unqueued e).tatFault e.1 fcTatGroup e.2 else (c.unqueued e).passBegun fr e := by
  obtain ⟨room, next, closed⟩ := h
  rw [Channel.bucketStart, if_neg (by omega), next]
  dsimp -zeta only
  extract_lets k zero engine c1 c2 entry p
  have filled : ¬ zero := not_not_intro closed
  have left : c2 = c.unqueued e := (if_neg filled : c2 = c1)
  have pass : p = (c.unqueued e).firstPass e := by
    simp only [p, entry, left, decide_eq_false filled]
    rfl
  have read : entry = (c.unqueued e).bEntry e.1 e.2 := by rw [← left]
  rw [left, pass, read]
  rfl

theorem Channel.bucketStart_unfit (h : BucketNext c e) (unfit : (c.unqueued e).groupOk e.1 = false) (fr : Nat) :
    c.bucketStart fr = (c.unqueued e).tatFault e.1 fcTatGroup e.2 :=
  (Channel.bucketStart_next h fr).trans (if_pos (by rw [unfit]; rfl))

theorem Channel.bucketStart_fits (h : BucketNext c e) (fits : (c.unqueued e).groupOk e.1 = true) (fr : Nat) :
    c.bucketStart fr = (c.unqueued e).passBegun fr e :=
  (Channel.bucketStart_next h fr).trans (if_neg (by rw [fits]; decide))

/-- A group of one agrees on no scales. -/
theorem Channel.firstPass_sums (alone : c.gsize e.1 = 1) : (c.firstPass e).agree = false := by
  simp only [Channel.firstPass, alone, bne_self_eq_false, Bool.and_false]

/-- In a group of one the first pass has ended as it joins. -/
theorem Channel.passBegun_alone (alone : c.gsize e.1 = 1) (noHeld : c.tat.held = []) (fr : Nat) :
    c.passBegun fr e = c.passAdded { c.firstPass e with dim := 3, ended := true } := by
  have ends : c.startDim (c.bEntry e.1 e.2) 8 (c.firstPass e) = (c, { c.firstPass e with dim := 3, ended := true }) :=
    Channel.startDim_alone 4 alone rfl (Channel.firstPass_sums alone)
  rw [Channel.passBegun, ends]
  exact Channel.pumpHeld_none_ready (fun w held => absurd held (noHeld ▸ List.not_mem_nil)) fr

/-- The bucket of a pass that sums is in state 4. -/
theorem Channel.st_passAdded {p : Pass} (sums : p.agree = false) : ((c.passAdded p).bkt p.ctx p.b).st = 4 := by
  rw [Channel.passAdded, Channel.passState, Channel.bkt_setBkt_same, sums]
  rfl

end

/-! ### The rows -/

section
variable {ch : Chan} {s : State} {d : Channel}

theorem leaves_reductionStart {x : Ctx} (h : (s.chan ch).reductionStart x.val = d) : Leaves (.reductionStart ch x) s ch d :=
  leaves_congr (x := (s.chan ch).reductionStart x.val) rfl h

theorem leavesF_bucketStart (h : (s.chan ch).bucketStart s.free = d) : LeavesF 128 (.bucketStart ch) s ch (d.onward s.free) :=
  leavesF_congr (x := ((s.chan ch).bucketStart s.free).onward s.free) rfl (by rw [h])

end

/-- Settles O39: a reduction by whether it is due and by the state of its bucket, the start of a bucket by whether one may start and by its
group. -/
theorem reductionsStart : Obligations.ReductionsStart := by
  intro ch x e s c t go
  have due (h : go) : ReductionDue c x.val := by
    obtain ⟨inStep, first, allDone⟩ := h
    exact ⟨inStep, first, allDone⟩
  refine ⟨fun goes none => ?noBuckets, fun goes one valid closed => ?queued, fun goes one valid contributing => ?contributing,
    fun early => ?early, fun room next closed unfit lt quiet => ?unfit, fun room next closed fits quiet noHeld alone => ?alone,
    fun stays quiet => ?stays⟩
  case noBuckets => exact leaves_reductionStart (Channel.reductionStart_no_buckets (due goes) none)
  case queued =>
    have joins := Channel.reductionStart_one_bucket (due goes) one valid
    exact ⟨_, leaves_reductionStart (joins.trans (Channel.bucketJoin_closed (c := c.reductionBegun x.val) closed)), rfl,
      c.reducing_reductionBegun x.val, rfl, rfl⟩
  case contributing =>
    have joins := Channel.reductionStart_one_bucket (due goes) one valid
    exact ⟨_, _, leaves_reductionStart (joins.trans (Channel.bucketJoin_contributing (c := c.reductionBegun x.val) contributing)), rfl,
      code_mkFault (by decide) .., ctx_mkFault .., rfl⟩
  case early =>
    refine leaves_reductionStart (Channel.reductionStart_not_due fun ⟨inStep, first, allDone⟩ => ?_)
    exact early ⟨inStep, first, allDone⟩
  case unfit =>
    have row := leavesF_bucketStart (Channel.bucketStart_unfit ⟨room, next, closed⟩ unfit s.free)
    have ends := Channel.onward_quiet (c := (c.unqueued e).tatFault e.1 fcTatGroup e.2) quiet s.free
    exact ⟨_, leavesF_congr row ends, code_mkFault (by decide) .., ctx_mkFault_val lt ..⟩
  case alone =>
    let d := c.unqueued e
    let p : Pass := { d.firstPass e with dim := 3, ended := true }
    have begins : c.bucketStart s.free = d.passAdded p :=
      (Channel.bucketStart_fits ⟨room, next, closed⟩ fits s.free).trans (Channel.passBegun_alone (c := d) alone noHeld s.free)
    have sums : p.agree = false := Channel.firstPass_sums (c := d) alone
    exact ⟨_, leavesF_bucketStart begins, rfl, List.length_append .., Channel.st_passAdded sums, rfl⟩
  case stays => exact leavesF_congr (leavesF_bucketStart (Channel.bucketStart_none stays _)) (Channel.onward_quiet quiet _)

end Sys2Proof.Machine
end

section
/-! Cores that a context releases or loads (R86, R90, R196): queues that are emptied, owners, the registers of contexts. -/

namespace Sys2Proof.Machine

open Sys2Proof Sys2Proof.Says

/-! ### The registers of contexts -/

/-- From c to d the register block of the contexts reads the same. -/
def CtxRegs (c d : Channel) : Prop := ∀ a, 0x3000 ≤ a → a < 0x4000 → d.rd a = c.rd a

section
variable {c d e : Channel}

theorem CtxRegs.refl (c : Channel) : CtxRegs c c := fun _ _ _ => rfl

theorem CtxRegs.trans (h : CtxRegs c d) (k : CtxRegs d e) : CtxRegs c e := fun a lo hi => (k a lo hi).trans (h a lo hi)

theorem ctxRegs_of_eq (h : d.regs = c.regs) : CtxRegs c d := fun a _ _ => by rw [Channel.rd, h, Channel.rd]

theorem ctxRegs_foldl {α : Type} {f : Channel → α → Channel} (h : ∀ c x, CtxRegs c (f c x)) (l : List α) (c : Channel) :
    CtxRegs c (l.foldl f c) :=
  List.foldlRecOn l f (CtxRegs.refl c) fun d kept x _ => kept.trans (h d x)

theorem ctxRegs_wr (c : Channel) {a : Nat} (out : a < 0x3000 ∨ 0x4000 ≤ a) (v : Nat) : CtxRegs c (c.wr a v) :=
  fun _ _ _ => c.rd_wr_other v (by omega)

theorem ctxRegs_count (c : Channel) {a : Nat} (out : a < 0x3000 ∨ 0x4000 ≤ a) (n : Nat) : CtxRegs c (c.count a n) :=
  fun _ _ _ => c.rd_count_other n (by omega)

theorem ctxRegs_setCore (c : Channel) (i : Nat) (k : Core) : CtxRegs c (c.setCore i k) := fun a _ _ => c.rd_setCore i a k

/-- The register block of a core lies above that of the contexts. -/
theorem coreBase_above (i n : Nat) : coreBase i + n < 0x3000 ∨ 0x4000 ≤ coreBase i + n := .inr (by simp only [coreBase]; omega)

theorem ctxRegs_setDesc (c : Channel) (k i v : Nat) : CtxRegs c (c.setDesc k i v) := by
  refine ctxRegs_foldl (fun d j => ?_) _ c
  have above : 0x4000 ≤ Reg.CORE_DESC k i j := by simp only [Reg.CORE_DESC, coreBase]; omega
  exact (ctxRegs_wr d (.inr above) _).trans (ctxRegs_wr _ (.inr (by omega)) _)

theorem ctxRegs_stByte (c : Channel) (a : Nat) (b : Byte) (offl : Bool) : CtxRegs c (c.stByte a b offl) := by
  have dirty (d : Channel) (o : Nat) : (d.ktDirty o).regs = d.regs := by
    simp only [Channel.ktDirty]
    split <;> rfl
  simp only [Channel.stByte]
  split
  case h_5 o _ =>
    simp only [Channel.flashPut]
    split
    · exact CtxRegs.refl c
    · exact (ctxRegs_of_eq rfl).trans (ctxRegs_wr _ (by decide) _)
  case h_3 => exact ctxRegs_of_eq (by simp)
  case h_4 => exact ctxRegs_of_eq rfl
  case h_6 o _ =>
    split
    · exact ctxRegs_of_eq (dirty _ o)
    · exact CtxRegs.refl c
  case h_1 | h_2 => split <;> exact ctxRegs_of_eq rfl
  case h_7 | h_8 => exact CtxRegs.refl c

theorem ctxRegs_st (c : Channel) (a : Nat) (offl : Bool) (l : List Byte) : CtxRegs c (c.st a offl l) := by
  induction l generalizing c a with
  | nil => exact CtxRegs.refl c
  | cons b t ih => exact (ctxRegs_stByte c a b offl).trans (ih _ _)

end

/-! ### Queues that are emptied (R181, R196) -/

/-- From c to d queues of cores have given up their lines: no core has another owner, no context's register another value. -/
structure QueuesOut (c d : Channel) : Prop where
  frame : d = { c with regs := d.regs, cores := d.cores, qcreds := d.qcreds }
  owner : ∀ i, (d.core i).owner = (c.core i).owner
  ctx : CtxRegs c d

section
variable {c d e : Channel}

theorem QueuesOut.refl (c : Channel) : QueuesOut c c := ⟨rfl, fun _ => rfl, CtxRegs.refl c⟩

theorem QueuesOut.trans (h : QueuesOut c d) (k : QueuesOut d e) : QueuesOut c e where
  frame := by rw [k.frame, h.frame]
  owner i := (k.owner i).trans (h.owner i)
  ctx := h.ctx.trans k.ctx

theorem queuesOut_foldl {α : Type} {f : Channel → α → Channel} (h : ∀ c x, QueuesOut c (f c x)) (l : List α) (c : Channel) :
    QueuesOut c (l.foldl f c) :=
  List.foldlRecOn l f (QueuesOut.refl c) fun d out x _ => out.trans (h d x)

theorem queuesOut_setCore (c : Channel) (i : Nat) {k : Core} (same : k.owner = (c.core i).owner) : QueuesOut c (c.setCore i k) where
  frame := rfl
  owner j := by
    by_cases here : j = i
    · rw [here, c.core_setCore_same, same]
    · rw [c.core_setCore_other k here]
  ctx := ctxRegs_setCore c i k

theorem queuesOut_setFld (c : Channel) {a : Nat} (out : a < 0x3000 ∨ 0x4000 ≤ a) (f : Fld) (v : Nat) : QueuesOut c (c.setFld a f v) :=
  ⟨rfl, fun _ => rfl, ctxRegs_wr c out _⟩

theorem queuesOut_count (c : Channel) {a : Nat} (out : a < 0x3000 ∨ 0x4000 ≤ a) (n : Nat) : QueuesOut c (c.count a n) where
  frame := by rw [c.count_frame]
  owner i := by rw [c.core_count]
  ctx := ctxRegs_count c out n

theorem queuesOut_credits (c : Channel) (l : List QCredit) : QueuesOut c { c with qcreds := l } := ⟨rfl, fun _ => rfl, CtxRegs.refl _⟩

theorem queuesOut_spillCredits (c : Channel) (i q : Nat) : QueuesOut c (c.spillCredits i q) := by
  rcases c.spillCredits_cases i q with kept | ⟨h, l, returned⟩
  · rw [kept]
    exact QueuesOut.refl c
  · rw [returned]
    have queued : QueuesOut c (c.setCore i ((c.core i).setQueue q { (c.core i).queue q with h := h })) := queuesOut_setCore c i rfl
    exact queued.trans (queuesOut_credits _ l)

/-- A line that leaves a queue: the queue changes, and credits may go back. -/
theorem queuesOut_qPop {i q : Nat} {l : QLine} (h : c.qPop i q = some (l, d)) : QueuesOut c d := by
  have queued (y : Queue) : QueuesOut c (c.setCore i ((c.core i).setQueue q y)) := queuesOut_setCore c i rfl
  unfold Channel.qPop at h
  extract_lets y at h
  split at h
  case h_1 => cases h
  case h_2 =>
    extract_lets y1 c1 c2 at h
    split at h
    case isTrue =>
      split at h
      · obtain ⟨-, rfl⟩ := Prod.mk.inj (Option.some.inj h)
        split
        · rw [Channel.giveCredits_eq]
          exact (queued _).trans (queuesOut_credits _ _)
        · exact queued _
      · obtain ⟨-, rfl⟩ := Prod.mk.inj (Option.some.inj h)
        exact (queued y1).trans (queuesOut_spillCredits _ i q)
    case isFalse =>
      obtain ⟨-, rfl⟩ := Prod.mk.inj (Option.some.inj h)
      split
      · exact (queued _).trans (queuesOut_credits _ _)
      · exact queued _

theorem queuesOut_queueFlush (i q n : Nat) (c : Channel) : QueuesOut c (Channel.queueFlush i q n c) := by
  induction n generalizing c with
  | zero => exact queuesOut_setCore c i rfl
  | succ n ih =>
    rw [Channel.queueFlush]
    split
    case h_1 l d popped => exact ((queuesOut_qPop popped).trans (queuesOut_count d (coreBase_above i _) 1)).trans (ih _)
    case h_2 => exact queuesOut_setCore c i rfl

theorem queuesOut_queuesFlush (c : Channel) (i : Nat) : QueuesOut c (c.queuesFlush i) :=
  queuesOut_foldl (fun c q => queuesOut_queueFlush i q _ c) _ c

theorem queuesOut_winsShut (c : Channel) (p : Nat → Bool) : QueuesOut c (c.winsShut p) := by
  refine queuesOut_foldl (fun d n => ?_) _ c
  have above : Reg.YLW_CTRL n < 0x3000 ∨ 0x4000 ≤ Reg.YLW_CTRL n := .inr (by simp only [Reg.YLW_CTRL]; omega)
  split
  · exact (queuesOut_setFld d above Fl.YLW_CTRL_OPEN 0).trans (queuesOut_setFld _ above Fl.YLW_CTRL_CLOSING 0)
  · exact QueuesOut.refl d

theorem queuesOut_halvesOff (c : Channel) (i : Nat) : QueuesOut c (c.halvesOff i) := by
  refine queuesOut_foldl (fun d n => ?_) _ c
  have above : Reg.CORE_HALF_CFG i n < 0x3000 ∨ 0x4000 ≤ Reg.CORE_HALF_CFG i n := coreBase_above i _
  exact queuesOut_setFld d above Fl.CORE_HALF_CFG_VALID 0

end

/-! ### Cores that are released (R90) -/

/-- From c to d the cores of a list have been released; the other cores have kept their owners. -/
structure CoresOut (l : List Nat) (c d : Channel) : Prop where
  frame : d = { c with regs := d.regs, cores := d.cores, qcreds := d.qcreds }
  gone : ∀ i ∈ l, (d.core i).owner = none
  kept : ∀ i, i ∉ l → (d.core i).owner = (c.core i).owner
  ctx : CtxRegs c d

/-- Core i without an owner: of what it held it keeps its credits and the bobbins once eligible (R221). -/
def Channel.freed (c : Channel) (i : Nat) : Channel :=
  c.setCore i { Core.reset with pools := (c.core i).pools, elig := (c.core i).elig }

theorem coresOut_freed {c d : Channel} (out : QueuesOut c d) (i : Nat) : CoresOut [i] c (d.freed i) where
  frame := by rw [Channel.freed, Channel.setCore, out.frame]
  gone j here := by
    rw [List.mem_singleton.mp here, Channel.freed, d.core_setCore_same]
    rfl
  kept j other := by rw [Channel.freed, d.core_setCore_other _ (List.ne_of_not_mem_cons other), out.owner]
  ctx := out.ctx.trans (ctxRegs_setCore d i _)

theorem coresOut_releaseCore (c : Channel) (x i : Nat) : CoresOut [i] c (c.releaseCore x i) :=
  coresOut_freed ((queuesOut_winsShut c _).trans (queuesOut_queuesFlush _ i)) i

theorem coresOut_releases (x : Nat) (l : List Nat) (c : Channel) : CoresOut l c (l.foldl (fun c i => c.releaseCore x i) c) := by
  induction l generalizing c with
  | nil => exact ⟨rfl, fun _ none => absurd none List.not_mem_nil, fun _ _ => rfl, CtxRegs.refl c⟩
  | cons i t ih =>
    have first := coresOut_releaseCore c x i
    have rest := ih (c.releaseCore x i)
    rw [List.foldl_cons]
    refine ⟨?frame, fun j listed => ?gone, fun j other => ?kept, first.ctx.trans rest.ctx⟩
    case frame => rw [rest.frame, first.frame]
    case gone =>
      by_cases later : j ∈ t
      · exact rest.gone j later
      · have here : j = i := (List.mem_cons.mp listed).resolve_right later
        exact (rest.kept j later).trans (first.gone j (List.mem_singleton.mpr here))
    case kept =>
      rw [List.mem_cons, not_or] at other
      obtain ⟨away, later⟩ := other
      exact (rest.kept j later).trans (first.kept j (by simpa using away))

theorem Channel.mem_ownedSites {c : Channel} {x i : Nat} : i ∈ c.ownedSites x ↔ i < 100 ∧ (c.core i).owner = some x := by
  simp [Channel.ownedSites]

/-! ### Cores that are loaded (R86) -/

theorem ctxRegs_loadCore (c : Channel) (x : Nat) (b : Bundle) (i : Nat) : CtxRegs c (c.loadCore x b i) := by
  unfold Channel.loadCore
  extract_lets s c1 c2 c3
  have core : CtxRegs c c1 := (queuesOut_halvesOff c s).ctx.trans (ctxRegs_setCore _ s _)
  have descs : CtxRegs c1 c2 := ctxRegs_foldl (fun d _ => ctxRegs_setDesc d s _ _) _ c1
  have tacks : CtxRegs c2 c3 := by
    refine ctxRegs_foldl (fun d t => ?_) _ c2
    have above : Reg.CORE_TACK s t < 0x3000 ∨ 0x4000 ≤ Reg.CORE_TACK s t := coreBase_above s _
    exact (ctxRegs_wr d above _).trans (ctxRegs_wr _ above _)
  exact ((core.trans descs).trans tacks).trans (ctxRegs_st c3 _ _ _)

end Sys2Proof.Machine
end

section
/-! LPDDR5X as the host's commands reach it (R286, R403): bytes that a DMA stores and reads. -/

namespace Sys2Proof.Machine

open Sys2Proof Sys2Proof.Says

/-! ### Bytes stored in LPDDR5X -/

/-- From c to d the bytes of a list have been stored from address a on: only memory and the corrections that wait may differ. -/
structure Stored (a : Nat) (data : List Byte) (c d : Channel) : Prop where
  frame : d = { c with mem := d.mem, corr := d.corr }
  other : ∀ y, ¬ (a ≤ y ∧ y < a + data.length) → mget memDefault d.mem y = mget memDefault c.mem y
  read : d.ld a data.length = data

section
variable {c : Channel} {a o : Nat} {data : List Byte}

theorem Channel.row_within_lp (c : Channel) {a : Nat} (lo : lpBase ≤ a) (hi : a < 0x0130_0000_0000) : c.row a = .lp (a - lpBase) := by
  simp only [lpBase] at lo
  rw [Channel.row, if_neg (by omega), if_neg (by omega), if_neg (by omega), if_neg (by omega), if_neg (by omega), if_neg (by omega),
    if_neg (by omega), if_neg (by simp only [lpBase]; omega), if_pos hi]

theorem Channel.ldByte_within_lp (c : Channel) {a : Nat} (lo : lpBase ≤ a) (hi : a < 0x0130_0000_0000) : c.ldByte a = mget memDefault c.mem a := by
  rw [Channel.ldByte, c.row_within_lp lo hi]

theorem stored_st (lo : lpBase ≤ a) (hi : a + data.length ≤ 0x0130_0000_0000) : Stored a data c (c.st a false data) := by
  induction data generalizing c a with
  | nil => exact ⟨rfl, fun _ _ => rfl, rfl⟩
  | cons b t ih =>
    rw [List.length_cons] at hi
    have byte : c.stByte a b false = (c.wroteWord (a / 64 * 64)).poke a b := by rw [Channel.stByte, c.row_within_lp lo (by omega)]
    have rest := ih (c := c.stByte a b false) (a := a + 1) (by omega) (by omega)
    rw [Channel.st]
    refine ⟨?frame, fun y outside => ?other, ?read⟩
    case frame =>
      rw [rest.frame, byte]
      rfl
    case other =>
      rw [List.length_cons] at outside
      rw [rest.other y (by omega), byte, Channel.mem_poke_other _ _ (by omega), Channel.mem_wroteWord]
    case read =>
      have first : ((c.stByte a b false).st (a + 1) false t).ldByte a = b := by
        rw [Channel.ldByte_within_lp _ lo (by omega), rest.other a (by omega), byte, Channel.mem_poke_same]
      rw [List.length_cons, Channel.ld, first, rest.read]

/-- R286: the units that a write covers in part are counted, each at its controller. -/
theorem Channel.rmwCount_effect (c : Channel) (a n : Nat) :
    c.rmwCount a n = { c with regs := (c.rmwCount a n).regs } ∧
      ∀ r, (∀ k, k < 4 → r ≠ Reg.MEMC_RMW k) → (c.rmwCount a n).rd r = c.rd r := by
  refine List.foldlRecOn
    (motive := fun d : Channel => d = { c with regs := d.regs } ∧ ∀ r, (∀ k, k < 4 → r ≠ Reg.MEMC_RMW k) → d.rd r = c.rd r)
    _ _ ⟨rfl, fun _ _ => rfl⟩ fun d ⟨frame, kept⟩ u _ => ⟨?frame, fun r other => ?kept⟩
  case frame => rw [Channel.count_frame, frame]
  case kept => rw [d.rd_count_other 1 (other _ (memCtrl_lt _)), kept r other]

theorem Channel.memWrite_plain (c : Channel) (a : Nat) (data : List Byte) :
    c.memWrite a data [] [] = (c.rmwCount a data.length).st a false data := rfl

theorem Channel.busWrite_lp (row : c.row a = .lp o) (hi : a + data.length ≤ 0x0130_0000_0000) :
    c.busWrite a data = { c with mem := (c.busWrite a data).mem, corr := (c.busWrite a data).corr, regs := (c.busWrite a data).regs } ∧
    (∀ r, (∀ k, k < 4 → r ≠ Reg.MEMC_RMW k) → (c.busWrite a data).rd r = c.rd r) ∧ (c.busWrite a data).ld a data.length = data ∧
    ∀ y, ¬ (a ≤ y ∧ y < a + data.length) → mget memDefault (c.busWrite a data).mem y = mget memDefault c.mem y := by
  have place := Channel.row_lp row
  have writes : c.busWrite a data = (c.rmwCount a data.length).st a false data := by rw [Channel.busWrite, row, ← c.memWrite_plain]
  obtain ⟨counted, kept⟩ := c.rmwCount_effect a data.length
  obtain ⟨frame, other, read⟩ := stored_st (c := c.rmwCount a data.length) (data := data) (a := a) (by omega) hi
  rw [writes]
  refine ⟨?frame, fun r apart => ?kept, read, fun y outside => ?other⟩
  case frame => rw [frame, counted]
  case kept =>
    rw [frame]
    exact kept r apart
  case other => rw [other y outside, counted]

theorem Channel.busRead_lp (row : c.row a = .lp o) (n : Nat) : c.busRead a n = (c, c.ld a n) := by
  have unfenced : c.fencedWindow a = false := by rw [Channel.fencedWindow, row]
  have still : c.busTouch a n = c := by simp [Channel.busTouch, row, unfenced]
  rw [Channel.busRead, still]

/-! ### Reads that a change of other registers leaves alone -/

/-- What a read of memory depends on (R513): the units' registers below the blocks of the host's port, memory, the enabled sites, the units. -/
structure SameReads (c d : Channel) : Prop where
  rd : ∀ a, a < 0x8000 → d.rd a = c.rd a
  mem : d.mem = c.mem
  otp : d.otp = c.otp
  flash : d.flash = c.flash
  kt5 : d.kt5 = c.kt5

variable {d : Channel}

theorem SameReads.ldByte (h : SameReads c d) (a : Nat) : d.ldByte a = c.ldByte a := by
  have row := Channel.row_of_rd (h.rd Reg.KT5_MAP (by decide)) a
  have usable (i : Nat) : d.usable i = c.usable i := by
    by_cases site : i < 100
    · have fence : d.rd (Reg.MESH_FENCE (i / 32)) = c.rd (Reg.MESH_FENCE (i / 32)) := h.rd _ (by simp only [Reg.MESH_FENCE]; omega)
      simp only [Channel.usable, Channel.enabled, Channel.fenced, h.otp, fence]
    · simp [Channel.usable, Channel.enabled, site]
  have ctrl : d.rd Reg.KT5_CTRL = c.rd Reg.KT5_CTRL := h.rd _ (by decide)
  have map : d.rd Reg.KT5_MAP = c.rd Reg.KT5_MAP := h.rd _ (by decide)
  have failed : d.fld Reg.FLASH_STATUS Fl.FLASH_STATUS_FAILED = c.fld Reg.FLASH_STATUS Fl.FLASH_STATUS_FAILED := by
    rw [Channel.fld, h.rd _ (by decide), Channel.fld]
  have flat (o : Nat) : d.ktAddr o = c.ktAddr o := by
    simp only [Channel.ktAddr, Channel.ktPlace, Channel.ktFind, Channel.ktWayAddr, Channel.ktBack, Channel.fld, ctrl, map, h.kt5]
  have on : d.ktOn = c.ktOn := by simp only [Channel.ktOn, Channel.fld, ctrl]
  have held (u : Nat) : d.flashBuf u = c.flashBuf u := by rw [Channel.flashBuf, h.flash, Channel.flashBuf]
  have buffered (o : Nat) : d.flashByte o = c.flashByte o := by rw [Channel.flashByte, failed, held, h.mem, Channel.flashByte]
  simp only [Channel.ldByte, row, h.mem, usable, on, flat, buffered]

theorem SameReads.ld (h : SameReads c d) (a n : Nat) : d.ld a n = c.ld a n := by
  simp only [Channel.ld_eq_map, h.ldByte]

end

end Sys2Proof.Machine
end

section
/-! Contexts that UNLOAD empties and that STEP starts (R79, R90). -/

namespace Sys2Proof.Machine

open Sys2Proof Sys2Proof.Says

/-! ### Updates in a row -/

section
variable {α : Type}

theorem Channel.rd_foldl_wr_other {f g : α → Nat} {l : List α} {a : Nat} (other : ∀ k ∈ l, a ≠ f k) (c : Channel) :
    (l.foldl (fun c k => c.wr (f k) (g k)) c).rd a = c.rd a :=
  List.foldlRecOn (motive := fun d : Channel => d.rd a = c.rd a) l _ rfl fun d kept k here => (d.rd_wr_other (g k) (other k here)).trans kept

theorem Channel.rd_foldl_wr_mem {f : α → Nat} {v a : Nat} {l : List α} (here : ∃ k ∈ l, a = f k) (c : Channel) :
    (l.foldl (fun c k => c.wr (f k) v) c).rd a = v % 2 ^ 32 := by
  induction l generalizing c with
  | nil =>
    obtain ⟨k, none, -⟩ := here
    exact absurd none List.not_mem_nil
  | cons i t ih =>
    rw [List.foldl_cons]
    by_cases later : ∃ k ∈ t, a = f k
    · exact ih later _
    · have first : a = f i := by
        obtain ⟨k, listed, same⟩ := here
        rcases List.mem_cons.mp listed with rfl | inRest
        · exact same
        · exact absurd ⟨k, inRest, same⟩ later
      rw [Channel.rd_foldl_wr_other (fun k inRest same => later ⟨k, inRest, same⟩), first, Channel.rd_wr_same]

theorem Channel.regs_only_foldl {f : Channel → α → Channel} (h : ∀ d x, f d x = { d with regs := (f d x).regs }) (l : List α) (c : Channel) :
    l.foldl f c = { c with regs := (l.foldl f c).regs } :=
  List.foldlRecOn (motive := fun d : Channel => d = { c with regs := d.regs }) l f rfl fun d frame x _ => by rw [h, frame]

theorem Channel.cores_only_foldl (g : Channel → Nat → Core) (l : List Nat) (c : Channel) :
    l.foldl (fun c i => c.setCore i (g c i)) c = { c with cores := (l.foldl (fun c i => c.setCore i (g c i)) c).cores } :=
  List.foldlRecOn (motive := fun d : Channel => d = { c with cores := d.cores }) l _ rfl fun d frame i _ => by rw [Channel.setCore, frame]

end

/-! ### A context that UNLOAD empties (R90) -/

section
variable (c : Channel) (x : Nat)

/-- The digest of a context reads 0. -/
def Channel.digestCleared : Channel := (List.range 8).foldl (fun c k => c.wr (Reg.CTX_DIGEST x k) 0) c

theorem Channel.ctxEmptied_eq : c.ctxEmptied x =
    (((c.digestCleared x).setFld (Reg.CTX_STATE x) Fl.CTX_STATE_MB 0).setFld (Reg.CTX_STATE x) Fl.CTX_STATE_STAGES 0).setFld (Reg.CTX_STATE x)
      Fl.CTX_STATE_STATE ctxEmpty := rfl

theorem Channel.digestCleared_frame : c.digestCleared x = { c with regs := (c.digestCleared x).regs } :=
  Channel.regs_only_foldl (fun _ _ => rfl) _ c

theorem Channel.ctxEmptied_frame : c.ctxEmptied x = { c with regs := (c.ctxEmptied x).regs } := by
  have states : c.ctxEmptied x = { c.digestCleared x with regs := (c.ctxEmptied x).regs } := rfl
  rw [states, Channel.digestCleared_frame]

theorem Channel.ctxState_ctxEmptied : (c.ctxEmptied x).ctxState x = ctxEmpty := by
  rw [Channel.ctxState, Channel.ctxEmptied_eq, Channel.fld_setFld_same _ _ _ _ (by decide)]
  rfl

theorem Channel.mbs_ctxEmptied : (c.ctxEmptied x).mbs x = 0 := by
  rw [Channel.mbs, Channel.ctxEmptied_eq, Channel.fld_setFld_field _ _ _ _ _ (by decide) (by decide),
    Channel.fld_setFld_field _ _ _ _ _ (by decide) (by decide), Channel.fld_setFld_same _ _ _ _ (by decide)]
  rfl

theorem Channel.digest_ctxEmptied {k : Nat} (h : k < 8) : (c.ctxEmptied x).rd (Reg.CTX_DIGEST x k) = 0 := by
  have apart : Reg.CTX_DIGEST x k ≠ Reg.CTX_STATE x := by simp only [Reg.CTX_DIGEST, Reg.CTX_STATE]; omega
  rw [Channel.ctxEmptied_eq, Channel.rd_setFld_other _ _ _ apart, Channel.rd_setFld_other _ _ _ apart, Channel.rd_setFld_other _ _ _ apart]
  exact Channel.rd_foldl_wr_mem ⟨k, List.mem_range.mpr h, rfl⟩ c

end

/-- What UNLOAD leaves (R90): context x is EMPTY and its cores have no owner; memory and the host's port are as they were. -/
structure Unloaded (x : Nat) (c d : Channel) : Prop where
  state : d.ctxState x = ctxEmpty
  mbs : d.mbs x = 0
  digest : ∀ k, k < 8 → d.rd (Reg.CTX_DIGEST x k) = 0
  frame : d = { c with regs := d.regs, cores := d.cores, qcreds := d.qcreds }
  gone : ∀ i, i < 100 → (c.core i).owner = some x → (d.core i).owner = none
  kept : ∀ i, (c.core i).owner ≠ some x → (d.core i).owner = (c.core i).owner

theorem unloaded_unload (c : Channel) (x : Nat) : Unloaded x c (c.unload x) := by
  unfold Channel.unload
  extract_lets c1
  have freed : CoresOut (c.ownedSites x) c c1 := coresOut_releases x _ c
  have shut := queuesOut_winsShut c1 fun n => c1.winCtx n == x && (c1.winOpen n || c1.fld (Reg.YLW_CTRL n) Fl.YLW_CTRL_CLOSING == 1)
  generalize c1.winsShut _ = c2 at shut ⊢
  have owner (i : Nat) : ((c2.ctxEmptied x).core i).owner = (c1.core i).owner := by
    rw [Channel.ctxEmptied_frame]
    exact shut.owner i
  refine ⟨c2.ctxState_ctxEmptied x, c2.mbs_ctxEmptied x, fun k => c2.digest_ctxEmptied x, ?frame, fun i site owned => ?gone, fun i other => ?kept⟩
  case frame => rw [Channel.ctxEmptied_frame, shut.frame, freed.frame]
  case gone => exact (owner i).trans (freed.gone i (Channel.mem_ownedSites.mpr ⟨site, owned⟩))
  case kept => exact (owner i).trans (freed.kept i fun listed => other (Channel.mem_ownedSites.mp listed).2)

/-! ### A context that steps (R79) -/

/-- What STEP leaves (R79): context x is in STEP and LOCAL, its step is new; memory, the host's port and the tatting engine are as they were. -/
structure Stepping (x n id : Nat) (c d : Channel) : Prop where
  state : d.ctxState x = ctxStep
  phase : d.phase x = phLocal
  step : d.step x = { StepSt.reset with fillers := n, cmd := some id }
  frame : d = { c with regs := d.regs, cores := d.cores, steps := d.steps }

theorem Channel.setDesc_frame (c : Channel) (k i v : Nat) : c.setDesc k i v = { c with regs := (c.setDesc k i v).regs } :=
  Channel.regs_only_foldl (fun _ _ => rfl) _ c

/-- The step of context x begins at a channel whose descriptors and digests are written. -/
def Channel.stepBegun (c : Channel) (x n id : Nat) : Channel :=
  (((c.setStep x { StepSt.reset with fillers := n, cmd := some id }).setFld (Reg.UPD_PRESS x) Fl.UPD_PRESS_PHASE phLocal).setCtxState x ctxStep)

theorem stepping_stepBegun (c : Channel) {x : Nat} (hx : x < 16) (n id : Nat) : Stepping x n id c (c.stepBegun x n id) where
  state := by
    rw [Channel.ctxState, Channel.stepBegun, Channel.setCtxState, Channel.fld_setFld_same _ _ _ _ (by decide)]
    rfl
  phase := by
    have apart : Reg.UPD_PRESS x ≠ Reg.CTX_STATE x := by simp only [Reg.UPD_PRESS, Reg.CTX_STATE]; omega
    rw [Channel.phase, Channel.stepBegun, Channel.setCtxState, Channel.fld_setFld_other _ _ _ _ apart, Channel.fld_setFld_same _ _ _ _ (by decide)]
    rfl
  step := Channel.step_setStep_same ..
  frame := rfl

/-- A change of cores that follows leaves it so. -/
theorem Stepping.then_cores {x n id : Nat} {c d e : Channel} (h : Stepping x n id c d) (k : e = { d with cores := e.cores }) : Stepping x n id c e := by
  obtain ⟨state, phase, step, frame⟩ := h
  have regs : e.regs = d.regs := by rw [k]
  have same (a : Nat) (f : Fld) : e.fld a f = d.fld a f := by rw [Channel.fld, Channel.rd, regs, Channel.fld, Channel.rd]
  exact ⟨(same _ _).trans state, (same _ _).trans phase, by rw [k]; exact step, by rw [k, frame]⟩

/-- Registers that were written before do not count. -/
theorem Stepping.after_regs {x n id : Nat} {b c d : Channel} (h : Stepping x n id c d) (k : c = { b with regs := c.regs }) : Stepping x n id b d :=
  ⟨h.state, h.phase, h.step, by rw [h.frame, k]⟩

theorem stepping_stepGo (c : Channel) (w : BitVec 512) {x : Nat} (hx : x < 16) (id : Nat) : Stepping x (cf w 0x16 2) id c (c.stepGo w x id) := by
  unfold Channel.stepGo
  extract_lets a n c1 c2 c3
  have descs : c1 = { c with regs := c1.regs } := Channel.regs_only_foldl (fun _ _ => Channel.setDesc_frame ..) _ c
  have digests : c2 = { c1 with regs := c2.regs } := Channel.regs_only_foldl (fun _ _ => rfl) _ c1
  clear_value c1 c2
  exact (((stepping_stepBegun c2 hx n id).then_cores (Channel.cores_only_foldl _ _ _)).after_regs digests).after_regs descs

end Sys2Proof.Machine
end

section
/-! The submission queues (R407, R411 to R418): which entry starts, what its command does, what holds it back. -/

namespace Sys2Proof.Machine

open Sys2Proof Sys2Proof.Says

/-! ### The entry that is served (R407) -/

section
variable (c : Channel) (q : Nat) (w : BitVec 512)

theorem served_serve : Served c q w (c.serve q w).1 :=
  ⟨⟨rfl, fun _ other => c.rd_setFld_other _ _ (List.ne_of_not_mem_cons other)⟩, c.fld_setFld_same _ Fl.HIF_SQ_STAT_HEAD _ (by decide)⟩

theorem Channel.rd_serve {a : Nat} (other : a ≠ Reg.HIF_SQ_STAT q) : (c.serve q w).1.rd a = c.rd a := c.rd_setFld_other _ _ other

/-- The registers of a submission queue lie above those that reads depend on. -/
theorem sameReads_serve : SameReads c (c.serve q w).1 :=
  ⟨fun _ low => c.rd_serve q w (by simp only [Reg.HIF_SQ_STAT]; omega), rfl, rfl, rfl, rfl⟩

theorem Channel.row_serve (a : Nat) : (c.serve q w).1.row a = c.row a := Channel.row_of_rd ((sameReads_serve c q w).rd _ (by decide)) a

end

/-! ### Whether the entry starts (R416, R418) -/

section
variable {c : Channel} {q : Nat} {w : BitVec 512}

theorem Channel.cmdStart_starts (h : Starts c q w) (fr : Nat) (data : List Byte) (fail : Bool) (raws : RawWords) :
    c.cmdStart q w fr data fail raws = (c.serve q w).1.cmdGo w (c.sq q Fl.HIF_SQ_CFG_CTX) c.host.next fr data fail raws := by
  obtain ⟨-, awake, unmarked, ordered, unstepping⟩ := h
  rw [Channel.cmdStart, if_neg (by rw [awake]; decide), if_neg (by omega), if_neg (not_or.mpr ⟨ordered, unstepping⟩)]
  rfl

theorem Channel.cmdStart_rinsed (awake : c.cmdAsleep (cf w 0 1) = false) (marked : 0 < c.marks q) (fr : Nat) (data : List Byte) (fail : Bool)
    (raws : RawWords) : c.cmdStart q w fr data fail raws = ((c.serve q w).1.setMarks q (c.marks q - 1)).endCmd c.host.next 4 0 0 := by
  rw [Channel.cmdStart, if_neg (by rw [awake]; decide), if_pos marked]
  rfl

theorem Channel.cmdStart_held (awake : c.cmdAsleep (cf w 0 1) = false) (unmarked : c.marks q = 0)
    (held : bit (cf w 1 1) 0 = true ∧ c.host.cmds.any (fun k => k.sq == q) = true ∨
      (cf w 0 1 = 3 ∨ cf w 0 1 = 4) ∧ c.ctxState (c.sq q Fl.HIF_SQ_CFG_CTX) = ctxStep) (fr : Nat) (data : List Byte) (fail : Bool)
    (raws : RawWords) : c.cmdStart q w fr data fail raws = c.blockSq q := by
  rw [Channel.cmdStart, if_neg (by rw [awake]; decide), if_neg (by omega), if_pos held]

theorem Channel.mayStart_of_pickSq (picked : c.pickSq = some q) : c.mayStart q = true := by
  obtain ⟨p, -, found⟩ := List.exists_of_findSome?_eq_some picked
  have starts := List.find?_some found
  simp only [Bool.and_eq_true] at starts
  exact starts.2

end

/-! ### What a command does (R411, R413) -/

section
variable {c : Channel} {w : BitVec 512} {x : Nat} (id fr : Nat) (data : List Byte) (fail : Bool) (raws : RawWords)

theorem Channel.cmdGo_fails (failed : c.cmdCheck w x ≠ 0) : c.cmdGo w x id fr data fail raws = c.endCmd id (c.cmdCheck w x) 0 0 := if_pos failed

section
variable (ok : c.cmdCheck w x = 0)
include ok

theorem Channel.cmdGo_nop (opc : cf w 0 1 = 0) : c.cmdGo w x id fr data fail raws = c.endCmd id 0 0 0 := by
  simp [Channel.cmdGo, ok, opc]

theorem Channel.cmdGo_load (opc : cf w 0 1 = 1) :
    c.cmdGo w x id fr data fail raws = c.loadStart id x (cf w 8 8) (bit (cf w 1 1) 1) raws := by
  simp [Channel.cmdGo, ok, opc]

theorem Channel.cmdGo_unload (opc : cf w 0 1 = 2) : c.cmdGo w x id fr data fail raws = (c.unload x).endCmd id 0 0 0 := by
  simp [Channel.cmdGo, ok, opc]

theorem Channel.cmdGo_step (opc : cf w 0 1 = 3) : c.cmdGo w x id fr data fail raws = c.stepGo w x id := by
  simp [Channel.cmdGo, ok, opc]

theorem Channel.cmdGo_permute (opc : cf w 0 1 = 4) : c.cmdGo w x id fr data fail raws = c.permGo w x id fr := by
  simp [Channel.cmdGo, ok, opc]

theorem Channel.cmdGo_rwrite (opc : cf w 0 1 = 5) :
    c.cmdGo w x id fr data fail raws = Channel.onward { c with yl := { c.yl with reqs := c.yl.reqs ++ [cmdReq w id] } } fr := by
  simp [Channel.cmdGo, ok, opc]

theorem Channel.cmdGo_dma (opc : cf w 0 1 = 6) : c.cmdGo w x id fr data fail raws = c.dmaGo w id data fail := by
  simp [Channel.cmdGo, ok, opc]

end

/-- The host's data counts for a DMA alone, and the bundle's words for a load alone. -/
theorem Channel.cmdGo_congr {l : List Byte} {rs : RawWords} (dma : cf w 0 1 = 6 → l = data) (load : cf w 0 1 = 1 → rs = raws) :
    c.cmdGo w x id fr l fail rs = c.cmdGo w x id fr data fail raws := by
  unfold Channel.cmdGo
  extract_lets st
  split
  · rfl
  · split
    case h_1 opc => rw [load opc]
    case h_6 opc => rw [dma opc]
    all_goals rfl

theorem Channel.cmdStart_congr {q : Nat} {l : List Byte} {rs : RawWords} (dma : cf w 0 1 = 6 → l = data) (load : cf w 0 1 = 1 → rs = raws) :
    c.cmdStart q w fr l fail rs = c.cmdStart q w fr data fail raws := by
  unfold Channel.cmdStart
  extract_lets x opc
  have go (d : Channel) (id : Nat) := Channel.cmdGo_congr (c := d) (x := x) id fr data fail raws dma load
  simp only [go]

end

/-! ### DMA (R414) -/

section
variable {c : Channel} {w : BitVec 512} {o : Nat} (id : Nat) (data : List Byte)

theorem Channel.dmaGo_toHost (toHost : cf w 0x1C 1 = 1) (reach : c.hostReach = true) (row : c.row (cf w 0x10 8) = .lp o) (fail : Bool) :
    c.dmaGo w id data fail =
      (c.emit (.hostWrite c.num (cf w 8 8) (c.ld (cf w 0x10 8) (cf w 0x18 4)))).endCmd id 0 0 (cf w 0x18 4) := by
  simp only [Channel.dmaGo, if_pos toHost, Channel.busRead_lp row, reach, if_true]

theorem Channel.dmaGo_fromHost (fromHost : cf w 0x1C 1 ≠ 1) (reach : c.hostReach = true)
    (whole : cf w 0x18 4 = data.length) :
    c.dmaGo w id data false = (c.busWrite (cf w 0x10 8) data).endCmd id 0 0 data.length := by
  simp [Channel.dmaGo, if_neg fromHost, whole, reach]

theorem Channel.dmaGo_failed (fromHost : cf w 0x1C 1 ≠ 1) :
    c.dmaGo w id data true = (c.busWrite (cf w 0x10 8) (data.take (cf w 0x18 4))).endCmd id 6 1 0 := by
  simp [Channel.dmaGo, if_neg fromHost]

end

/-! ### The rows -/

section
variable {ch : Chan} {q : Que} {w : BitVec 512} (data : List Byte) (raws : RawWords) {s : State}

/-- What a row of a command does: with the host's data where it is a DMA, with the bundle's words where it is a load. -/
theorem exec_hostRow (ch : Chan) (q : Que) (w : BitVec 512) (j : Fin 7) (s : State) : ∃ l rs,
    exec (hostRow ch q w data raws j.val) s = .next (s.startRow ch q w j.val l false rs) ∧ (j.val = 6 → l = data) ∧ (j.val = 1 → rs = raws) :=
  match j with
  | 0 => ⟨[], [], rfl, nofun, nofun⟩
  | 1 => ⟨[], raws, rfl, nofun, fun _ => rfl⟩
  | 2 => ⟨[], [], rfl, nofun, nofun⟩
  | 3 => ⟨[], [], rfl, nofun, nofun⟩
  | 4 => ⟨[], [], rfl, nofun, nofun⟩
  | 5 => ⟨[], [], rfl, nofun, nofun⟩
  | 6 => ⟨data, [], rfl, fun _ => rfl, nofun⟩

/-- A row of a command: the entry at the head of its queue, where the queue may start one. -/
theorem leavesF_hostRow {j : Fin 7} (opc : cf w 0 1 = j.val) : LeavesF 128 (hostRow ch q w data raws j.val) s ch
    (if (s.chan ch).mayStart q.val = true then (s.chan ch).cmdStart q.val w s.free data false raws else s.chan ch) := by
  obtain ⟨l, rs, row, dma, load⟩ := exec_hostRow data raws ch q w j s
  have same := Channel.cmdStart_congr (c := s.chan ch) (q := q.val) s.free data false raws
    (fun is6 => dma (opc ▸ is6)) (fun is1 => load (opc ▸ is1))
  rw [LeavesF, row, State.startRow, State.onFree_eq]
  simp only [opc, and_true, same]

theorem leavesF_hostReadFail (opc : cf w 0 1 = 6) : LeavesF 128 (.hostReadFail ch q w data) s ch
    (if (s.chan ch).mayStart q.val = true then (s.chan ch).cmdStart q.val w s.free data true [] else s.chan ch) := by
  refine leavesF_congr (x := if (s.chan ch).mayStart q.val = true ∧ cf w 0 1 = 6 then _ else _) rfl ?_
  simp only [opc, and_true]

theorem State.startRow_still (still : (s.chan ch).mayStart q.val = false) (opc : Nat) (fail : Bool) :
    s.startRow ch q w opc data fail raws = { s.setChan ch (s.chan ch) with free := s.free + 128 } := by
  rw [State.startRow, State.onFree_eq, if_neg (fun may => Bool.false_ne_true (still.symm.trans may.1))]

end

/-- Settles O43: an entry by whether its queue may start it, then by what holds it back, then by its checks and its opcode. -/
theorem queueCommands : Obligations.QueueCommands := by
  intro ch q w data raws j s c x id c1 st row
  have ctx : x < 16 := bits_lt _ _ _
  have rows (opc : cf w 0 1 = j.val) : LeavesF 128 row s ch
      (if c.mayStart q.val = true then c.cmdStart q.val w s.free data false raws else c) := leavesF_hostRow data raws opc
  have may (go : c.mayStart q.val = true) (opc : cf w 0 1 = j.val) : LeavesF 128 row s ch (c.cmdStart q.val w s.free data false raws) :=
    leavesF_congr (rows opc) (if_pos go)
  have starts (opc : cf w 0 1 = j.val) (go : Starts c q.val w) : LeavesF 128 row s ch (c1.cmdGo w x id s.free data false raws) :=
    leavesF_congr (may go.1 opc) (Channel.cmdStart_starts go ..)
  refine ⟨served_serve c q.val w, fun opc go failed => leavesF_congr (starts opc go) (Channel.cmdGo_fails _ _ _ _ _ failed),
    fun opc go ok => ⟨fun is => ?nop, fun is => ?load, fun is => ?unload, fun is => ?step, fun is => ?permute, fun is => ?rwrite,
      fun is fromHost reach whole lp fits => ?fromHost, fun is toHost reach lp => ?toHost⟩,
    fun opc go ok fromHost => ?readFail, fun opc go awake marked => ?rinsed, fun opc go awake unmarked held => ?held, fun still => ?still,
    fun picked opc => ?picked, fun none => ?none⟩
  case nop => exact leavesF_congr (starts opc go) (Channel.cmdGo_nop _ _ _ _ _ ok (opc.trans is))
  case load => exact leavesF_congr (starts opc go) (Channel.cmdGo_load _ _ _ _ _ ok (opc.trans is))
  case unload =>
    have freed := unloaded_unload c1 x
    exact ⟨c1.unload x, leavesF_congr (starts opc go) (Channel.cmdGo_unload _ _ _ _ _ ok (opc.trans is)), freed.state, freed.mbs, freed.digest,
      by rw [freed.frame]; rfl, by rw [freed.frame], freed.gone, freed.kept⟩
  case step =>
    have steps := stepping_stepGo c1 w ctx id
    exact ⟨c1.stepGo w x id, leavesF_congr (starts opc go) (Channel.cmdGo_step _ _ _ _ _ ok (opc.trans is)), steps.state, steps.phase, steps.step,
      by rw [steps.frame]; rfl, by rw [steps.frame], by rw [steps.frame]; rfl⟩
  case permute => exact ⟨_, leavesF_congr (starts opc go) (Channel.cmdGo_permute _ _ _ _ _ ok (opc.trans is)), rfl⟩
  case rwrite => exact ⟨_, leavesF_congr (starts opc go) (Channel.cmdGo_rwrite _ _ _ _ _ ok (opc.trans is)), rfl⟩
  case fromHost =>
    obtain ⟨o, lp⟩ := lp
    have dma := leavesF_congr (starts opc go) (Channel.cmdGo_dma _ _ _ _ _ ok (opc.trans is))
    exact ⟨_, leavesF_congr dma (Channel.dmaGo_fromHost id data fromHost reach whole),
      Channel.busWrite_lp ((c.row_serve q.val w _).trans lp) fits⟩
  case toHost =>
    obtain ⟨o, lp⟩ := lp
    have dma := leavesF_congr (starts opc go) (Channel.cmdGo_dma _ _ _ _ _ ok (opc.trans is))
    rw [← (sameReads_serve c q.val w).ld]
    exact leavesF_congr dma (Channel.dmaGo_toHost id data toHost reach ((c.row_serve q.val w _).trans lp) false)
  case readFail =>
    have fails := leavesF_congr (leavesF_hostReadFail (ch := ch) (s := s) (q := q) data opc) (if_pos go.1)
    have dma := leavesF_congr (leavesF_congr fails (Channel.cmdStart_starts go ..)) (Channel.cmdGo_dma _ _ _ _ _ ok opc)
    exact ⟨_, leavesF_congr dma (Channel.dmaGo_failed id data fromHost), rfl⟩
  case rinsed =>
    exact ⟨_, leavesF_congr (may go opc) (Channel.cmdStart_rinsed (opc ▸ awake) marked ..), rfl, mget_mset_same ..⟩
  case held => exact leavesF_congr (may go opc) (Channel.cmdStart_held (opc ▸ awake) unmarked (opc ▸ held) ..)
  case still =>
    obtain ⟨l, rs, starts, -, -⟩ := exec_hostRow data raws ch q w j s
    exact ⟨starts.trans (congrArg Host.Outcome.next (State.startRow_still l rs still j.val false)),
      congrArg Host.Outcome.next (State.startRow_still data [] still 6 true)⟩
  case picked =>
    have go := Channel.mayStart_of_pickSq picked
    have picks : LeavesF 128 (.commandStart ch w data raws) s ch (c.cmdStart q.val w s.free data false raws) :=
      leavesF_congr rfl (by simp only [c, picked])
    exact picks.trans (may go opc).symm
  case none => exact leavesF_congr rfl (by simp only [c, none])

end Sys2Proof.Machine
end

section
/-! Completions (R407, R415, R421): the end of a command, the queue that takes its completion, loads that wait for queues. -/

namespace Sys2Proof.Machine

open Sys2Proof Sys2Proof.Says

/-! ### The end of a command (R407) -/

section
variable {c : Channel} {id : Nat} (st det res : Nat)

theorem Channel.endCmd_some {k : Cmd} (known : c.host.cmds.find? (fun k => k.id == id) = some k) (queue : k.cq < 64) :
    c.endCmd id st det res = Channel.count { c with host := { c.host with
      cmds := c.host.cmds.filter (fun k => k.id != id), blocked := [],
      compl := c.host.compl ++ [⟨k.sq, k.cid, k.cq, st, det, if st = 0 then res else 0⟩] } } Reg.HIF_CMDS 1 := by
  simp only [Channel.endCmd, known, if_pos queue]

theorem ctxRegs_endCmd : CtxRegs c (c.endCmd id st det res) := by
  rw [Channel.endCmd]
  split
  case h_1 => exact CtxRegs.refl c
  case h_2 => exact (ctxRegs_of_eq rfl).trans (ctxRegs_count _ (by decide) 1)

end

/-! ### A completion queue that takes an entry (R407, R421) -/

section
variable (c : Channel) (q : Nat)

/-- The tail of completion queue q is one further; the phase turns where it comes round. -/
def Channel.cqTurned : Channel :=
  let t := (c.cqTail q + 1) % c.cqSize q
  let c1 := c.setFld (Reg.HIF_CQ_STAT q) Fl.HIF_CQ_STAT_TAIL t
  if t = 0 then c1.setFld (Reg.HIF_CQ_STAT q) Fl.HIF_CQ_STAT_PHASE (1 - c1.fld (Reg.HIF_CQ_STAT q) Fl.HIF_CQ_STAT_PHASE) else c1

theorem regs_cqTurned : Regs [Reg.HIF_CQ_STAT q] c (c.cqTurned q) := by
  unfold Channel.cqTurned
  extract_lets t c1
  have tail : Regs [Reg.HIF_CQ_STAT q] c c1 := regs_setFld c _ _ t
  split
  · exact regs_mono (regs_trans tail (regs_setFld c1 _ _ _)) (List.append_subset.mpr ⟨List.Subset.refl _, List.Subset.refl _⟩)
  · exact tail

theorem Channel.cqTail_cqTurned : (c.cqTurned q).cqTail q = (c.cqTail q + 1) % c.cqSize q % 2 ^ 16 := by
  unfold Channel.cqTurned
  extract_lets t c1
  have tail : c1.cqTail q = t % 2 ^ 16 := c.fld_setFld_same _ Fl.HIF_CQ_STAT_TAIL t (by decide)
  split
  · exact (c1.fld_setFld_field _ Fl.HIF_CQ_STAT_PHASE Fl.HIF_CQ_STAT_TAIL _ (by decide) (by decide)).trans tail
  · exact tail

theorem Channel.phase_cqTurned : (c.cqTurned q).fld (Reg.HIF_CQ_STAT q) Fl.HIF_CQ_STAT_PHASE =
    if (c.cqTail q + 1) % c.cqSize q = 0 then 1 - c.fld (Reg.HIF_CQ_STAT q) Fl.HIF_CQ_STAT_PHASE
    else c.fld (Reg.HIF_CQ_STAT q) Fl.HIF_CQ_STAT_PHASE := by
  unfold Channel.cqTurned
  extract_lets t c1
  have kept : c1.fld (Reg.HIF_CQ_STAT q) Fl.HIF_CQ_STAT_PHASE = c.fld (Reg.HIF_CQ_STAT q) Fl.HIF_CQ_STAT_PHASE :=
    c.fld_setFld_field _ Fl.HIF_CQ_STAT_TAIL Fl.HIF_CQ_STAT_PHASE t (by decide) (by decide)
  split
  · rw [Channel.fld_setFld_same _ _ _ _ (by decide), kept]
    exact Nat.mod_eq_of_lt (by simp only [Fl.HIF_CQ_STAT_PHASE]; omega)
  · exact kept

/-- The entry counts as one more that no vector has announced. -/
def Channel.cqCounted : Channel := (c.cqTurned q).setUncovered q ((c.cqTurned q).uncovered q + 1)

theorem Channel.uncovered_setUncovered (v : Nat) : (c.setUncovered q v).uncovered q = v := mget_mset_same ..

/-- Past the entry: no more than that, or its vector too where the queue has vectors (R421). -/
theorem Channel.cqNext_cases : c.cqNext q = c.cqCounted q ∨ c.cq q Fl.HIF_CQ_CFG_IEN = 1 ∧ c.cqNext q = (c.cqCounted q).cqVector q := by
  have cfg : (c.cqCounted q).cq q Fl.HIF_CQ_CFG_IEN = c.cq q Fl.HIF_CQ_CFG_IEN := by
    have apart : Reg.HIF_CQ_CFG q ≠ Reg.HIF_CQ_STAT q := by simp only [Reg.HIF_CQ_CFG, Reg.HIF_CQ_STAT]; omega
    exact fld_of_regs (regs_cqTurned c q) (by simpa using apart) _
  rw [← cfg]
  by_cases announced : (c.cqCounted q).cq q Fl.HIF_CQ_CFG_IEN = 1 ∧
      (max 1 ((c.cqCounted q).fld (Reg.HIF_CQ_COAL q) Fl.HIF_CQ_COAL_THRESH) ≤ (c.cqCounted q).uncovered q ∨
        (c.cqCounted q).fld (Reg.HIF_CQ_COAL q) Fl.HIF_CQ_COAL_TIME_US = 0)
  · exact .inr ⟨announced.1, if_pos announced⟩
  · exact .inl (if_neg announced)

/-- A vector: at most its message leaves, ahead of what has left. -/
theorem Channel.msix_sends (v : Nat) : ∃ o, (c.msix v).out = o ++ c.out ∧ (o = [] ∨ o = [.msix c.num v]) := by
  unfold Channel.msix
  split
  · exact ⟨[], rfl, .inl rfl⟩
  · split
    · exact ⟨[.msix c.num v], rfl, .inr rfl⟩
    · split <;> exact ⟨[], rfl, .inl rfl⟩

end

/-- From c to d completion queue q has taken an entry: its tail, its phase, what is not yet announced, at most one vector. -/
structure EntryTaken (q : Nat) (c d : Channel) : Prop where
  frame : d = { c with regs := d.regs, host := { c.host with uncovered := d.host.uncovered }, vecs := d.vecs, out := d.out }
  rd : ∀ a, a ∉ [Reg.HIF_CQ_STAT q] → d.rd a = c.rd a
  tail : d.cqTail q = (c.cqTail q + 1) % c.cqSize q % 2 ^ 16
  phase : d.fld (Reg.HIF_CQ_STAT q) Fl.HIF_CQ_STAT_PHASE =
    if (c.cqTail q + 1) % c.cqSize q = 0 then 1 - c.fld (Reg.HIF_CQ_STAT q) Fl.HIF_CQ_STAT_PHASE
    else c.fld (Reg.HIF_CQ_STAT q) Fl.HIF_CQ_STAT_PHASE
  sends : ∃ o, d.out = o ++ c.out ∧ (o = [] ∨ o = [.msix c.num (c.cq q Fl.HIF_CQ_CFG_VEC)]) ∧
    (c.cq q Fl.HIF_CQ_CFG_IEN = 0 → o = [] ∧ d.vecs = c.vecs ∧ d.uncovered q = c.uncovered q + 1)

section
variable (c : Channel) (q : Nat)

theorem entryTaken_cqCounted : EntryTaken q c (c.cqCounted q) := by
  obtain ⟨frame, kept⟩ := regs_cqTurned c q
  have host : (c.cqTurned q).host = c.host := by rw [frame]
  have vecs : (c.cqTurned q).vecs = c.vecs := by rw [frame]
  have out : (c.cqTurned q).out = c.out := by rw [frame]
  refine ⟨?frame, kept, c.cqTail_cqTurned q, c.phase_cqTurned q, [], out, .inl rfl, fun _ => ⟨rfl, vecs, ?uncovered⟩⟩
  case frame =>
    rw [Channel.cqCounted, Channel.setUncovered, host, frame]
  case uncovered =>
    rw [Channel.cqCounted, Channel.uncovered_setUncovered, Channel.uncovered, host, Channel.uncovered]

/-- The vector that follows an entry of a queue that has vectors. -/
theorem EntryTaken.then_vector {c d : Channel} (h : EntryTaken q c d) (vectors : c.cq q Fl.HIF_CQ_CFG_IEN = 1) (quiet : d.out = c.out) :
    EntryTaken q c (d.cqVector q) := by
  have cfg : d.cq q Fl.HIF_CQ_CFG_VEC = c.cq q Fl.HIF_CQ_CFG_VEC := by
    have apart : Reg.HIF_CQ_CFG q ∉ [Reg.HIF_CQ_STAT q] := by simp only [Reg.HIF_CQ_CFG, Reg.HIF_CQ_STAT, List.mem_singleton]; omega
    rw [Channel.cq, Channel.fld, h.rd _ apart, Channel.cq, Channel.fld]
  have num : d.num = c.num := by rw [h.frame]
  have same (a : Nat) : (d.cqVector q).rd a = d.rd a := d.rd_msix _ a
  have fld (f : Fld) : (d.cqVector q).fld (Reg.HIF_CQ_STAT q) f = d.fld (Reg.HIF_CQ_STAT q) f := by rw [Channel.fld, same, Channel.fld]
  obtain ⟨o, sent, one⟩ := d.msix_sends (d.cq q Fl.HIF_CQ_CFG_VEC)
  refine ⟨?frame, fun a other => (same a).trans (h.rd a other), (fld _).trans h.tail, (fld _).trans h.phase,
    o, ?out, by rwa [num, cfg] at one, ?none⟩
  case frame => rw [Channel.cqVector, Channel.setUncovered, Channel.msix_frame, h.frame]
  case out => exact sent.trans (by rw [quiet])
  case none => exact fun none => absurd (vectors.symm.trans none) (by decide)

theorem entryTaken_cqNext : EntryTaken q c (c.cqNext q) := by
  have counted := entryTaken_cqCounted c q
  have quiet : (c.cqCounted q).out = c.out := by
    obtain ⟨frame, -⟩ := regs_cqTurned c q
    rw [Channel.cqCounted, Channel.setUncovered, frame]
  rcases c.cqNext_cases q with only | ⟨vectors, announced⟩
  · rw [only]
    exact counted
  · rw [announced]
    exact counted.then_vector q vectors quiet

end

/-! ### Loads that wait for their queues (R86, R195) -/

/-- What a load leaves of its context's registers. -/
structure Loaded (x : Nat) (c d : Channel) : Prop where
  state : d.ctxState x = ctxReady
  config : d.config x = (c.config x + 1) % 256

section
variable (c : Channel) (id : Nat) {x : Nat} (b : Bundle) (flush : Bool)

theorem loaded_loadGo (hx : x < 16) : Loaded x c (c.loadGo id x b flush) := by
  unfold Channel.loadGo
  extract_lets c1 c2 c3 c4 c5 c6
  have epochIn : 0x3000 ≤ Reg.CTX_EPOCH x ∧ Reg.CTX_EPOCH x < 0x4000 := by simp only [Reg.CTX_EPOCH]; omega
  have stateIn : 0x3000 ≤ Reg.CTX_STATE x ∧ Reg.CTX_STATE x < 0x4000 := by simp only [Reg.CTX_STATE]; omega
  have apart : Reg.CTX_EPOCH x ≠ Reg.CTX_STATE x := by simp only [Reg.CTX_EPOCH, Reg.CTX_STATE]; omega
  have config {d e : Channel} (kept : CtxRegs d e) : e.config x = d.config x := by
    rw [Channel.config, Channel.fld, kept _ epochIn.1 epochIn.2, Channel.config, Channel.fld]
  have released : CtxRegs c c1 := ctxRegs_foldl (fun d i => (queuesOut_halvesOff d i).ctx.trans (coresOut_releaseCore _ x i).ctx) _ c
  have cores : CtxRegs c1 c2 := ctxRegs_foldl (fun d i => ctxRegs_loadCore d x b i) _ c1
  have digest : c3.config x = c2.config x := by
    have other : ∀ k ∈ List.range 8, Reg.CTX_EPOCH x ≠ Reg.CTX_DIGEST x k := fun k _ => by simp only [Reg.CTX_EPOCH, Reg.CTX_DIGEST]; omega
    rw [Channel.config, Channel.fld, Channel.rd_foldl_wr_other other, Channel.config, Channel.fld]
  have counted : c4.config x = (c3.config x + 1) % 256 % 256 := c3.fld_setFld_same _ Fl.CTX_EPOCH_CONFIG _ (by decide)
  have flushed : CtxRegs c4 c5 := by
    simp only [c5]
    split
    · exact (queuesOut_foldl queuesOut_queuesFlush b.sites c4).ctx
    · exact CtxRegs.refl c4
  have ready : c6.ctxState x = ctxReady := (Channel.fld_setFld_same _ _ Fl.CTX_STATE_STATE _ (by decide)).trans rfl
  have same : c6.config x = c5.config x := by
    simp only [c6, Channel.config, Channel.setCtxState, Channel.fld_setFld_other _ _ _ _ apart]
  have ended : CtxRegs c6 (c6.endCmd id 0 0 (c6.config x)) := ctxRegs_endCmd 0 0 _
  refine ⟨?state, ?config⟩
  case state => rw [Channel.ctxState, Channel.fld, ended _ stateIn.1 stateIn.2, ← Channel.fld, ← Channel.ctxState, ready]
  case config => rw [config ended, same, config flushed, counted, digest, config cores, config released, Nat.mod_mod]

end

section
variable {c : Channel} {x : Nat}

theorem Channel.loadWaitEnd_none (none : c.host.loads.find? (fun l => l.ctx == x) = none) (late : Bool) : c.loadWaitEnd x late = c := by
  rw [Channel.loadWaitEnd, none]

section
variable {l : LoadWait} (waits : c.host.loads.find? (fun l => l.ctx == x) = some l)
include waits

theorem Channel.loadWaitEnd_late : c.loadWaitEnd x true =
    Channel.endCmd { c with host := { c.host with loads := c.host.loads.filter (fun e => e.ctx != x) } } l.id 1 0 0 := by
  simp only [Channel.loadWaitEnd, waits, if_true]

theorem Channel.loadWaitEnd_undrained (undrained : c.drained x = false) : c.loadWaitEnd x false = c := by
  simp [Channel.loadWaitEnd, waits, undrained]

theorem Channel.loadWaitEnd_drained (drained : c.drained x = true) : c.loadWaitEnd x false =
    Channel.loadGo { c with host := { c.host with loads := c.host.loads.filter (fun e => e.ctx != x) } } l.id x (c.bundleAt l.bundle) false := by
  simp [Channel.loadWaitEnd, waits, drained]

end

end

/-! ### The oldest completion of a queue (R407, R415) -/

/-- What a completion queue writes to the host, where a write gets there. -/
def Channel.entryWrite (c : Channel) (q : Nat) (e : Compl) : List Out :=
  if c.hostReach then [.hostWrite c.num (c.cqAddr q) (c.complBytes e)] else []

section
variable {c : Channel} {q : Nat}

theorem Channel.complete_none (none : c.host.compl.find? (fun e => e.cq == q) = none) : c.complete q = c := by
  rw [Channel.complete, none]

section
variable {e : Compl} (due : c.host.compl.find? (fun e => e.cq == q) = some e)
include due

theorem Channel.complete_off (off : c.cqOn q = false) : c.complete q = { c with host := { c.host with compl := eraseFirst e c.host.compl } } := by
  simp [Channel.complete, due, off]

theorem Channel.complete_full (on : c.cqOn q = true) (full : c.cqFull q = true) : c.complete q = c := by
  simp [Channel.complete, due, on, full]

theorem Channel.complete_written (on : c.cqOn q = true) (room : c.cqFull q = false) (up : c.way.link = true) :
    c.complete q =
      Channel.cqNext { c with host := { c.host with compl := eraseFirst e c.host.compl }, out := c.entryWrite q e ++ c.out } q := by
  have reach : Channel.hostReach { c with host := { c.host with compl := eraseFirst e c.host.compl } } = c.hostReach := rfl
  rw [Channel.complete, due]
  simp only [on, room, up, reach, Channel.entryWrite]
  cases c.hostReach <;> rfl

end

end

/-- Settles O44: what ends a command, what a completion queue does with the oldest completion due, what ends the wait of a load. -/
theorem completions : Obligations.Completions := by
  intro ch q x k id st det res e l s c a gone due rest
  have write {d : Channel} (same : c.complete q.val = d) : Leaves (.completionWrite ch q) s ch d := leaves_congr rfl same
  have late {d : Channel} (same : c.loadWaitEnd x.val true = d) : Leaves (.reconfigDrainTimeout ch x) s ch d := leaves_congr rfl same
  have done {d : Channel} (same : c.loadWaitEnd x.val false = d) : Leaves (.reconfigDrainDone ch x) s ch d := leaves_congr rfl same
  refine ⟨fun known queue => ?ended, fun one on room up => ?written, fun one on full => write (Channel.complete_full one on full),
    fun one off => write (Channel.complete_off one off), fun none => write (Channel.complete_none none),
    fun waits => ⟨late (Channel.loadWaitEnd_late waits), fun undrained => done (Channel.loadWaitEnd_undrained waits undrained),
      fun drained => ⟨done (Channel.loadWaitEnd_drained waits drained), ?goes⟩⟩,
    fun none => ⟨late (Channel.loadWaitEnd_none none true), done (Channel.loadWaitEnd_none none false)⟩⟩
  case ended =>
    rw [Channel.endCmd_some st det res known queue]
    exact ⟨_, regs_count _ _ 1, counted_count _ _ 1, rfl⟩
  case written =>
    have taken := entryTaken_cqNext { gone with out := c.entryWrite q.val e ++ c.out } q.val
    obtain ⟨o, sent, vector, quiet⟩ := taken.sends
    exact ⟨_, o, write (Channel.complete_written one on room up), ⟨taken.frame, taken.rd⟩, taken.tail, taken.phase,
      sent.trans (List.append_assoc ..).symm, vector, quiet⟩
  case goes =>
    have loaded := loaded_loadGo rest l.id (c.bundleAt l.bundle) false x.isLt
    exact ⟨loaded.state, loaded.config⟩

end Sys2Proof.Machine
end

section
/-! Mailboxes (R425 to R429): what a write, a clear, a timeout, a reply does to one. -/

namespace Sys2Proof.Machine

open Sys2Proof Sys2Proof.Says

theorem State.setChan_setChan (s : State) (ch : Chan) (c d : Channel) : (s.setChan ch c).setChan ch d = s.setChan ch d := by
  match ch with
  | 0 | 1 | 2 | 3 => rfl

/-! ### The state word and the binding of a mailbox -/

section
variable (c : Channel) (n : Nat)

/-- The state word of mailbox n with field f set to v. -/
def Channel.setMbx (f : Fld) (v : Nat) : Channel := c.setFld (Reg.MBX_STAT n) f v

theorem regs_setMbx (f : Fld) (v : Nat) : Regs [Reg.MBX_STAT n] c (c.setMbx n f v) := regs_setFld c _ f v

theorem fieldsBut_setMbx {f : Fld} (v : Nat) (h : f.lo + f.w ≤ 32) : FieldsBut (Reg.MBX_STAT n) f c (c.setMbx n f v) :=
  fun g apart => c.fld_setFld_field _ f g v h apart

theorem Channel.fld_setMbx {f : Fld} (v : Nat) (h : f.lo + f.w ≤ 32) : (c.setMbx n f v).fld (Reg.MBX_STAT n) f = v % 2 ^ f.w :=
  c.fld_setFld_same _ f v h

theorem Channel.mbxFull_setMbx (full : Bool) : (c.setMbx n Fl.MBX_STAT_FULL (b2n full)).mbxFull n = full := by
  rw [Channel.mbxFull, c.fld_setMbx n _ (by decide)]
  cases full <;> rfl

end

section
variable {c d : Channel} {n : Nat}

/-- Where the binding of mailbox n and the channel's number are the same, its sender and its receiver are. -/
theorem Channel.isTx_of_bind (h : d.rd (Reg.MBX_BIND n) = c.rd (Reg.MBX_BIND n)) (id : Nat) : d.isTx n id = c.isTx n id := by
  simp only [Channel.isTx, Channel.bindF, Channel.fld, h]

theorem Channel.isRx_of_bind (h : d.rd (Reg.MBX_BIND n) = c.rd (Reg.MBX_BIND n)) (id : Nat) : d.isRx n id = c.isRx n id := by
  simp only [Channel.isRx, Channel.bindF, Channel.fld, h]

/-- The words and states of mailboxes lie above the bindings of the 16. -/
theorem bind_of_regs (hn : n < 16) (h : Regs [Reg.MBX_STAT n, Reg.MBX_DATA n] c d) : d.rd (Reg.MBX_BIND n) = c.rd (Reg.MBX_BIND n) := by
  obtain ⟨-, kept⟩ := h
  have stat : Reg.MBX_BIND n ≠ Reg.MBX_STAT n := by simp only [Reg.MBX_BIND, Reg.MBX_STAT]; omega
  have data : Reg.MBX_BIND n ≠ Reg.MBX_DATA n := by simp only [Reg.MBX_BIND, Reg.MBX_DATA]; omega
  exact kept _ (by simp [stat, data])

theorem hostId_of_regs {l : List Nat} (h : Regs l c d) : d.hostId = c.hostId := by
  obtain ⟨frame, -⟩ := h
  rw [frame]
  rfl

end

/-- The host learns event e where the party given is its own. -/
def Channel.told (c : Channel) (own : Bool) (e : Nat) : Channel := if own then c.event e else c

/-! ### A word that enters a mailbox (R426) -/

section
variable (c : Channel) {n : Nat} (v : Nat)

/-- Mailbox n is full of word v. -/
def Channel.mbxHolding (n v : Nat) : Channel := (c.wr (Reg.MBX_DATA n) v).setMbx n Fl.MBX_STAT_FULL 1

theorem stat_ne_data (n : Nat) : Reg.MBX_STAT n ≠ Reg.MBX_DATA n := by simp only [Reg.MBX_STAT, Reg.MBX_DATA]; omega

theorem regs_mbxHolding (n : Nat) : Regs [Reg.MBX_STAT n, Reg.MBX_DATA n] c (c.mbxHolding n v) :=
  regs_mono (regs_trans (regs_wr c _ v) (regs_setMbx _ n _ 1)) (by simp)

theorem Channel.rd_data_mbxHolding (n : Nat) : (c.mbxHolding n v).rd (Reg.MBX_DATA n) = v % 2 ^ 32 := by
  rw [Channel.mbxHolding, Channel.setMbx, Channel.rd_setFld_other _ _ _ (stat_ne_data n).symm, Channel.rd_wr_same]

theorem fieldsBut_mbxHolding (n : Nat) : FieldsBut (Reg.MBX_STAT n) Fl.MBX_STAT_FULL c (c.mbxHolding n v) := fun g apart =>
  (fieldsBut_setMbx _ n 1 (by decide) g apart).trans (c.fld_wr_other g v (stat_ne_data n))

theorem Channel.mbxFill_eq (hn : n < 16) : c.mbxFill n v = (c.mbxHolding n v).told (c.isRx n c.hostId) 3 := by
  have holds := regs_mbxHolding c v n
  rw [← Channel.isRx_of_bind (bind_of_regs hn holds), ← hostId_of_regs holds]
  rfl

end

/-! ### Accesses by masters -/

section
variable {ch : Chan} {m : Master} {n : Fin 16} {s : State}

theorem leaves_mbxWrite (h : Gets (s.chan ch) m) (v : Word) :
    Leaves (.mbxWrite ch m n v .clean) s ch ((s.chan ch).mbxWrite (masterId ch.val m) n.val v.toNat) := by
  obtain ⟨notPf0, way⟩ := h
  refine leaves_congr (congrArg Host.Outcome.next (State.masterTo_lands notPf0 way _)) ?_
  split <;> rfl

theorem leaves_mbxClear (h : Gets (s.chan ch) m) :
    Leaves (.mbxClear ch m n) s ch ((s.chan ch).mbxStat (masterId ch.val m) n.val 1) := by
  obtain ⟨notPf0, way⟩ := h
  exact congrArg Host.Outcome.next (State.masterTo_lands notPf0 way _)

/-- The header of a sequencer's mailbox write (R63). -/
def mbxHdr (m : Master) (n : Nat) : Nat := 4 * 2 ^ 29 + 105 * 2 ^ 22 + masterNode m * 2 ^ 15 + 2 ^ 13 + n

/-- A write of a mailbox word over the control network. -/
theorem leaves_mbxWrite_net (notPf0 : m ≠ .pf0) (net : masterNode m ≠ 105) (v : Word) (ecc : Ecc) :
    Leaves (.mbxWrite ch m n v ecc) s ch
      ((s.chan ch).cnetRx 105 (mbxHdr m n.val) ecc fun c => c.mbxWrite (masterId ch.val m) n.val v.toNat) := by
  have reaches : m = .pf → (s.chan ch).hostWay = .open := fun host => absurd (congrArg masterNode host) net
  exact leaves_congr (congrArg Host.Outcome.next (State.masterTo_lands notPf0 reaches _)) (if_neg net)

theorem mbxWrite_single (notPf0 : m ≠ .pf0) (net : masterNode m ≠ 105) (v : Word) :
    exec (.mbxWrite ch m n v .single) s =
      exec (.mbxWrite ch m n v .clean) (s.setChan ch ((s.chan ch).addFld Reg.CNET_CORR Fl.CNET_CORR_CORR 1)) := by
  have clean := leaves_mbxWrite_net (ch := ch) (n := n) (s := s.setChan ch ((s.chan ch).addFld Reg.CNET_CORR Fl.CNET_CORR_CORR 1)) notPf0 net v .clean
  rw [Leaves, State.setChan_setChan, State.chan_setChan_same] at clean
  exact (leaves_mbxWrite_net notPf0 net v .single).trans clean.symm

end

/-! ### What each access does (R426, R427) -/

section
variable {c : Channel} {n id : Nat}

theorem Channel.mbxWrite_notTx (notTx : c.isTx n id = false) (v : Nat) : c.mbxWrite id n v = c.badMbx := by
  simp [Channel.mbxWrite, notTx]

theorem Channel.mbxWrite_full (tx : c.isTx n id = true) (full : c.mbxFull n = true) (v : Nat) : c.mbxWrite id n v = c.setMbx n Fl.MBX_STAT_OVR 1 := by
  simp [Channel.mbxWrite, tx, full, Channel.setMbx]

theorem Channel.mbxWrite_empty (tx : c.isTx n id = true) (empty : c.mbxFull n = false) (v : Nat) : c.mbxWrite id n v = c.mbxFill n v := by
  simp [Channel.mbxWrite, tx, empty]

theorem Channel.mbxClear_notRx (notRx : c.isRx n id = false) : c.mbxStat id n 1 = c.badMbx := by
  simp only [Channel.mbxStat, notRx, show bit 1 1 = false from rfl, show bit 1 2 = false from rfl]
  simp

theorem Channel.mbxClear_rx (rx : c.isRx n id = true) : c.mbxStat id n 1 = c.mbxFree n := by
  simp only [Channel.mbxStat, rx, show bit 1 0 = true from rfl, show bit 1 1 = false from rfl, show bit 1 2 = false from rfl]
  simp

theorem Channel.mbxFree_empty (empty : c.mbxFull n = false) : c.mbxFree n = c := by
  simp [Channel.mbxFree, empty]

theorem Channel.mbxFree_full (hn : n < 16) (full : c.mbxFull n = true) :
    c.mbxFree n = ((c.setMbx n Fl.MBX_STAT_FULL 0).told (c.isTx n c.hostId) 4).mbxNext n := by
  have emptied : Regs [Reg.MBX_STAT n] c (c.setMbx n Fl.MBX_STAT_FULL 0) := regs_setMbx c n _ 0
  rw [← Channel.isTx_of_bind (bind_of_regs hn (regs_mono emptied (by simp))), ← hostId_of_regs emptied, Channel.mbxFree, full]
  rfl

theorem Channel.mbxLate_full (hn : n < 16) (full : c.mbxFull n = true) (bound : c.bindF n Fl.MBX_BIND_VALID = 1) :
    c.mbxLate n = (c.setMbx n Fl.MBX_STAT_TIMEOUT 1).told (c.isTx n c.hostId) 5 := by
  have late : Regs [Reg.MBX_STAT n] c (c.setMbx n Fl.MBX_STAT_TIMEOUT 1) := regs_setMbx c n _ 1
  rw [← Channel.isTx_of_bind (bind_of_regs hn (regs_mono late (by simp))), ← hostId_of_regs late, Channel.mbxLate, if_pos ⟨full, bound⟩]
  rfl

theorem Channel.mbxLate_idle (idle : c.mbxFull n = false ∨ c.bindF n Fl.MBX_BIND_VALID = 0) : c.mbxLate n = c := by
  refine if_neg fun ⟨full, bound⟩ => ?_
  rcases idle with empty | unbound
  · exact Bool.false_ne_true (empty.symm.trans full)
  · exact absurd (unbound.symm.trans bound) (by decide)

/-! ### Replies (R429) -/

section
variable {r k : Nat} (w : Nat) (a : Reply)

theorem Channel.reply_none (none : c.repBox r = none) : c.reply r w a = c := by rw [Channel.reply, none]

theorem Channel.reply_empty (box : c.repBox r = some k) (empty : c.mbxFull k = false) :
    c.reply r w a = c.mbxFill k (replyWord w a.stat a.res) := by
  simp [Channel.reply, box, empty, replyWord]

theorem Channel.reply_full (box : c.repBox r = some k) (full : c.mbxFull k = true) :
    c.reply r w a = { c with host := { c.host with replies := c.host.replies ++ [(k, replyWord w a.stat a.res)] } } := by
  simp [Channel.reply, box, full, replyWord]

end

end

/-- The mailboxes' half of O46: by who accesses the mailbox and whether it is full. -/
theorem mailboxes : Says.Mailboxes := by
  intro ch m n v r w a k s c id st told
  refine ⟨fun gets tx empty => ?fill, fun gets tx full => ?overrun, fun gets notTx => ?badWrite, fun ⟨notPf0, _⟩ net => ⟨?corrected, ?lost⟩,
    fun gets rx full => ?clear, fun gets rx empty => ?clearEmpty, fun gets notRx => ?badClear, fun full bound => ?late, fun idle => ?idle,
    Channel.reply_empty w a, Channel.reply_full w a, Channel.reply_none w a⟩
  case fill =>
    have fills : c.mbxWrite id n.val v.toNat = (c.mbxHolding n.val v.toNat).told (c.isRx n.val c.hostId) 3 :=
      (Channel.mbxWrite_empty tx empty _).trans (c.mbxFill_eq _ n.isLt)
    exact ⟨_, leaves_congr (leaves_mbxWrite gets v) fills, regs_mbxHolding c _ n.val,
      (c.rd_data_mbxHolding _ n.val).trans (Nat.mod_eq_of_lt v.isLt), Channel.mbxFull_setMbx _ n.val true, fieldsBut_mbxHolding c _ n.val⟩
  case overrun =>
    exact ⟨_, leaves_congr (leaves_mbxWrite gets v) (Channel.mbxWrite_full tx full _), regs_setMbx c n.val _ 1, c.fld_setMbx n.val 1 (by decide),
      fieldsBut_setMbx c n.val 1 (by decide)⟩
  case badWrite =>
    exact ⟨_, leaves_congr (leaves_mbxWrite gets v) (Channel.mbxWrite_notTx notTx _), regs_count c _ 1, counted_count c _ 1⟩
  case corrected =>
    exact ⟨_, regs_setFld c _ _ _, c.fld_addFld_same _ 1 (by decide), mbxWrite_single notPf0 net v⟩
  case lost =>
    exact ⟨_, leaves_mbxWrite_net notPf0 net v .double, code_mkFault (by decide) .., node_mkFault_block (by decide) ..⟩
  case clear =>
    have frees := (Channel.mbxClear_rx rx).trans (Channel.mbxFree_full n.isLt full)
    exact ⟨_, leaves_congr (leaves_mbxClear gets) frees, regs_setMbx c n.val _ 0, c.mbxFull_setMbx n.val false,
      fieldsBut_setMbx c n.val 0 (by decide)⟩
  case clearEmpty => exact leaves_congr (leaves_mbxClear gets) ((Channel.mbxClear_rx rx).trans (Channel.mbxFree_empty empty))
  case badClear => exact ⟨_, leaves_congr (leaves_mbxClear gets) (Channel.mbxClear_notRx notRx), regs_count c _ 1, counted_count c _ 1⟩
  case late =>
    exact ⟨_, leaves_congr rfl (Channel.mbxLate_full n.isLt full bound), regs_setMbx c n.val _ 1, c.fld_setMbx n.val 1 (by decide),
      fieldsBut_setMbx c n.val 1 (by decide)⟩
  case idle => exact leaves_congr rfl (Channel.mbxLate_idle idle)

end Sys2Proof.Machine
end

section
/-! Requests of the host that sequencers answer (R429, R430, R439, R496). -/

namespace Sys2Proof.Machine

open Sys2Proof Sys2Proof.Says

/-! ### What a mailbox that is emptied leaves -/

/-- A register that no mailbox and no event of the host's port changes. -/
abbrev NoMail (a : Nat) : Prop := a ≠ Reg.HIF_EVPEND ∧ (a < 0x9080 ∨ 0x9100 ≤ a)

/-- From c to d mailbox n has changed, at most: its two registers, the pending events, replies that wait, what leaves the channel. -/
structure Mailed (n : Nat) (c d : Channel) : Prop where
  only : MailOnly c d
  rd : ∀ a, a ≠ Reg.HIF_EVPEND → a ≠ Reg.MBX_STAT n → a ≠ Reg.MBX_DATA n → d.rd a = c.rd a

section
variable {c d e : Channel} {n : Nat}

theorem Mailed.refl (n : Nat) (c : Channel) : Mailed n c c := ⟨rfl, fun _ _ _ _ => rfl⟩

theorem Mailed.trans (h : Mailed n c d) (k : Mailed n d e) : Mailed n c e where
  only := by
    have first := h.only
    have second := k.only
    rw [MailOnly] at first second ⊢
    rw [second, first]
  rd a event stat data := (k.rd a event stat data).trans (h.rd a event stat data)

theorem mailed_of_regs {l : List Nat} (sub : l ⊆ [Reg.MBX_STAT n, Reg.MBX_DATA n]) (h : Regs l c d) : Mailed n c d := by
  obtain ⟨frame, kept⟩ := regs_mono h sub
  refine ⟨?only, fun a _ stat data => kept a (by simp [stat, data])⟩
  case only => rw [MailOnly, frame]

theorem mailed_told (c : Channel) (n : Nat) (own : Bool) (e : Nat) : Mailed n c (c.told own e) := by
  cases own
  case false => exact Mailed.refl n c
  case true =>
    refine ⟨?only, fun a event _ _ => c.rd_event_other e event⟩
    case only => rw [MailOnly, Channel.told, if_pos rfl, c.event_frame e]

theorem mailed_mbxFill (c : Channel) (n v : Nat) : Mailed n c (c.mbxFill n v) := by
  have holds : Mailed n c (c.mbxHolding n v) := mailed_of_regs (List.Subset.refl _) (regs_mbxHolding c v n)
  exact holds.trans (mailed_told _ n ((c.mbxHolding n v).isRx n (c.mbxHolding n v).hostId) 3)

theorem mailed_mbxNext (c : Channel) (n : Nat) : Mailed n c (c.mbxNext n) := by
  unfold Channel.mbxNext
  split
  case h_1 r _ =>
    have taken : Mailed n c { c with host := { c.host with replies := eraseFirst r c.host.replies } } := ⟨rfl, fun _ _ _ _ => rfl⟩
    exact taken.trans (mailed_mbxFill _ n r.2)
  case h_2 => exact Mailed.refl n c

theorem mailed_mbxFree (c : Channel) (n : Nat) : Mailed n c (c.mbxFree n) := by
  unfold Channel.mbxFree
  extract_lets c1
  split
  case isTrue => exact Mailed.refl n c
  case isFalse =>
    have emptied : Mailed n c c1 := mailed_of_regs (by simp) (regs_setMbx c n Fl.MBX_STAT_FULL 0)
    exact (emptied.trans (mailed_told c1 n (c1.isTx n c1.hostId) 4)).trans (mailed_mbxNext _ n)

section
variable (h : Mailed n c d) (hn : n < 16)
include h

theorem Mailed.pwr : d.pwr = c.pwr := by rw [h.only]
theorem Mailed.flash : d.flash = c.flash := by rw [h.only]
theorem Mailed.cmds : d.host.cmds = c.host.cmds := by rw [h.only]
theorem Mailed.bkts : d.bkts = c.bkts := by rw [h.only]
theorem Mailed.hostId : d.hostId = c.hostId := by rw [Channel.hostId, h.only, Channel.hostId]

include hn

theorem Mailed.rd_noMail {a : Nat} (out : NoMail a) : d.rd a = c.rd a := by
  obtain ⟨event, apart⟩ := out
  exact h.rd a event (by simp only [Reg.MBX_STAT]; omega) (by simp only [Reg.MBX_DATA]; omega)

theorem Mailed.fld {a : Nat} (out : NoMail a) (f : Fld) : d.fld a f = c.fld a f := by
  rw [Channel.fld, h.rd_noMail hn out, Channel.fld]

theorem Mailed.ctxState {x : Nat} (hx : x < 16) : d.ctxState x = c.ctxState x :=
  h.fld hn (by simp only [NoMail, Reg.CTX_STATE, Reg.HIF_EVPEND]; omega) _

theorem Mailed.hf (k : Nat) (f : Fld) : d.hf k f = c.hf k f :=
  h.fld hn (by simp only [NoMail, Reg.PWR_HALF, Reg.HIF_EVPEND]; omega) f

theorem Mailed.pst : d.pst = c.pst := h.fld hn (by decide) _

/-- The checks of an entry look at no mailbox (R480). -/
theorem Mailed.entryCheck (target : Nat) : d.entryCheck target = c.entryCheck target := by
  have busy : d.anyBusy = c.anyBusy := by
    rw [Bool.eq_iff_iff, Channel.anyBusy, Channel.anyBusy, List.any_eq_true, List.any_eq_true]
    exact exists_congr fun x => and_congr_right fun inRange => by rw [h.ctxState hn (List.mem_range.mp inRange)]
  have port : d.firstPort = c.firstPort := List.find?_congr fun k inRange => by
    have low := List.mem_range.mp inRange
    rw [h.fld hn (by simp only [NoMail, Reg.YLP_CTRL, Reg.HIF_EVPEND]; omega)]
  have rinse : d.rphase = c.rphase := h.fld hn (by decide) _
  simp only [Channel.entryCheck, h.pwr, h.pst hn, busy, rinse, port, h.fld hn (a := Reg.DWG_STATUS) (by decide)]

/-- Nor do those of a DVFS request (R489). -/
theorem Mailed.dvfsCheck (k div vsel : Nat) (sd sv : Bool) : d.dvfsCheck k div vsel sd sv = c.dvfsCheck k div vsel sd sv := by
  simp only [Channel.dvfsCheck, Channel.half, h.pwr, h.pst hn, h.hf hn]

end

end

/-! ### Requests that are served (R429) -/

section
variable {c : Channel} {r n : Nat} {fs : Nat → Bool} (act : Nat → Channel → Channel × Reply)

theorem Channel.box_lt (box : c.reqBox r = some n) : n < 16 := List.mem_range.mp (List.mem_of_find?_eq_some box)

theorem Channel.serveReq_none (none : c.reqBox r = none) : c.serveReq r fs act = c := by rw [Channel.serveReq, none]

theorem Channel.serveReq_other (box : c.reqBox r = some n) (other : fs (reqFunc (c.rd (Reg.MBX_DATA n))) = false) : c.serveReq r fs act = c := by
  simp [Channel.serveReq, box, other]

/-- A request that is served: the mailbox is emptied, the function does its work, the answer goes back. -/
theorem Channel.serveReq_served (box : c.reqBox r = some n) (served : fs (reqFunc (c.rd (Reg.MBX_DATA n))) = true) {d : Channel} {a : Reply}
    (acts : act (reqArg (c.rd (Reg.MBX_DATA n))) (c.mbxFree n) = (d, a)) : c.serveReq r fs act = d.reply r (c.rd (Reg.MBX_DATA n)) a := by
  simp [Channel.serveReq, box, served, acts]

theorem leaves_served {f : Nat} {ch : Chan} {s : State} {i : Instr} (row : Leaves i s ch ((s.chan ch).serveReq r (· == f) act))
    (box : (s.chan ch).reqBox r = some n) (func : reqFunc ((s.chan ch).rd (Reg.MBX_DATA n)) = f) {d : Channel} {a : Reply}
    (acts : act (reqArg ((s.chan ch).rd (Reg.MBX_DATA n))) ((s.chan ch).mbxFree n) = (d, a)) :
    Leaves i s ch (d.reply r ((s.chan ch).rd (Reg.MBX_DATA n)) a) :=
  leaves_congr row (Channel.serveReq_served (fs := (· == f)) act box (beq_iff_eq.mpr func) acts)

end

/-! ### Requests that change nothing but the mailboxes (R439, R496) -/

section
variable {ch : Chan} {j r f n : Nat} {i : Instr} {g : Channel → Nat → Nat} {s : State}

theorem bits_16_mod (v : Nat) : bits v 0 16 % 256 = bits v 0 8 := by
  simp only [bits]
  omega

theorem leaves_asked (h : asked ch j = (i, r, f, g)) : Leaves i s ch ((s.chan ch).askReq r f fun c a => ⟨0, g c a⟩) := by
  match j with
  | 0 =>
    cases h
    refine leaves_congr rfl ?_
    simp only [Channel.fld, Fl.DWG_UCVER_BUILD, bits_16_mod]
    rfl
  | 1 | 2 | 3 | 4 | _ + 5 =>
    cases h
    rfl

theorem asked_mailed (h : asked ch j = (i, r, f, g)) {c d : Channel} (k : Mailed n c d) (hn : n < 16) (a : Nat) : g d a = g c a := by
  match j with
  | 0 => cases h; simp only [k.fld hn (a := Reg.DWG_UCVER) (by decide)]
  | 1 => cases h; simp only [k.ctxState hn (Nat.mod_lt a (by decide)), Channel.cmdsOf, k.cmds]
  | 2 => cases h; simp only [Channel.inflight, Channel.reducing, k.bkts]
  | 3 => cases h; simp only [Channel.spare, k.rd_noMail hn (a := Reg.FLASH_GROWN) (by decide)]
  | 4 => cases h; simp only [k.pst hn, Channel.gated, k.hf hn, k.fld hn (a := Reg.PWR_STATUS) (by decide)]
  | _ + 5 => cases h; simp only [k.hf hn]

end

/-! ### PING, FLUSH, ENTER, EXIT, DVFS (R430, R439, R496) -/

section
variable {ch : Chan} {s : State} {n : Nat}

/-- What PING serves: function 0, and functions that the receiver does not have. -/
def pinged (id f : Nat) : Bool := f == 0 || !hasFunc id f

theorem leaves_ping (p : Fin 5) (box : (s.chan ch).reqBox (0x20 + p.val) = some n) :
    Leaves (.ping ch p) s ch ((s.chan ch).serveReq (0x20 + p.val) (pinged (0x20 + p.val)) fun _ c =>
      (c, ⟨if reqFunc ((s.chan ch).rd (Reg.MBX_DATA n)) != 0 then 2 else 0, 0⟩)) := by
  refine leaves_congr rfl ?_
  simp only [recvId, box]
  rfl

section
variable {p : Fin 5} (box : (s.chan ch).reqBox (0x20 + p.val) = some n)
include box

theorem leaves_ping_ok (func : reqFunc ((s.chan ch).rd (Reg.MBX_DATA n)) = 0) :
    Leaves (.ping ch p) s ch (((s.chan ch).mbxFree n).reply (0x20 + p.val) ((s.chan ch).rd (Reg.MBX_DATA n)) ⟨0, 0⟩) :=
  leaves_congr (leaves_ping p box) (Channel.serveReq_served _ box (by simp [pinged, func]) (by simp [func]))

theorem leaves_ping_unknown (lacks : hasFunc (0x20 + p.val) (reqFunc ((s.chan ch).rd (Reg.MBX_DATA n))) = false)
    (func : reqFunc ((s.chan ch).rd (Reg.MBX_DATA n)) ≠ 0) :
    Leaves (.ping ch p) s ch (((s.chan ch).mbxFree n).reply (0x20 + p.val) ((s.chan ch).rd (Reg.MBX_DATA n)) ⟨2, 0⟩) :=
  leaves_congr (leaves_ping p box) (Channel.serveReq_served _ box (by simp [pinged, lacks]) (by simp [func]))

theorem leaves_ping_known (has : hasFunc (0x20 + p.val) (reqFunc ((s.chan ch).rd (Reg.MBX_DATA n))) = true)
    (func : reqFunc ((s.chan ch).rd (Reg.MBX_DATA n)) ≠ 0) : Leaves (.ping ch p) s ch (s.chan ch) :=
  leaves_congr (leaves_ping p box) (Channel.serveReq_other _ box (by simp [pinged, has, func]))

end

/-- PING is no function of any receiver's own. -/
theorem hasFunc_zero (p : Fin 5) : hasFunc (0x20 + p.val) 0 = false := by decide +revert

/-- FLUSH: whether something is left to program (R430). -/
def Channel.flushFn (c : Channel) : Channel × Reply := if c.flash.buf.isEmpty then (c, ok 1) else (c.flashFlush, ⟨rsBusy, 0⟩)

theorem leaves_flush (ch : Chan) (s : State) : Leaves (.flush ch) s ch ((s.chan ch).serveReq 0x23 (· == 0x31) fun _ c => c.flushFn) := rfl

theorem leaves_enter (ch : Chan) (s : State) : Leaves (.pwrEnter ch) s ch ((s.chan ch).serveReq 0x22 (· == 0x21) fun a c => c.enterFn a) := rfl

theorem leaves_exit (ch : Chan) (s : State) :
    Leaves (.pwrExitReq ch) s ch ((s.chan ch).serveReq 0x22 (· == 0x22) fun _ c => (c.wakeEvent 2 0, ok 0)) :=
  rfl

theorem leaves_dvfs (ch : Chan) (s : State) : Leaves (.dvfs ch) s ch ((s.chan ch).serveReq 0x22 (· == 0x23) fun a c => c.dvfsFn a) := rfl

variable {c : Channel} (a : Nat)

theorem Channel.flushFn_empty (empty : c.flash.buf = []) : c.flushFn = (c, ⟨0, 1⟩) := by
  simp [Channel.flushFn, empty, ok, rsOk]

theorem Channel.flushFn_held (held : c.flash.buf ≠ []) : c.flushFn = (c.flashFlush, ⟨1, 0⟩) := by
  simp [Channel.flushFn, held, rsBusy]

theorem Channel.enterFn_denied (out : bits a 0 3 = 0 ∨ 4 < bits a 0 3) : c.enterFn a = (c, ⟨3, 0⟩) := if_pos out

/-- The answer to an ENTER or a DVFS: OK, or DENIED with what refuses it. -/
def verdict (refused : Option Nat) : Reply := (refused.map (⟨3, ·⟩)).getD ⟨0, 0⟩

theorem Channel.enterFn_asked (pos : 0 < bits a 0 3) (le : bits a 0 3 ≤ 4) :
    c.enterFn a = (c.pwrReq c.hostId (bits a 0 5), verdict ((c.entryCheck (bits a 0 3)).map fun e => e.1 + e.2 * 2 ^ 8)) := by
  rw [Channel.enterFn, if_neg (by omega)]
  cases c.entryCheck (bits a 0 3) <;> rfl

theorem Channel.dvfsFn_none (noDiv : bit a 13 = false) (noVolt : bit a 14 = false) : c.dvfsFn a = (c, ⟨0, 0⟩) := by
  simp [Channel.dvfsFn, Channel.dvfsReq, noDiv, noVolt, ok, rsOk]

theorem Channel.dvfsFn_asked (flags : bit a 13 = true ∨ bit a 14 = true) :
    c.dvfsFn a = (c.dvfsReq c.hostId (bits a 0 1) (bits a 1 4) (bits a 5 8) (bit a 13) (bit a 14),
      verdict ((c.dvfsCheck (bits a 0 1) (bits a 1 4) (bits a 5 8) (bit a 13) (bit a 14)).map fun why => 0x22 + why * 2 ^ 8)) := by
  have asks : ¬ ((!bit a 13) = true ∧ (!bit a 14) = true) := by
    rintro ⟨noDiv, noVolt⟩
    rcases flags with div | volt
    · simp [div] at noDiv
    · simp [volt] at noVolt
  simp only [Channel.dvfsFn, if_neg asks]
  cases c.dvfsCheck (bits a 0 1) (bits a 1 4) (bits a 5 8) (bit a 13) (bit a 14) <;> rfl

end

/-- The requests' half of O46: by whether a request waits, and by its function. -/
theorem sequencerRequests : Says.SequencerRequests := by
  intro ch j r i f g p n s c w free row
  have asks := leaves_asked (s := s) row
  have mailed : Mailed n c free := mailed_mbxFree c n
  refine ⟨mailed.only, fun box func => ?served, fun box func => leaves_congr asks (Channel.serveReq_other _ box (beq_eq_false_iff_ne.mpr func)),
    fun none => leaves_congr asks (Channel.serveReq_none _ none), fun box => leaves_ping_ok box, fun box => leaves_ping_unknown box,
    fun box has => leaves_ping_known box has fun zero => Bool.false_ne_true ((hasFunc_zero p).symm.trans (zero ▸ has)),
    fun box func => ?flush, fun box func => ?enter, fun box func => leaves_served _ (leaves_exit ch s) box func rfl, fun box func => ?dvfs⟩
  case served =>
    rw [← asked_mailed row mailed (Channel.box_lt box)]
    exact leaves_served _ asks box func rfl
  case flush =>
    have serves {d : Channel} {b : Reply} := leaves_served (d := d) (a := b) _ (leaves_flush ch s) box func
    exact ⟨fun empty => serves (Channel.flushFn_empty (mailed.flash ▸ empty)),
      fun held => serves (Channel.flushFn_held (mailed.flash ▸ held))⟩
  case enter =>
    have serves {d : Channel} {b : Reply} := leaves_served (d := d) (a := b) _ (leaves_enter ch s) box func
    have asked (pos : 0 < bits (reqArg w) 0 3) (le : bits (reqArg w) 0 3 ≤ 4) := serves (Channel.enterFn_asked (reqArg w) pos le)
    rw [mailed.hostId, mailed.entryCheck (Channel.box_lt box)] at asked
    refine ⟨fun out => serves (Channel.enterFn_denied _ out), fun pos le ok => ?_, fun pos le who why no => ?_⟩
    · rw [ok] at asked
      exact asked pos le
    · rw [no] at asked
      exact asked pos le
  case dvfs =>
    have serves {d : Channel} {b : Reply} := leaves_served (d := d) (a := b) _ (leaves_dvfs ch s) box func
    intro h dv vs sd sv
    have asked (flags : sd = true ∨ sv = true) := serves (Channel.dvfsFn_asked (reqArg w) flags)
    rw [mailed.hostId, mailed.dvfsCheck (Channel.box_lt box)] at asked
    refine ⟨fun flags ok => ?_, fun flags why no => ?_, fun noDiv noVolt => serves (Channel.dvfsFn_none _ noDiv noVolt)⟩
    · rw [ok] at asked
      exact asked flags
    · rw [no] at asked
      exact asked flags

/-- Settles O46: the mailboxes by who accesses them, the requests by their function. -/
theorem mailboxesAndRequests : Obligations.MailboxesAndRequests := ⟨mailboxes, sequencerRequests⟩

end Sys2Proof.Machine
end
